-- ==== Sys2Proof/Word.lean ====
section
/-! DEFINITION. The word types of the machine: bytes, 64-bit register words, 48-bit device addresses. -/

namespace Sys2Proof

/-- One byte of memory. -/
abbrev Byte := BitVec 8
/-- One 64-bit register word (R4). -/
abbrev Word := BitVec 64
/-- One 48-bit device address (R14). -/
abbrev Addr := BitVec 48

end Sys2Proof
end

