-- ==== Sys2Proof/Machine/Types.lean ====
section
/-! DEFINITION. The operands the commands carry: who issues an access, what a memory access asks for, a packet,
a frame, the outcome of a training phase, and the numbers of dies, tiles, ports and channels (R16, R25). -/

namespace Sys2Proof.Machine

/-- A die: 0 die A, 1 die B (R25). -/
abbrev Die := Fin 2
/-- A tile in its die (R25). -/
abbrev Tile := Fin 64
/-- A Haldif port: 0 to 7 on die A, 8 to 15 on die B (R25). -/
abbrev Port := Fin 16
/-- A bank register of a MEM block: 0 to 23 the tile's banks, 24 the die-pool bank of the same number (R444). -/
abbrev BankIx := Fin 25
/-- A tally in its die (R25). -/
abbrev TallyIx := BitVec 14

/-- A descriptor is its 64 bytes (R339). -/
abbrev Desc := List Byte

/-- The requesters of R16. -/
inductive Requester where
  | warden (d : Die) (w : Fin 8)
  | steward
  | seq (d : Die) (t : Tile)
  /-- A tile's own units: forward feeder, side stall, couch, drain and converter. -/
  | tileUnit (d : Die) (t : Tile)
  | tileChan (d : Die) (t : Tile) (c : Fin 2)
  | dieChan (d : Die) (c : Fin 16)
  | porter (d : Die)
  | clearing (d : Die)
  | update (d : Die)
  /-- Link ingress of a die: packets from another station. -/
  | link (d : Die)
  /-- Incoming RoCEv2 requests on an Ethernet port. -/
  | roce (e : Fin 8)
  | jtag
  deriving DecidableEq, Repr

/-- A physical upset of stored external memory, found when the device is next read: an error pattern XORed into
one stored line (`check` false: the 64-byte data line at `addr`; `check` true: its tier-2 check line), or into the
ECC-pin bytes of an HBM line. -/
structure Upset where
  addr : Addr
  check : Bool
  pattern : List Byte
  deriving DecidableEq, Repr

/-- One memory access: a read of `len` bytes, or a write of `data`. `upset` lists the device errors the access
meets, `linkErr` how many transfers of it fail their link ECC (R454). -/
structure Access where
  write : Bool
  addr : Addr
  len : Nat
  data : List Byte
  upset : List Upset
  linkErr : Nat
  deriving DecidableEq, Repr

/-- An external-memory controller of a die: HBM controller 0 to 7 or tier-2 controller 0 to 11 (R445, R449). -/
inductive ExtCtl where
  | hbm (s : Fin 8)
  | tr2 (p : Fin 12)
  deriving DecidableEq, Repr

/-- What set a row-cache fill going: a demand read, or a run-ahead fetch of the porter or a copy channel (R489). -/
inductive FillSource where
  | demand
  /-- Set going by a demand access in 2 MiB page `page`. -/
  | runAhead (page : Nat)
  deriving DecidableEq, Repr

/-- The eight shakers of a tile, or the eight of an update unit. -/
inductive ShakerUnit where
  | tile (t : Tile)
  | update
  deriving DecidableEq, Repr

/-- A copy channel: two per tile, sixteen per die. -/
inductive ChanId where
  | tile (d : Die) (t : Tile) (c : Fin 2)
  | die (d : Die) (c : Fin 16)
  deriving DecidableEq, Repr

/-- A request line (R534). -/
inductive LineId where
  | tile (d : Die) (t : Tile) (l : Fin 2)
  | die (d : Die) (l : Fin 10)
  deriving DecidableEq, Repr

/-- The copy block whose software request line is written (CPY_SWREQ of a tile, DCP_SWREQ of a die). -/
inductive SwLine where
  | tile (d : Die) (t : Tile)
  | die (d : Die)
  deriving DecidableEq, Repr

/-- A counter block that has clear64 and clear32 (R986). -/
inductive CntBlock where
  | obs (d : Die) (t : Tile)
  | dob (d : Die)
  deriving DecidableEq, Repr

/-- A Haldif packet: the header fields of R638 and the payload. -/
structure Packet where
  typ : BitVec 8
  vc : BitVec 2
  ttl : BitVec 6
  dst : BitVec 16
  src : BitVec 16
  /-- Header byte 6: bit 0 the source die, bits 7 to 1 the source unit. -/
  unit : BitVec 8
  /-- Header byte 7, reserved. -/
  rsv : BitVec 8
  addr : Addr
  len : BitVec 16
  tag : BitVec 32
  ext : BitVec 32
  payload : List Byte
  deriving DecidableEq, Repr

/-- A frame as its code word arrives: whether the FEC decode succeeded, how many symbols it corrected, and the
642 bytes decoded (R612, R614). -/
structure FrameIn where
  fecOk : Bool
  corrected : Nat
  bytes : List Byte
  deriving DecidableEq, Repr

/-- What the lanes of a port show at the end of a training phase: per lane a signal, a DC fault, a valid training
word, an inverted one, the logical number it carries, and the lanes the far receiver reports good (R623 to R626). -/
structure LaneSeen where
  signal : Bool
  dcFault : Bool
  training : Bool
  inverted : Bool
  logical : Fin 8
  deriving DecidableEq, Repr

/-- The outcome of a training phase. -/
structure TrainResult where
  lanes : List LaneSeen
  /-- Lanes the far receiver reports good for the sending direction. -/
  txGood : BitVec 8
  deriving DecidableEq, Repr

/-- A supply of a connector: CBL_3V3 of a Haldif port or the supply of an Ethernet cage (R1077). -/
inductive ConnId where
  | cable (p : Port)
  | cage (e : Fin 8)
  deriving DecidableEq, Repr

/-- Why a module declares itself failed (R770): a halted sequencer of a tile, a halted engine (65 porter, 66 clearing
engine, 67 + c die copy channel c), or the watchdog of a die. -/
inductive FailWhy where
  | tile (d : Die) (t : Tile)
  | engine (d : Die) (u : Nat)
  | watchdog (d : Die)
  deriving DecidableEq, Repr

/-! ## Plans (R398, R747 to R762, R783, R799): what the wardens are handed; its encoding is not given (DESIGN CHOICE, log entry 18) -/

/-- A tile a plan uses: where its sequencer starts and its pass number there. -/
structure PlanTile where
  d : Nat
  t : Nat
  pc : Nat
  pass : Nat
  deriving DecidableEq, Repr, Inhabited

/-- The restart entry of a tile for the window of an update step (R799, R800). -/
structure Restart where
  step : Nat
  d : Nat
  t : Nat
  pc : Nat
  pass : Nat
  deriving DecidableEq, Repr, Inhabited

/-- A shard of owner `f` mirrored here (R319, R788): the owner's other mirror partner, the die that holds the mirror, its
first slot, the shard's units and state arrays, and its places on the owner. -/
structure Mirrored where
  f : Nat
  other : Nat
  d : Nat
  area : Nat
  units : Nat
  arrays : Nat
  master : Nat
  state : Nat
  hdr : Nat
  deriving DecidableEq, Repr, Inhabited

/-- A shard of the plan's own module (R790): its die, header, gradient directory and its entries, update descriptor. -/
structure Shard where
  d : Nat
  hdr : Nat
  dir : Nat
  entries : Nat
  desc : Desc
  deriving DecidableEq, Repr, Inhabited

/-- A plan: its generation; register words and memory it loads; the tiles it uses; initial tally states (die, tally,
word); restart entries; passes of a window and the update step of its first window; stations of the job; shards mirrored
here; rebuild descriptors, and GATHER descriptors toward a failed station (failed station, die, descriptor); own shards;
own GATHER and PLACE descriptors (die, descriptor); mirror partners; members of the group whose plan copy is held. -/
structure PlanS where
  gen : Nat
  regs : List (Nat × Word)
  mem : List (Nat × List Byte)
  tiles : List PlanTile
  tallies : List (Nat × Nat × Word)
  restarts : List Restart
  perWin : Nat
  step0 : Nat
  job : List Nat
  mirrors : List Mirrored
  rebuilds : List (Nat × Nat × Desc)
  gathers : List (Nat × Nat × Desc)
  shards : List Shard
  runs : List (Nat × Desc)
  partners : List Nat
  copies : List Nat
  deriving DecidableEq, Repr, Inhabited

/-! ## Ethernet -/

/-- What an arriving Ethernet frame carries, as far as R819 to R834 tell packets apart. -/
inductive EthKind where
  | pitch
  | ptp
  /-- A RoCEv2 packet: its ICRC is good; it is marked CE; its queue pair. -/
  | roce (icrcOk ce : Bool) (qp : Nat)
  /-- A datagram of R818. -/
  | own
  /-- A recovery datagram (R1036). -/
  | recovery
  /-- A priority-flow-control frame: pause on or off for a priority. -/
  | pfc (prio : Nat) (pause : Bool)
  | fragment
  | other
  deriving DecidableEq, Repr

/-- An arriving Ethernet frame: its length, its 802.1Q tags, what it carries. -/
structure EthFrame where
  bytes : Nat
  tags : Nat
  kind : EthKind
  deriving DecidableEq, Repr

/-- A message of R818: an ARP request or neighbour solicitation for an own address; an echo request; the answer to the
module's own resolution, with the neighbour's MAC address. -/
inductive NbrMsg where
  | resolve
  | echo (payload : List Byte)
  | answer (mac : List Byte)
  deriving DecidableEq, Repr

/-- An incoming RoCEv2 request message: queue pair, opcode (0 SEND, 1 WRITE, 2 READ, others not supported), remote
address, key, length, data; bytes it held in the receive buffer. -/
structure RoceReq where
  qp : Nat
  op : Nat
  va : Nat
  key : Nat
  len : Nat
  data : List Byte
  held : Nat
  deriving DecidableEq, Repr

/-- A pitch message as it arrives: the sender's address, and the datagram (R836). -/
structure PitchMsg where
  src : List Byte
  bytes : List Byte
  deriving DecidableEq, Repr

/-- A connection entry of an OFFER (R841); its 32-byte layout is not given (DESIGN CHOICE, log entry 19). -/
structure Conn where
  port : Nat
  ip : List Byte
  qpn : Nat
  psn : Nat
  ring : Nat
  buf : Nat
  nbuf : Nat
  deriving DecidableEq, Repr, Inhabited

/-- A PTP message (R821, R822): a Sync, with its departure stamp where the master is one-step; a Follow_Up with it; a delay
request the module sends; a delay response with the master's receipt stamp. -/
inductive PtpMsg where
  | sync (t1 : Option Nat)
  | followUp (t1 : Nat)
  | delayReq
  | delayResp (t4 : Nat)
  deriving DecidableEq, Repr

/-- A JTAG instruction, as far as R1044 tells them apart. -/
inductive JtagIr where
  | idcode
  | bypass
  | sample
  | extest
  /-- Access to the SEC debug registers. -/
  | debug
  /-- Access to everything else, by code. -/
  | other (code : Nat)
  deriving DecidableEq, Repr

/-! ## Measurements -/

/-- One sample of the shell (R928): voltage (10 mV) and current (10 mA) of feeds A and B, and of each rail its voltage
(mV) and current (10 mA) as sensed. -/
structure Telem where
  mvA : Int
  caA : Nat
  mvB : Int
  caB : Nat
  rails : List (Nat × Int)
  deriving DecidableEq, Repr

/-- One coolant thermistor sample: its reading (0.01 °C), for the flow loop its current (0.01 mA). -/
structure SensorSet where
  inlet : Int
  outlet : Int
  loop : Nat
  /-- The 16 sensors of each die (0.01 °C), none for a reading outside −40 to 150 °C. -/
  dieA : List (Option Int)
  dieB : List (Option Int)
  /-- Sixteen stacks (°C); none while not reporting. -/
  hbm : List (Option Nat)
  board : List (Option Int)
  deriving DecidableEq, Repr

end Sys2Proof.Machine
end

