-- ==== Sys2Proof/Syntax.lean ====
section
/-! DEFINITION. The commands: one constructor for every row of spec/opcode_table.json, with the row's operands. -/

namespace Sys2Proof

open Sys2Proof.Machine

/-- One command of the module: one constructor for each row of the opcode table. -/
inductive Instr where
  /-- REGISTER_WRITE (R6). -/
  | registerWrite (r : Requester) (a : Addr) (n : Nat) (v : Word)
  /-- MEMORY_ACCESS (R484). -/
  | memoryAccess (r : Requester) (q : Access) (peer : Option (Requester × Access))
  /-- RC_FILL (R496). -/
  | rcFill (d : Die) (a : Addr) (src : FillSource)
  /-- BANK_WAKE (R431). -/
  | bankWake (d : Die) (t : Tile) (b : BankIx)
  /-- XOR_LINE_WRITE (R595). -/
  | xorLineWrite (r : Requester) (a : Addr) (bs : List Byte)
  /-- PATROL_READ (R467). -/
  | patrolRead (d : Die) (c : ExtCtl) (upset : List Upset) (overwritten : Bool)
  /-- MEM_INIT_DONE (R462). -/
  | memInitDone (d : Die)
  /-- SEQ_START (R399). -/
  | seqStart (r : Requester) (d : Die) (t : Tile)
  /-- SEQ_HALT (R400). -/
  | seqHalt (r : Requester) (d : Die) (t : Tile)
  /-- DESC_FETCH (R334). -/
  | descFetch (d : Die) (t : Tile)
  /-- FETCH_RETURN (R338). -/
  | fetchReturn (d : Die) (t : Tile)
  /-- NOP (R344). -/
  | nopOp (d : Die) (t : Tile)
  /-- FWD (R129). -/
  | fwd (d : Die) (t : Tile)
  /-- BWD (R185). -/
  | bwd (d : Die) (t : Tile)
  /-- CNV (R191). -/
  | cnv (d : Die) (t : Tile)
  /-- CPY0 (R511). -/
  | cpy0 (d : Die) (t : Tile)
  /-- CPY1 (R511). -/
  | cpy1 (d : Die) (t : Tile)
  /-- UPD (R359). -/
  | upd (d : Die) (t : Tile)
  /-- DCP (R359). -/
  | dcp (d : Die) (t : Tile)
  /-- PRT (R359). -/
  | prt (d : Die) (t : Tile)
  /-- CLR (R359). -/
  | clr (d : Die) (t : Tile)
  /-- TADD (R364). -/
  | tadd (d : Die) (t : Tile)
  /-- TARM (R367). -/
  | tarm (d : Die) (t : Tile)
  /-- LOOP (R371). -/
  | loopOp (d : Die) (t : Tile)
  /-- JUMP (R373). -/
  | jumpOp (d : Die) (t : Tile)
  /-- PASS (R374). -/
  | passOp (d : Die) (t : Tile)
  /-- END (R375). -/
  | endOp (d : Die) (t : Tile)
  /-- WAIT_MET_REPORT (R386). -/
  | waitMetReport (d : Die) (t : Tile)
  /-- TILE_GATE (R394). -/
  | tileGate (d : Die) (t : Tile)
  /-- TILE_UNGATE (R395). -/
  | tileUngate (d : Die) (t : Tile)
  /-- TLY_ADD (R378). -/
  | tlyAdd (r : Requester) (d : Die) (n : TallyIx) (v : Word)
  /-- TALLY_BANK_OP (R383). -/
  | tallyBankOp (d : Die) (bank : Fin 8)
  /-- TLY_CLEAR_ALL (R1095). -/
  | tlyClearAll (r : Requester) (d : Die)
  /-- FWD_FIRST_PLANE (R132). -/
  | fwdFirstPlane (d : Die) (t : Tile)
  /-- LANE_VECTOR_START (R104). -/
  | laneVectorStart (d : Die) (t : Tile) (lane : Fin 8)
  /-- SIDE_STALL_ROUND (R120). -/
  | sideStallRound (d : Die) (t : Tile)
  /-- FWD_COMBINE (R107). -/
  | fwdCombine (d : Die) (t : Tile)
  /-- FWD_DELIVER (R109). -/
  | fwdDeliver (d : Die) (t : Tile)
  /-- FWD_COMPLETE (R111). -/
  | fwdComplete (d : Die) (t : Tile)
  /-- BWD_FIRST_OPERAND (R182). -/
  | bwdFirstOperand (d : Die) (t : Tile)
  /-- OPERAND_CYCLE (R143). -/
  | operandCycle (d : Die) (t : Tile)
  /-- DRAIN_BEGIN (R152). -/
  | drainBegin (d : Die) (t : Tile)
  /-- DRAIN_ROW (R153). -/
  | drainRow (d : Die) (t : Tile)
  /-- BWD_COMPLETE (R184). -/
  | bwdComplete (d : Die) (t : Tile)
  /-- CNV_VECTOR (R199). -/
  | cnvVector (d : Die) (t : Tile)
  /-- CNV_COMPLETE (R200). -/
  | cnvComplete (d : Die) (t : Tile)
  /-- HIST_INVALIDATE (R251). -/
  | histInvalidate (r : Requester) (d : Die) (t : Tile)
  /-- CHAN_CLEAR (R233). -/
  | chanClear (r : Requester) (d : Die) (t : Tile)
  /-- GEN_STATE_WRITE (R270). -/
  | genStateWrite (r : Requester) (d : Die) (u : ShakerUnit) (g : Fin 8) (hi : Bool) (v : Word)
  /-- UPD_SUBMIT (R1093). -/
  | updSubmit (r : Requester) (d : Die) (v : Word)
  /-- UPD_QUEUE_CLEAR (R333). -/
  | updQueueClear (r : Requester) (d : Die)
  /-- UPD_BEGIN (R282). -/
  | updBegin (d : Die)
  /-- UPD_PREPASS (R299). -/
  | updPrepass (d : Die)
  /-- UPD_FIRST_LANE (R331). -/
  | updFirstLane (d : Die)
  /-- UPD_BLOCK_WRITTEN (R332). -/
  | updBlockWritten (d : Die)
  /-- UPD_HEADER_WRITE (R316). -/
  | updHeaderWrite (d : Die)
  /-- UPD_COMPLETE (R317). -/
  | updComplete (d : Die)
  /-- MIRROR_START (R320). -/
  | mirrorStart (d : Die)
  /-- MIRROR_REMOTE_ADD (R321). -/
  | mirrorRemoteAdd (d : Die)
  /-- DCP_SUBMIT (R514). -/
  | dcpSubmit (r : Requester) (d : Die) (v : Word)
  /-- CPY_COPY (R517). -/
  | cpyCopy (c : ChanId)
  /-- CPY_FILL (R519). -/
  | cpyFill (c : ChanId)
  /-- CPY_COMPARE (R520). -/
  | cpyCompare (c : ChanId)
  /-- COPY_BURST (R527). -/
  | copyBurst (c : ChanId)
  /-- PACE_RESUME (R536). -/
  | paceResume (c : ChanId)
  /-- CPY_REQUEST (R529). -/
  | cpyRequest (l : LineId)
  /-- SWREQ (R529). -/
  | swreq (r : Requester) (l : SwLine) (v : Word)
  /-- COPY_RETRY (R542). -/
  | copyRetry (c : ChanId)
  /-- CH_RESUME (R546). -/
  | chResume (r : Requester) (c : ChanId)
  /-- CH_ABORT (R547). -/
  | chAbort (r : Requester) (c : ChanId)
  /-- COPY_COMPLETE (R551). -/
  | copyComplete (c : ChanId)
  /-- PRT_SUBMIT (R601). -/
  | prtSubmit (r : Requester) (d : Die) (v : Word)
  /-- PRT_QUEUE_CLEAR (R609). -/
  | prtQueueClear (r : Requester) (d : Die)
  /-- PRT_GATHER (R565). -/
  | prtGather (d : Die)
  /-- PRT_SCATTER (R578). -/
  | prtScatter (d : Die)
  /-- PRT_PARITY_PUSH (R600). -/
  | prtParityPush (d : Die)
  /-- PRT_SHIP (R574). -/
  | prtShip (d : Die)
  /-- PRT_BAG (R565). -/
  | prtBag (d : Die)
  /-- SCATTER_CONTRIBUTION (R576). -/
  | scatterContribution (d : Die)
  /-- PRT_RETRY (R604). -/
  | prtRetry (d : Die)
  /-- PRT_RESUME (R604). -/
  | prtResume (r : Requester) (d : Die)
  /-- PRT_ABORT (R604). -/
  | prtAbort (r : Requester) (d : Die)
  /-- PRT_COMPLETE (R605). -/
  | prtComplete (d : Die)
  /-- BANK_HAND_NOW (R415). -/
  | bankHandNow (r : Requester) (d : Die) (t : Tile) (b : BankIx) (v : Word)
  /-- BANK_HAND_ON_TALLY (R418). -/
  | bankHandOnTally (r : Requester) (d : Die) (t : Tile) (b : BankIx) (v : Word)
  /-- BANK_HAND_CANCEL (R420). -/
  | bankHandCancel (r : Requester) (d : Die) (t : Tile) (b : BankIx)
  /-- HANDOVER (R416). -/
  | handover (d : Die) (t : Tile) (b : BankIx)
  /-- MEM_INVALIDATE (R438). -/
  | memInvalidate (r : Requester) (d : Die) (t : Tile) (v : Word)
  /-- INVALIDATE_DONE (R438). -/
  | invalidateDone (d : Die) (t : Tile) (v : Word)
  /-- MAP_REGION_WRITE (R481). -/
  | mapRegionWrite (r : Requester) (d : Die) (n : Fin 256) (attr : Bool) (v : Word)
  /-- MAP_REPAIR_POP (R508). -/
  | mapRepairPop (r : Requester) (d : Die)
  /-- MAP_RC_CFG_WRITE (R505). -/
  | mapRcCfgWrite (r : Requester) (d : Die) (v : Word)
  /-- RC_INVALIDATE_DONE (R505). -/
  | rcInvalidateDone (d : Die)
  /-- PORT_RETRAIN (R622). -/
  | portRetrain (r : Requester) (p : Port)
  /-- TRAINING_PHASE_END (R622). -/
  | trainingPhaseEnd (p : Port) (res : TrainResult)
  /-- PORT_DOWN_RETRY (R627). -/
  | portDownRetry (p : Port)
  /-- PORT_IDENTITY (R631). -/
  | portIdentity (p : Port) (ident : List Byte)
  /-- RETRAIN_TRIGGER (R621). -/
  | retrainTrigger (p : Port) (timeout : Bool)
  /-- LANE_ERRORS (R629). -/
  | laneErrors (p : Port) (lane : Fin 8) (errs : Nat)
  /-- FRAME_RECEIVE (R614). -/
  | frameReceive (p : Port) (f : FrameIn)
  /-- PACKET_ROUTE (R647). -/
  | packetRoute (d : Die) (k : Packet)
  /-- WRITE (R640). -/
  | writePkt (k : Packet)
  /-- XOR_WRITE (R640). -/
  | xorWrite (k : Packet)
  /-- TALLY_ADD (R640). -/
  | tallyAdd (k : Packet)
  /-- WGH_PUSH (R228). -/
  | wghPush (k : Packet)
  /-- ACK (R644). -/
  | ackPkt (k : Packet)
  /-- ACK_TIMEOUT (R642). -/
  | ackTimeout (d : Die) (n : Nat)
  /-- COMBINE_F32 (R666). -/
  | combineF32 (d : Die) (k : Packet)
  /-- COMBINE_XOR (R667). -/
  | combineXor (d : Die) (k : Packet)
  /-- COMBINE_FLUSH (R669). -/
  | combineFlush (d : Die) (k : Packet)
  /-- COMB_STORE_FREE (R671). -/
  | combStoreFree (d : Die)
  /-- LNK_COMB_WRITE (R672). -/
  | lnkCombWrite (r : Requester) (d : Die) (n : Fin 1024) (v : Word)
  /-- SC_TX_GO (R677). -/
  | scTxGo (r : Requester) (p : Port)
  /-- SC_RX_POP (R678). -/
  | scRxPop (r : Requester) (p : Port)
  /-- SIDE_CHANNEL_RECEIVE (R676). -/
  | sideChannelReceive (p : Port) (m : List Byte)
  /-- HEARTBEAT_SEND (R763). -/
  | heartbeatSend (p : Port)
  /-- HEARTBEAT (R765). -/
  | heartbeat (p : Port) (m : List Byte)
  /-- LNK_HB_SILENT (R767). -/
  | lnkHbSilent (p : Port)
  /-- LNK_WATCHDOG (R766). -/
  | lnkWatchdog (d : Die)
  /-- HB_KICK (R766). -/
  | hbKick (r : Requester) (d : Die)
  /-- CLR_SUBMIT (R679). -/
  | clrSubmit (r : Requester) (d : Die) (v : Word)
  /-- CLR_QUEUE_CLEAR (R745). -/
  | clrQueueClear (r : Requester) (d : Die)
  /-- REDUCE (R692). -/
  | reduce (d : Die)
  /-- POSITION_SEND (R689). -/
  | positionSend (d : Die) (i : Fin 4) (r : Nat)
  /-- DIRECT_SLOT_SEND (R717). -/
  | directSlotSend (d : Die) (i : Fin 4) (r : Nat)
  /-- SLOT_HEADER_WRITE (R720). -/
  | slotHeaderWrite (d : Die) (i : Fin 4) (r : Nat)
  /-- ARRIVAL_CHECK (R721). -/
  | arrivalCheck (d : Die) (i : Fin 4) (r : Nat)
  /-- NODE_ROUND (R695). -/
  | nodeRound (d : Die) (k : Packet)
  /-- CLR_DEADLINE (R707). -/
  | clrDeadline (d : Die) (i : Fin 4) (r : Nat)
  /-- CLR_STALL_LATE (R708). -/
  | clrStallLate (d : Die) (i : Fin 4) (r : Nat)
  /-- CREDIT_ABANDON (R699). -/
  | creditAbandon (d : Die) (i : Fin 4) (r : Nat)
  /-- GATHER (R726). -/
  | gather (d : Die)
  /-- GATHER_ARRIVAL_ADD (R727). -/
  | gatherArrivalAdd (d : Die) (i : Fin 4) (r : Nat)
  /-- PLACE (R728). -/
  | place (d : Die)
  /-- PERMUTE (R733). -/
  | permute (d : Die)
  /-- PERMUTE_FENCE_END (R735). -/
  | permuteFenceEnd (d : Die) (i : Fin 4)
  /-- PERMUTE_ARRIVE_END (R736). -/
  | permuteArriveEnd (d : Die) (i : Fin 4)
  /-- CLR_RETRY (R743). -/
  | clrRetry (d : Die)
  /-- CLR_RESUME (R743). -/
  | clrResume (r : Requester) (d : Die)
  /-- CLR_ABORT (R743). -/
  | clrAbort (r : Requester) (d : Die)
  /-- FLT_SELF_FAIL (R770). -/
  | fltSelfFail (why : FailWhy)
  /-- SUSPECT_SEND (R774). -/
  | suspectSend (st : Nat)
  /-- SUSPECT (R775). -/
  | suspectMsg (p : Port) (m : List Byte)
  /-- FAIL (R775). -/
  | failMsg (p : Port) (m : List Byte)
  /-- DECLARE (R777). -/
  | declareMsg (p : Port) (m : List Byte)
  /-- DECLARE_SETTLE (R782). -/
  | declareSettle
  /-- READY (R786). -/
  | readyMsg (p : Port) (m : List Byte)
  /-- RESTORE (R788). -/
  | restoreMsg (p : Port) (m : List Byte)
  /-- REBUILD_DONE (R795). -/
  | rebuildDone
  /-- DONE (R790). -/
  | doneMsg (p : Port) (m : List Byte)
  /-- RESUME (R799). -/
  | resumeMsg (p : Port) (m : List Byte)
  /-- STOP (R803). -/
  | stopMsg (p : Port) (m : List Byte)
  /-- RECOVER_TIMEOUT (R802). -/
  | recoverTimeout
  /-- RESERVE_LOST (R778). -/
  | reserveLost
  /-- FENCED (R804). -/
  | fenced
  /-- JOIN (R809). -/
  | joinMsg (p : Port) (m : List Byte)
  /-- JOIN_ANSWER (R808). -/
  | joinAnswer (p : Port) (m : List Byte)
  /-- ETH_LINK_UP (R815). -/
  | ethLinkUp (e : Fin 8) (optical : Bool)
  /-- ETH_PORT_DOWN (R816). -/
  | ethPortDown (e : Fin 8)
  /-- ETH_FRAME_RECEIVE (R819). -/
  | ethFrameReceive (e : Fin 8) (f : EthFrame)
  /-- NEIGHBOUR_ANSWER (R818). -/
  | neighbourAnswer (e : Fin 8) (peer : List Byte) (msg : NbrMsg)
  /-- PTP_EVENT (R822). -/
  | ptpEvent (e : Fin 8) (m : PtpMsg)
  /-- ROCE_SEND (R829). -/
  | roceSend (e : Fin 8) (q : RoceReq)
  /-- ROCE_WRITE (R828). -/
  | roceWrite (e : Fin 8) (q : RoceReq)
  /-- ROCE_READ (R827). -/
  | roceRead (e : Fin 8) (q : RoceReq)
  /-- NAK_INVALID_REQUEST (R824). -/
  | nakInvalidRequest (e : Fin 8) (q : RoceReq)
  /-- ROCE_RETRANSMIT (R831). -/
  | roceRetransmit (e : Fin 8) (q : Fin 64)
  /-- CNP_RECEIVE (R834). -/
  | cnpReceive (e : Fin 8) (q : Fin 64)
  /-- RATE_REGAIN (R834). -/
  | rateRegain (e : Fin 8) (q : Fin 64)
  /-- SQ_BELL (R835). -/
  | sqBell (r : Requester) (e : Fin 8) (v : Word)
  /-- SQ_ENTRY_COMPLETE (R835). -/
  | sqEntryComplete (e : Fin 8) (q : Fin 64) (data : List Byte)
  /-- STATUS_REQ (R840). -/
  | statusReq (e : Fin 8) (m : PitchMsg)
  /-- OFFER (R843). -/
  | offer (e : Fin 8) (m : PitchMsg)
  /-- START (R842). -/
  | startMsg (e : Fin 8) (m : PitchMsg)
  /-- PITCH_END (R842). -/
  | pitchEnd (e : Fin 8) (m : PitchMsg)
  /-- TOLL_GET (R856). -/
  | tollGet (e : Fin 8) (m : PitchMsg)
  /-- NOT_AFTER (R842). -/
  | notAfter
  /-- PITCH_NORM_STOP (R842). -/
  | pitchNormStop
  /-- CHECKPOINT_DONE (R842). -/
  | checkpointDone
  /-- SCRUB (R847). -/
  | scrub
  /-- SCRUB_END (R855). -/
  | scrubEnd
  /-- TOLL_CKPT (R853). -/
  | tollCkpt
  /-- COLD_START (R858). -/
  | coldStart (ansA ansB : Bool)
  /-- READY_REQUEST (R861). -/
  | readyRequest (offs : List Int)
  /-- WARDEN_LOAD_DONE (R868). -/
  | wardenLoadDone
  /-- WARM_RESERVE_ENTER (R862). -/
  | warmReserveEnter
  /-- COLD_RESTART (R866). -/
  | coldRestart (r : Requester) (v : Word)
  /-- WARM_RESTART (R864). -/
  | warmRestart (r : Requester) (v : Word)
  /-- TRIAL_COMMIT (R1023). -/
  | trialCommit
  /-- FLASH_READ (R883). -/
  | flashRead (r : Requester) (v : Word)
  /-- FLASH_PROGRAM (R883). -/
  | flashProgram (r : Requester) (v : Word)
  /-- FLASH_ERASE (R883). -/
  | flashErase (r : Requester) (v : Word)
  /-- FLASH_CMD_DONE (R885). -/
  | flashCmdDone (ok : Bool)
  /-- FEED_LOST (R890). -/
  | feedLost (feed : Fin 2)
  /-- FEED_RESTORED (R891). -/
  | feedRestored (feed : Fin 2)
  /-- FEED_REVERSE (R889). -/
  | feedReverse (feed : Fin 2)
  /-- SURGE (R888). -/
  | surge
  /-- OVERVOLTAGE (R888). -/
  | overvoltage
  /-- BROWNOUT (R894). -/
  | brownout
  /-- BROWNOUT_RECOVER (R896). -/
  | brownoutRecover
  /-- FEED_FAULT (R899). -/
  | feedFault (feed : Fin 2)
  /-- FEED_RECLOSE (R900). -/
  | feedReclose (feed : Fin 2)
  /-- RAIL_FAULT (R901). -/
  | railFault (rail : Fin 17)
  /-- SENSE_OPEN (R905). -/
  | senseOpen (rail : Fin 17)
  /-- SHELL_WATCHDOG (R908). -/
  | shellWatchdog
  /-- MANAGER_STEP (R918). -/
  | managerStep
  /-- LIMIT_FLOOR (R922). -/
  | limitFloor
  /-- OVERCURRENT_TRIP (R923). -/
  | overcurrentTrip
  /-- DROOP (R924). -/
  | droop (d : Die)
  /-- DROOP_RELEASE (R924). -/
  | droopRelease (d : Die)
  /-- OVERTEMP (R925). -/
  | overtemp (d : Die)
  /-- SHUTDOWN (R911). -/
  | shutdown
  /-- SHUTDOWN_RELEASE (R913). -/
  | shutdownRelease
  /-- TELEMETRY_SAMPLE (R928). -/
  | telemetrySample (t : Telem)
  /-- PWR_TILE_ON_WRITE (R914). -/
  | pwrTileOnWrite (r : Requester) (d : Die) (v : Word)
  /-- FREQ_WINDOW (R941). -/
  | freqWindow (n : Nat)
  /-- OSC_WINDOW (R942). -/
  | oscWindow (n : Nat)
  /-- PLL_LOCK (R945). -/
  | pllLock (d : Die) (pll : Fin 5)
  /-- PLL_UNLOCK (R947). -/
  | pllUnlock (d : Die) (pll : Fin 5)
  /-- PLL_SLEEP (R953). -/
  | pllSleep (d : Die)
  /-- ARR_STOP (R951). -/
  | arrStop (r : Requester) (d : Die)
  /-- CLK_FREQ_WRITE (R956). -/
  | clkFreqWrite (r : Requester) (d : Die) (v : Word)
  /-- CLKOUT_WRITE (R961). -/
  | clkoutWrite (r : Requester) (v : Word)
  /-- TIME_STEP (R965). -/
  | timeStep (r : Requester) (v : Word)
  /-- TIME_SLEW (R966). -/
  | timeSlew (r : Requester) (v : Word)
  /-- TIME_REQ_SEND (R971). -/
  | timeReqSend
  /-- TIME_REQ (R972). -/
  | timeReq (p : Port) (m : List Byte)
  /-- TIME_RESP (R975). -/
  | timeResp (p : Port) (m : List Byte)
  /-- TIME_UNSYNC (R970). -/
  | timeUnsync
  /-- PC_SAMPLE (R996). -/
  | pcSample (d : Die) (t : Option Tile)
  /-- CLEAR64 (R986). -/
  | clear64 (r : Requester) (blk : CntBlock)
  /-- CLEAR32 (R986). -/
  | clear32 (r : Requester) (blk : CntBlock)
  /-- OPC_CLEAR (R995). -/
  | opcClear (r : Requester) (d : Die) (t : Tile)
  /-- OPC_CFG_WRITE (R995). -/
  | opcCfgWrite (r : Requester) (d : Die) (t : Tile) (v : Word)
  /-- SAMPLE_GO (R993). -/
  | sampleGo (r : Requester) (d : Die) (t : Tile)
  /-- SNAP_GO (R1012). -/
  | snapGo (r : Requester) (d : Die)
  /-- DOB_RAISE (R1011). -/
  | dobRaise (r : Requester) (d : Die) (v : Word)
  /-- STAGE_BEGIN (R1029). -/
  | stageBegin (r : Requester) (v : Word)
  /-- STAGE_BLOCK (R1029). -/
  | stageBlock (r : Requester) (v : Word)
  /-- STAGE_FINISH (R1029). -/
  | stageFinish (r : Requester) (v : Word)
  /-- STAGE_ACTIVATE (R1029). -/
  | stageActivate (r : Requester) (v : Word)
  /-- STAGE_ABORT (R1029). -/
  | stageAbort (r : Requester) (v : Word)
  /-- STAGE_OP_END (R1029). -/
  | stageOpEnd (ok : Bool)
  /-- FW_START (R1032). -/
  | fwStart (p : Port) (m : List Byte)
  /-- FW_DATA (R1034). -/
  | fwData (p : Port) (m : List Byte)
  /-- FW_ACK (R1033). -/
  | fwAck (p : Port) (m : List Byte)
  /-- FW_DONE (R1034). -/
  | fwDone (p : Port) (m : List Byte)
  /-- HELLO (R1037). -/
  | hello
  /-- RECOVERY_BLOCK (R1038). -/
  | recoveryBlock (m : List Byte)
  /-- ACTIVATE (R1038). -/
  | activate (m : List Byte)
  /-- DBG_NEW_CHAL (R1045). -/
  | dbgNewChal (r : Requester)
  /-- DBG_CHECK (R1046). -/
  | dbgCheck (r : Requester)
  /-- DBG_PW_WRITE (R1049). -/
  | dbgPwWrite (r : Requester)
  /-- SENSOR_SAMPLE (R1067). -/
  | sensorSample (x : SensorSet)
  /-- SENS_FLOW_LOW (R1068). -/
  | sensFlowLow
  /-- SENS_COOLANT_HOT (R1069). -/
  | sensCoolantHot (outlet : Bool)
  /-- DIE_BLIND (R1072). -/
  | dieBlind (d : Die)
  /-- CABLE_PRESENT (R1076). -/
  | cablePresent (p : Port) (present : Bool)
  /-- CAGE_PRESENT (R1078). -/
  | cagePresent (e : Fin 8) (present highPower : Bool)
  /-- SENS_CONN_POWER (R1077). -/
  | sensConnPower (c : ConnId)
  /-- UART_REQUEST (R1081). -/
  | uartRequest (m : List Byte)
  /-- I2C_READ (R1080). -/
  | i2cRead (off : Byte) (n : Nat)
  /-- ALWAYS_ON_OFF (R888). -/
  | alwaysOnOff
  /-- JTAG_INSTRUCTION (R1044). -/
  | jtagInstruction (ir : JtagIr)
  /-- SC_MESSAGE_SENT (R677). -/
  | scMessageSent (p : Port)
  deriving DecidableEq, Repr

end Sys2Proof
end

