-- ==== Sys2Proof/Machine/Bits.lean ====
section
/-! DEFINITION. Bit fields, sign extension and byte order: the helpers every register, descriptor and
packet is read and written with (R2, R3). -/

namespace Sys2Proof.Machine

/-- The field of `w` bits from bit `lo` of a 64-bit word, as a number (R2). -/
def fld (x : Word) (lo w : Nat) : Nat := (x.extractLsb' lo w).toNat

/-- The mask of `w` ones from bit `lo`. -/
def fldMask (lo w : Nat) : Word := (BitVec.setWidth 64 (BitVec.allOnes w)) <<< lo

/-- A 64-bit word with the field of `w` bits from bit `lo` replaced by the low bits of `v`. -/
def setFld (x : Word) (lo w v : Nat) : Word :=
  (x &&& ~~~ fldMask lo w) ||| ((BitVec.ofNat 64 v <<< lo) &&& fldMask lo w)

/-- Bit `i` of a number. -/
def nbit (n i : Nat) : Bool := n.testBit i

/-- The field of `w` bits from bit `lo` of a number. -/
def nfld (n lo w : Nat) : Nat := (n >>> lo) % 2 ^ w

/-- A `w`-bit number read as two's complement. -/
def sgn (w n : Nat) : Int := if n % 2 ^ w < 2 ^ (w - 1) then (n % 2 ^ w : Nat) else (n % 2 ^ w : Nat) - (2 ^ w : Nat)

/-- The `w`-bit two's complement encoding of an integer. -/
def encS (w : Nat) (i : Int) : Nat := (i % (2 ^ w : Nat)).toNat

/-- The number a little-endian byte list spells (R3). -/
def leNat : List Byte → Nat
  | [] => 0
  | b :: bs => b.toNat + 256 * leNat bs

/-- The `n` little-endian bytes of a number (R3). -/
def leBytes : Nat → Nat → List Byte
  | 0, _ => []
  | n + 1, v => BitVec.ofNat 8 v :: leBytes n (v / 256)

/-- Bytes `i` to `i + n - 1` of a byte list, read little-endian; bytes beyond its end read 0. -/
def leAt (bs : List Byte) (i n : Nat) : Nat := leNat ((bs.drop i).take n)

/-- Byte `i` of a byte list as a number; 0 beyond its end. -/
def byteAt (bs : List Byte) (i : Nat) : Nat := (bs.getD i 0).toNat

/-- The smaller of a value and a cap. -/
def satAdd (cap a b : Nat) : Nat := min cap (a + b)

/-- The first `n` elements of a list, padded with `d`. -/
def padTo {α : Type} (d : α) : Nat → List α → List α
  | 0, _ => []
  | n + 1, [] => d :: padTo d n []
  | n + 1, x :: xs => x :: padTo d n xs

/-- A list cut into pieces of `n` (fuel bounds the pieces). -/
def chunks {α : Type} : Nat → Nat → List α → List (List α)
  | 0, _, _ => []
  | _ + 1, _, [] => []
  | f + 1, n, x :: xs => (x :: xs).take n :: chunks f n ((x :: xs).drop n)

/-- The bitwise XOR of two byte lists, over the first list's length. -/
def xorBytes : List Byte → List Byte → List Byte
  | [], _ => []
  | a :: as, [] => a :: as
  | a :: as, b :: bs => (a ^^^ b) :: xorBytes as bs

end Sys2Proof.Machine
end

