-- ==== Sys2Proof/Machine/Ecc.lean ====
section
/-! DEFINITION. The Reed-Solomon codes of external memory, RS(36, 32), RS(68, 64) and RS(64, 60) over GF(2^8), judged
on error patterns (R447, R448, R453): a stored word is a code word plus its pattern, so the pattern alone decides. -/

namespace Sys2Proof.Machine

/-- Multiply a field element by α = 0x02, modulo x^8 + x^4 + x^3 + x^2 + 1 (R447). -/
def gfTwice (x : Byte) : Byte := if x.msb then (x <<< 1) ^^^ 0x1D else x <<< 1

/-- Multiply a field element by α^n. -/
def gfPow : Nat → Byte → Byte
  | 0, x => x
  | n + 1, x => gfTwice (gfPow n x)

/-- Syndrome i of an error pattern: its value at the root α^i, the first byte the highest power (DEDUCED, log entry 11). -/
def syndrome (i : Nat) (e : List Byte) : Byte := e.foldl (fun acc b => gfPow i acc ^^^ b) 0

/-- The outcome of decoding a stored code word (R448). -/
inductive EccOut where
  /-- No error shown: the pattern stays, invisible where it is not zero. -/
  | clean (e : List Byte)
  /-- One byte corrected: the pattern that remains. -/
  | corrected (e : List Byte)
  | uncorrectable
  deriving DecidableEq, Repr

/-- The byte position of a single-byte error that the four syndromes show, in a code word of `n` bytes. -/
def errPos (n : Nat) (s0 s1 s2 s3 : Byte) : Option Nat :=
  (List.range n).find? (fun j =>
    let p := n - 1 - j
    decide (s1 = gfPow p s0 ∧ s2 = gfPow (2 * p) s0 ∧ s3 = gfPow (3 * p) s0))

/-- Decode a stored code word of `n` bytes with error pattern `e` (R448). -/
def eccDecode (n : Nat) (e0 : List Byte) : EccOut :=
  let e := padTo 0 n e0
  let s0 := syndrome 0 e
  let s1 := syndrome 1 e
  let s2 := syndrome 2 e
  let s3 := syndrome 3 e
  if s0 = 0 ∧ s1 = 0 ∧ s2 = 0 ∧ s3 = 0 then .clean e
  else if s0 = 0 then .uncorrectable
  else match errPos n s0 s1 s2 s3 with
    | some j => .corrected (e.set j (e.getD j 0 ^^^ s0))
    | none => .uncorrectable

end Sys2Proof.Machine
end

