-- ==== Sys2Proof/Config.lean ====
section
/-! DEFINITION. What one module fixes and the manual leaves open: fuses, and the free values. A free value is an
opaque constant: nothing in Lean can evaluate it, so a claim about it holds whatever it is. -/

namespace Sys2Proof.Config

/-- The `n`-th free value a step draws, as a number of any size (DESIGN CHOICE, log entry 4). -/
opaque freeNat : Nat → Nat

/-- The binary logarithm of an outlier threshold of 0, which R214 asks for and no rule states (DESIGN CHOICE, log entry 25). -/
opaque log2Zero : Int

/-- lg of 0, which the manual does not state (chapter 05 gives lg for x ≠ 0; DESIGN CHOICE, log entry 26). -/
opaque lgZero : Int

/-- The module serial, fused at manufacture (R25, SEC_SERIAL; DESIGN CHOICE, log entry 5). -/
opaque serial : BitVec 128

/-- The identity public key, 72 bytes of which 68 are the key, as nine words (SEC_ID_PUB, fused; DESIGN CHOICE, log entry 5). -/
opaque idPub : Nat → Word

/-- SHAKE256 of a byte string, with the number of output bytes (named by the manual, defined by FIPS 202;
PRESUMED, log entry 6). -/
opaque shake256 : List Byte → Nat → List Byte

/-- KMAC256 of key, message, output length and customisation string (NIST SP 800-185; PRESUMED, log entry 6). -/
opaque kmac256 : List Byte → List Byte → Nat → List Byte → List Byte

/-- Whether a signature is a valid XMSS signature of a message under a public key (PRESUMED, log entry 6). -/
opaque xmssVerify : List Byte → List Byte → List Byte → Bool

/-- The XMSS signature of a message with the key of a module at an index (PRESUMED, log entry 6). -/
opaque xmssSign : Nat → List Byte → List Byte

/-- The plan a scheduler loads, by plan generation: its contents reach the wardens as data whose encoding the manual does
not give (DESIGN CHOICE, log entry 18). -/
opaque plan : Nat → Machine.PlanS

/-- The copy of a group member's plan that a reserve holds, by plan generation and station (R783; DESIGN CHOICE, log entry 18). -/
opaque planCopy : Nat → Nat → Machine.PlanS

/-- A region request of an OFFER, from its 16 bytes: base, length, remote read, remote write (DESIGN CHOICE, log entry 19). -/
opaque offerRegion : List Byte → Nat × Nat × Bool × Bool

/-- A connection entry of an OFFER, from its 32 bytes (DESIGN CHOICE, log entry 19). -/
opaque offerConn : List Byte → Machine.Conn

/-- The fused keys: digests of the firmware and debug public keys, the device key, and the identity seeds (R1016; DESIGN CHOICE, log entry 5). -/
opaque fwKeyDigest : List Byte
opaque dbgKeyDigest : List Byte
opaque deviceKey : List Byte

/-- Whether the bytes a flash device holds in its node-cache region, by offset (unlisted ones erased), pass the digest of
R1043, which the manual does not give; and the cache rebuilt from id_seeds (PRESUMED, log entry 6). -/
opaque nodeCacheOk : List (Nat × Byte) → Bool
opaque nodeCache : List Byte

/-- The fused core setpoint of a die in mV (R904; DESIGN CHOICE, log entry 5). -/
opaque coreMv : Nat → Nat

end Sys2Proof.Config
end

