-- ==== Sys2Proof/Machine/Numeric.lean ====
section
/-! DEFINITION. Numbers: exact values, the floating formats, rounding, overflow and flush (R36 to R57, R1087, R1088),
base-2 logarithms in Q8.8 and pow2q. -/

namespace Sys2Proof.Machine

/-- An exact value: not a number, an infinity, or a sign and a magnitude num / den (den above 0). A zero keeps its
sign. -/
inductive XV where
  | nan
  | inf (neg : Bool)
  | fin (neg : Bool) (num den : Nat)
  deriving DecidableEq, Repr

namespace XV

/-- Positive zero. -/
def zero : XV := .fin false 0 1

/-- An integer. -/
def ofInt (i : Int) : XV := .fin (decide (i < 0)) i.natAbs 1

/-- Times 2^k. -/
def scale (x : XV) (k : Int) : XV :=
  match x with
  | .fin s n d => if 0 ≤ k then .fin s (n * 2 ^ k.toNat) d else .fin s n (d * 2 ^ (-k).toNat)
  | x => x

/-- The opposite. -/
def neg : XV → XV
  | .nan => .nan
  | .inf s => .inf (!s)
  | .fin s n d => .fin (!s) n d

/-- The magnitude. -/
def abs : XV → XV
  | .nan => .nan
  | .inf _ => .inf false
  | .fin _ n d => .fin false n d

def isFinite : XV → Bool
  | .fin _ _ _ => true
  | _ => false

def isNan : XV → Bool
  | .nan => true
  | _ => false

def isZero : XV → Bool
  | .fin _ n _ => n == 0
  | _ => false

/-- Negative sign. -/
def isNeg : XV → Bool
  | .inf s => s
  | .fin s _ _ => s
  | .nan => false

/-- A product: NaN for a NaN and for zero times infinity; its sign is the exclusive or of the signs. -/
def mul : XV → XV → XV
  | .nan, _ => .nan
  | _, .nan => .nan
  | .inf s, .inf t => .inf (s != t)
  | .inf s, .fin t n _ => if n = 0 then .nan else .inf (s != t)
  | .fin s n _, .inf t => if n = 0 then .nan else .inf (s != t)
  | .fin s n d, .fin t m e => .fin (s != t) (n * m) (d * e)

/-- A quotient: NaN for 0/0 and for infinity over infinity. -/
def div : XV → XV → XV
  | .nan, _ => .nan
  | _, .nan => .nan
  | .inf _, .inf _ => .nan
  | .inf s, .fin t _ _ => .inf (s != t)
  | .fin s _ _, .inf t => .fin (s != t) 0 1
  | .fin s n d, .fin t m e =>
      if m = 0 then (if n = 0 then .nan else .inf (s != t)) else .fin (s != t) (n * e) (d * m)

/-- The signed numerator over a common denominator. -/
def numOver (l : Nat) : XV → Int
  | .fin s n d => if s then -((n * (l / d) : Nat) : Int) else ((n * (l / d) : Nat) : Int)
  | _ => 0

/-- A common denominator of a list of values. -/
def commonDen : List XV → Nat
  | [] => 1
  | .fin _ _ d :: xs => Nat.lcm d (commonDen xs)
  | _ :: xs => commonDen xs

/-- An exact sum: NaN for a NaN or infinities of both signs; an exact zero is +0 unless every term is −0 (R1088). -/
def sum (xs : List XV) : XV :=
  if xs.any isNan then .nan
  else
    let p := xs.any (fun x => x == .inf false)
    let m := xs.any (fun x => x == .inf true)
    if p && m then .nan else if p then .inf false else if m then .inf true
    else
      let l := commonDen xs
      let t : Int := (xs.map (numOver l)).foldl (· + ·) 0
      if t = 0 then .fin (xs != [] && xs.all (fun x => x.isZero && x.isNeg)) 0 1
      else .fin (decide (t < 0)) t.natAbs l

/-- The sum of two values. -/
def add (a b : XV) : XV := sum [a, b]

/-- a is below b; false when either is a NaN. -/
def lt (a b : XV) : Bool :=
  match a, b with
  | .nan, _ | _, .nan => false
  | .inf s, .inf t => s && !t
  | .inf s, .fin _ _ _ => s
  | .fin _ _ _, .inf t => !t
  | .fin s n d, .fin t m e =>
      let x : Int := if s then -((n * e : Nat) : Int) else ((n * e : Nat) : Int)
      let y : Int := if t then -((m * d : Nat) : Int) else ((m * d : Nat) : Int)
      decide (x < y)

/-- a is at least b; false when either is a NaN. -/
def ge (a b : XV) : Bool := !a.isNan && !b.isNan && !lt a b

/-- The larger of two values, the first on a tie or a NaN. -/
def max (a b : XV) : XV := if lt a b then b else a

/-- ⌊log2⌋ of a positive num / den. -/
def floorLog2 (n d : Nat) : Int :=
  let l : Int := (Nat.log2 n : Int) - (Nat.log2 d : Int)
  let ge (k : Int) : Bool := if 0 ≤ k then decide (d * 2 ^ k.toNat ≤ n) else decide (d ≤ n * 2 ^ (-k).toNat)
  if ge l then l else l - 1

end XV

/-- A floating format: exponent bits, mantissa bits, bias (R37). -/
structure FFmt where
  X : Nat
  M : Nat
  bias : Int
  deriving DecidableEq, Repr

def f8e4 : FFmt := ⟨4, 3, 7⟩
def f8e5 : FFmt := ⟨5, 2, 15⟩
def bf16 : FFmt := ⟨8, 7, 127⟩
def f16 : FFmt := ⟨5, 10, 15⟩
def f32 : FFmt := ⟨8, 23, 127⟩

/-- The floating format of a format code (R26). -/
def ffmt : Nat → FFmt
  | 7 => f8e4 | 8 => f8e5 | 9 => bf16 | 10 => f16 | _ => f32

/-- F8E4 has no infinity (R37). -/
def FFmt.hasInf (f : FFmt) : Bool := f.X != 4

/-- Place of the sign bit. -/
def FFmt.sbit (f : FFmt) : Nat := f.X + f.M

/-- The largest finite encoding without sign (R37). -/
def FFmt.maxFin (f : FFmt) : Nat := if f.hasInf then (2 ^ f.X - 1) * 2 ^ f.M - 1 else 2 ^ (f.X + f.M) - 2

/-- The encoding of positive infinity, in formats that have one. -/
def FFmt.infBits (f : FFmt) : Nat := (2 ^ f.X - 1) * 2 ^ f.M

/-- The canonical NaN (R38). -/
def FFmt.nan (f : FFmt) : Nat := if f.hasInf then f.infBits + 2 ^ (f.M - 1) else 0x7F

/-- The value of an encoding (R36, R37, R39). -/
def FFmt.dec (f : FFmt) (b : Nat) : XV :=
  let s := b.testBit f.sbit
  let e := b / 2 ^ f.M % 2 ^ f.X
  let m := b % 2 ^ f.M
  if e = 2 ^ f.X - 1 ∧ f.hasInf then (if m = 0 then .inf s else .nan)
  else if e = 2 ^ f.X - 1 ∧ m = 2 ^ f.M - 1 then .nan
  else if e = 0 then (XV.fin s m 1).scale (1 - f.bias - f.M)
  else (XV.fin s (m + 2 ^ f.M) 1).scale ((e : Int) - f.bias - f.M)

/-- Whether an encoding is a subnormal. -/
def FFmt.subnormal (f : FFmt) (b : Nat) : Bool := b / 2 ^ f.M % 2 ^ f.X == 0 && b % 2 ^ f.M != 0

/-- The value of an input under sub_flush, and whether it was flushed (R53). -/
def FFmt.input (f : FFmt) (flush : Bool) (b : Nat) : XV × Bool :=
  if flush && f.subnormal b then (.fin (b.testBit f.sbit) 0 1, true) else (f.dec b, false)

/-- n / d rounded to an integer: mode 0 nearest even, 1 toward zero, 2 stochastic with draw `r` (R42, R43). -/
def roundNat (mode r n d : Nat) : Nat :=
  let q := n / d
  let m := n % d
  match mode with
  | 0 => if d < 2 * m ∨ (2 * m = d ∧ q % 2 = 1) then q + 1 else q
  | 1 => q
  | _ => if r < 65536 * m / d then q + 1 else q

/-- A magnitude rounded to a format's unit in the last place, as an encoding without sign that may lie beyond the
largest finite one (R42, R43). -/
def FFmt.roundMag (f : FFmt) (mode r n d : Nat) : Nat :=
  if n = 0 then 0
  else
    let e := max (XV.floorLog2 n d) (1 - f.bias)
    let u := e - f.M
    let q := if 0 ≤ u then roundNat mode r n (d * 2 ^ u.toNat) else roundNat mode r (n * 2 ^ (-u).toNat) d
    if q < 2 ^ f.M then q else ((e + f.bias) * 2 ^ f.M).toNat + (q - 2 ^ f.M)

/-- A rounding's outcome: the encoding, whether it was clipped to the largest finite value, whether it was flushed. -/
structure Rounded where
  bits : Nat
  sat : Bool
  flushed : Bool
  deriving DecidableEq, Repr

/-- Round an exact value to a format (R38, R42 to R50, R54). -/
def FFmt.round (f : FFmt) (mode r : Nat) (ovfInf flush : Bool) (x : XV) : Rounded :=
  match x with
  | .nan => ⟨f.nan, false, false⟩
  | .inf s => ⟨if f.hasInf then f.infBits + (if s then 2 ^ f.sbit else 0) else f.nan, false, false⟩
  | .fin s n d =>
    let sg := if s then 2 ^ f.sbit else 0
    let b := f.roundMag mode r n d
    if f.maxFin < b then
      if ovfInf && f.hasInf && mode != 1 then ⟨f.infBits + sg, false, false⟩ else ⟨f.maxFin + sg, true, false⟩
    else if flush && decide (0 < b ∧ b < 2 ^ f.M) then ⟨sg, false, true⟩
    else ⟨b + sg, false, false⟩

/-- Round to F32 nearest even with overflow to infinity, as accumulators and the converter do (R44, R144). -/
def r32 (x : XV) : Nat := (f32.round 0 0 true false x).bits

/-- Round to F32 nearest even and read the result back. -/
def q32 (x : XV) : XV := f32.dec (r32 x)

/-- The square root of a value rounded to F32 nearest even: exact up to a sticky bit far below the last place. -/
def sqrt32 (x : XV) : XV :=
  match x with
  | .nan => .nan
  | .inf s => if s then .nan else .inf false
  | .fin s n d =>
    if n = 0 then .fin s 0 1
    else if s then .nan
    else
      let y := 2 ^ 512 * n / d
      let q := Nat.sqrt y
      let sticky := if q * q = y ∧ y * d = 2 ^ 512 * n then 0 else 1
      q32 (.fin false (2 * q + sticky) (2 ^ 257))

/-! ## Logarithms -/

/-- lg of an F32 encoding of a value not below 0 (chapter 05): signed Q8.8; lg(0) is a free value (DESIGN CHOICE, log entry 26). -/
def lgBits (b : Nat) : Int :=
  let e : Nat := b / 2 ^ 23 % 256
  let m : Nat := b % 2 ^ 23 / 2 ^ 15
  if b % 2 ^ 31 = 0 then Config.lgZero
  else if e = 255 then 32767
  else if e = 0 then -32768
  else 256 * ((e : Int) - 127) + (m : Int)

/-- lg of an exact positive value rounded to F32; beyond the largest finite F32 it is 32 767. -/
def lgOf (x : XV) : Int := lgBits (r32 x)

/-- pow2q(v), rounded to F32 nearest even and held at the largest finite F32 (R210). -/
def pow2q (v : Int) : XV :=
  let k := v / 256
  let f := (v - 256 * k).toNat
  f32.dec (f32.round 0 0 false false ((XV.fin false (256 + f) 256).scale k)).bits

/-- Clamp an integer. -/
def clampI (lo hi x : Int) : Int := if x < lo then lo else if hi < x then hi else x

end Sys2Proof.Machine
end

