-- ==== Sys2Proof/Machine/RegNames.lean ====
section
/-! DEFINITION. The device address of every register the specification names (R22 to R24 and the
register tables of each block), and the place of every one of its fields. -/

namespace Sys2Proof.Machine

/-- A field of a 64-bit register: its lowest bit and its width (R2). -/
structure RF where
  lo : Nat
  w : Nat
  deriving DecidableEq, Repr

/-- First address of block offset `off` of tile `t` on die `d` (R22). -/
def tileBlk (d t off : Nat) : Nat := 0x700000000000 + 0x100000000 * d + 0x10000 * t + off
/-- First address of die-level block offset `off` of die `d` (R23). -/
def dieBlk (d off : Nat) : Nat := 0x700000000000 + 0x100000000 * d + off
/-- First address of module block offset `off` (R24). -/
def modBlk (off : Nat) : Nat := 0x7F0000000000 + off

namespace Reg
/-- FWD_CTL (R133): address. -/
def fwdCtl (d t : Nat) : Nat := tileBlk d t 0x0 + 0x0
/-- Field default_prec of FWD_CTL. -/
def fwdCtl_default_prec : RF := ⟨0, 1⟩
/-- FWD_STATUS (R133): address. -/
def fwdStatus (d t : Nat) : Nat := tileBlk d t 0x0 + 0x8
/-- Field busy of FWD_STATUS. -/
def fwdStatus_busy : RF := ⟨0, 1⟩
/-- Field active_wset of FWD_STATUS. -/
def fwdStatus_active_wset : RF := ⟨1, 2⟩
/-- Field startup of FWD_STATUS. -/
def fwdStatus_startup : RF := ⟨3, 1⟩
/-- Field flush_sticky of FWD_STATUS. -/
def fwdStatus_flush_sticky : RF := ⟨4, 1⟩
/-- FWD_EVENTS (R133): address. -/
def fwdEvents (d t : Nat) : Nat := tileBlk d t 0x0 + 0x10
/-- Field quire_invalid of FWD_EVENTS. -/
def fwdEvents_quire_invalid : RF := ⟨0, 1⟩
/-- Field maxabs_stale of FWD_EVENTS. -/
def fwdEvents_maxabs_stale : RF := ⟨1, 1⟩
/-- Field side_list_bad of FWD_EVENTS. -/
def fwdEvents_side_list_bad : RF := ⟨2, 1⟩
/-- Field side_missing of FWD_EVENTS. -/
def fwdEvents_side_missing : RF := ⟨3, 1⟩
/-- Field wset_busy of FWD_EVENTS. -/
def fwdEvents_wset_busy : RF := ⟨4, 1⟩
/-- FWD_WINDOW (R133): address. -/
def fwdWindow (d t : Nat) : Nat := tileBlk d t 0x0 + 0x18
/-- Field top of FWD_WINDOW. -/
def fwdWindow_top : RF := ⟨0, 16⟩
/-- Field bottom of FWD_WINDOW. -/
def fwdWindow_bottom : RF := ⟨16, 16⟩
/-- Field p_eff of FWD_WINDOW. -/
def fwdWindow_p_eff : RF := ⟨32, 5⟩
/-- FWD_PROGRESS (R133): address. -/
def fwdProgress (d t : Nat) : Nat := tileBlk d t 0x0 + 0x20
/-- Field oldest of FWD_PROGRESS. -/
def fwdProgress_oldest : RF := ⟨0, 16⟩
/-- Field vec_count of FWD_PROGRESS. -/
def fwdProgress_vec_count : RF := ⟨16, 16⟩
/-- Field lane_stall of FWD_PROGRESS. -/
def fwdProgress_lane_stall : RF := ⟨32, 8⟩
/-- Field side_wait of FWD_PROGRESS. -/
def fwdProgress_side_wait : RF := ⟨40, 1⟩
/-- Field out_wait of FWD_PROGRESS. -/
def fwdProgress_out_wait : RF := ⟨41, 1⟩
/-- BWD_CTL (R187): address. -/
def bwdCtl (d t : Nat) : Nat := tileBlk d t 0x1000 + 0x0
/-- Field acc_dir_line of BWD_CTL. -/
def bwdCtl_acc_dir_line : RF := ⟨0, 16⟩
/-- BWD_STATUS (R187): address. -/
def bwdStatus (d t : Nat) : Nat := tileBlk d t 0x1000 + 0x8
/-- Field busy of BWD_STATUS. -/
def bwdStatus_busy : RF := ⟨0, 1⟩
/-- Field flush_sticky of BWD_STATUS. -/
def bwdStatus_flush_sticky : RF := ⟨1, 1⟩
/-- Field sets_held of BWD_STATUS. -/
def bwdStatus_sets_held : RF := ⟨2, 2⟩
/-- Field draining of BWD_STATUS. -/
def bwdStatus_draining : RF := ⟨4, 1⟩
/-- BWD_EVENTS (R187): address. -/
def bwdEvents (d t : Nat) : Nat := tileBlk d t 0x1000 + 0x10
/-- Field quire_invalid of BWD_EVENTS. -/
def bwdEvents_quire_invalid : RF := ⟨0, 1⟩
/-- Field invalid of BWD_EVENTS. -/
def bwdEvents_invalid : RF := ⟨1, 1⟩
/-- Field acc_tag of BWD_EVENTS. -/
def bwdEvents_acc_tag : RF := ⟨2, 1⟩
/-- Field count_sat of BWD_EVENTS. -/
def bwdEvents_count_sat : RF := ⟨3, 1⟩
/-- Field acc_busy of BWD_EVENTS. -/
def bwdEvents_acc_busy : RF := ⟨4, 1⟩
/-- BWD_PROGRESS (R187): address. -/
def bwdProgress (d t : Nat) : Nat := tileBlk d t 0x1000 + 0x18
/-- Field block of BWD_PROGRESS. -/
def bwdProgress_block : RF := ⟨0, 8⟩
/-- Field drain_block of BWD_PROGRESS. -/
def bwdProgress_drain_block : RF := ⟨8, 8⟩
/-- Field k_pos of BWD_PROGRESS. -/
def bwdProgress_k_pos : RF := ⟨16, 16⟩
/-- Field feed_wait of BWD_PROGRESS. -/
def bwdProgress_feed_wait : RF := ⟨32, 1⟩
/-- Field drain_wait of BWD_PROGRESS. -/
def bwdProgress_drain_wait : RF := ⟨33, 1⟩
/-- Field out_wait of BWD_PROGRESS. -/
def bwdProgress_out_wait : RF := ⟨34, 1⟩
/-- BWD_FIRST_BAD (R187): address. -/
def bwdFirstBad (d t : Nat) : Nat := tileBlk d t 0x1000 + 0x20
/-- Field layer_id of BWD_FIRST_BAD. -/
def bwdFirstBad_layer_id : RF := ⟨0, 16⟩
/-- Field microbatch of BWD_FIRST_BAD. -/
def bwdFirstBad_microbatch : RF := ⟨16, 16⟩
/-- Field block of BWD_FIRST_BAD. -/
def bwdFirstBad_block : RF := ⟨32, 8⟩
/-- Field slot of BWD_FIRST_BAD. -/
def bwdFirstBad_slot : RF := ⟨40, 6⟩
/-- Field dest of BWD_FIRST_BAD. -/
def bwdFirstBad_dest : RF := ⟨46, 1⟩
/-- Field valid of BWD_FIRST_BAD. -/
def bwdFirstBad_valid : RF := ⟨47, 1⟩
/-- BWD_FIRST_BAD_PASS (R187): address. -/
def bwdFirstBadPass (d t : Nat) : Nat := tileBlk d t 0x1000 + 0x28
/-- Field pass of BWD_FIRST_BAD_PASS. -/
def bwdFirstBadPass_pass : RF := ⟨0, 48⟩
/-- BWD_DERIV (R187): address. -/
def bwdDeriv (d t : Nat) (i j : Nat) : Nat := tileBlk d t 0x1000 + 0x100 + i * 0x40 + j * 0x8
/-- Field entry_lo of BWD_DERIV. -/
def bwdDeriv_entry_lo : RF := ⟨0, 32⟩
/-- Field entry_hi of BWD_DERIV. -/
def bwdDeriv_entry_hi : RF := ⟨32, 32⟩
/-- CNV_STATUS (R278): address. -/
def cnvStatus (d t : Nat) : Nat := tileBlk d t 0x2000 + 0x0
/-- Field busy of CNV_STATUS. -/
def cnvStatus_busy : RF := ⟨0, 1⟩
/-- Field flush_sticky of CNV_STATUS. -/
def cnvStatus_flush_sticky : RF := ⟨1, 1⟩
/-- Field queue of CNV_STATUS. -/
def cnvStatus_queue : RF := ⟨2, 3⟩
/-- CNV_EVENTS (R278): address. -/
def cnvEvents (d t : Nat) : Nat := tileBlk d t 0x2000 + 0x8
/-- Field invalid of CNV_EVENTS. -/
def cnvEvents_invalid : RF := ⟨0, 1⟩
/-- Field side_full of CNV_EVENTS. -/
def cnvEvents_side_full : RF := ⟨1, 1⟩
/-- CNV_PROGRESS (R278): address. -/
def cnvProgress (d t : Nat) : Nat := tileBlk d t 0x2000 + 0x10
/-- Field vector of CNV_PROGRESS. -/
def cnvProgress_vector : RF := ⟨0, 16⟩
/-- Field vec_count of CNV_PROGRESS. -/
def cnvProgress_vec_count : RF := ⟨16, 16⟩
/-- CNV_ACT_BP (R278): address. -/
def cnvActBp (d t : Nat) (i j : Nat) : Nat := tileBlk d t 0x2000 + 0x400 + 0x100 * i + j * 0x8
/-- Field bp_lo of CNV_ACT_BP. -/
def cnvActBp_bp_lo : RF := ⟨0, 32⟩
/-- Field bp_hi of CNV_ACT_BP. -/
def cnvActBp_bp_hi : RF := ⟨32, 32⟩
/-- CNV_ACT_SLOPE (R278): address. -/
def cnvActSlope (d t : Nat) (i j : Nat) : Nat := tileBlk d t 0x2000 + 0x440 + 0x100 * i + j * 0x8
/-- Field slope_lo of CNV_ACT_SLOPE. -/
def cnvActSlope_slope_lo : RF := ⟨0, 32⟩
/-- Field slope_hi of CNV_ACT_SLOPE. -/
def cnvActSlope_slope_hi : RF := ⟨32, 32⟩
/-- CNV_ACT_OFF (R278): address. -/
def cnvActOff (d t : Nat) (i j : Nat) : Nat := tileBlk d t 0x2000 + 0x480 + 0x100 * i + j * 0x8
/-- Field off_lo of CNV_ACT_OFF. -/
def cnvActOff_off_lo : RF := ⟨0, 32⟩
/-- Field off_hi of CNV_ACT_OFF. -/
def cnvActOff_off_hi : RF := ⟨32, 32⟩
/-- CNV_ACT_SEG (R278): address. -/
def cnvActSeg (d t : Nat) (i : Nat) : Nat := tileBlk d t 0x2000 + 0x4C0 + 0x100 * i
/-- Field seg_count of CNV_ACT_SEG. -/
def cnvActSeg_seg_count : RF := ⟨0, 5⟩
/-- WGH_CTL (R278): address. -/
def wghCtl (d t : Nat) : Nat := tileBlk d t 0x3000 + 0x0
/-- Field hist_invalidate of WGH_CTL. -/
def wghCtl_hist_invalidate : RF := ⟨0, 1⟩
/-- Field chan_clear of WGH_CTL. -/
def wghCtl_chan_clear : RF := ⟨1, 1⟩
/-- WGH_STATUS (R278): address. -/
def wghStatus (d t : Nat) : Nat := tileBlk d t 0x3000 + 0x8
/-- Field startup of WGH_STATUS. -/
def wghStatus_startup : RF := ⟨0, 1⟩
/-- Field armed of WGH_STATUS. -/
def wghStatus_armed : RF := ⟨1, 1⟩
/-- Field stop of WGH_STATUS. -/
def wghStatus_stop : RF := ⟨2, 1⟩
/-- WGH_EVENTS (R278): address. -/
def wghEvents (d t : Nat) : Nat := tileBlk d t 0x3000 + 0x10
/-- Field tag of WGH_EVENTS. -/
def wghEvents_tag : RF := ⟨0, 1⟩
/-- Field norm_jump of WGH_EVENTS. -/
def wghEvents_norm_jump : RF := ⟨1, 1⟩
/-- Field norm_stop of WGH_EVENTS. -/
def wghEvents_norm_stop : RF := ⟨2, 1⟩
/-- Field norm_nonfinite of WGH_EVENTS. -/
def wghEvents_norm_nonfinite : RF := ⟨3, 1⟩
/-- Field startup_begin of WGH_EVENTS. -/
def wghEvents_startup_begin : RF := ⟨4, 1⟩
/-- Field startup_end of WGH_EVENTS. -/
def wghEvents_startup_end : RF := ⟨5, 1⟩
/-- WGH_STARTUP (R278): address. -/
def wghStartup (d t : Nat) : Nat := tileBlk d t 0x3000 + 0x18
/-- Field end_pass of WGH_STARTUP. -/
def wghStartup_end_pass : RF := ⟨0, 48⟩
/-- WGH_NORM_CFG (R278): address. -/
def wghNormCfg (d t : Nat) : Nat := tileBlk d t 0x3000 + 0x20
/-- Field policy of WGH_NORM_CFG. -/
def wghNormCfg_policy : RF := ⟨0, 2⟩
/-- Field jump_lg of WGH_NORM_CFG. -/
def wghNormCfg_jump_lg : RF := ⟨8, 16⟩
/-- Field beta_n of WGH_NORM_CFG. -/
def wghNormCfg_beta_n : RF := ⟨24, 4⟩
/-- WGH_HIST_CFG (R278): address. -/
def wghHistCfg (d t : Nat) : Nat := tileBlk d t 0x3000 + 0x28
/-- Field beta_q of WGH_HIST_CFG. -/
def wghHistCfg_beta_q : RF := ⟨0, 4⟩
/-- Field beta_g of WGH_HIST_CFG. -/
def wghHistCfg_beta_g : RF := ⟨4, 4⟩
/-- Field beta_dx of WGH_HIST_CFG. -/
def wghHistCfg_beta_dx : RF := ⟨8, 4⟩
/-- Field headroom of WGH_HIST_CFG. -/
def wghHistCfg_headroom : RF := ⟨12, 4⟩
/-- Field out_lg of WGH_HIST_CFG. -/
def wghHistCfg_out_lg : RF := ⟨16, 16⟩
/-- WGH_SLOT (R278): address. -/
def wghSlot (d t : Nat) (i : Nat) : Nat := tileBlk d t 0x3000 + 0x100 + i * 0x8
/-- Field value of WGH_SLOT. -/
def wghSlot_value : RF := ⟨0, 32⟩
/-- Field tag of WGH_SLOT. -/
def wghSlot_tag : RF := ⟨32, 16⟩
/-- Field valid of WGH_SLOT. -/
def wghSlot_valid : RF := ⟨48, 1⟩
/-- Field pushes of WGH_SLOT. -/
def wghSlot_pushes : RF := ⟨49, 8⟩
/-- WGH_HIST0 (R278): address. -/
def wghHist0 (d t : Nat) (i : Nat) : Nat := tileBlk d t 0x3000 + 0x300 + i * 0x18
/-- Field q_lg of WGH_HIST0. -/
def wghHist0_q_lg : RF := ⟨0, 16⟩
/-- Field g_lg of WGH_HIST0. -/
def wghHist0_g_lg : RF := ⟨16, 16⟩
/-- Field dx_lg of WGH_HIST0. -/
def wghHist0_dx_lg : RF := ⟨32, 16⟩
/-- Field n_lg of WGH_HIST0. -/
def wghHist0_n_lg : RF := ⟨48, 16⟩
/-- WGH_HIST1 (R278): address. -/
def wghHist1 (d t : Nat) (i : Nat) : Nat := tileBlk d t 0x3000 + 0x308 + i * 0x18
/-- Field tag of WGH_HIST1. -/
def wghHist1_tag : RF := ⟨0, 16⟩
/-- Field q_valid of WGH_HIST1. -/
def wghHist1_q_valid : RF := ⟨16, 1⟩
/-- Field g_valid of WGH_HIST1. -/
def wghHist1_g_valid : RF := ⟨17, 1⟩
/-- Field dx_valid of WGH_HIST1. -/
def wghHist1_dx_valid : RF := ⟨18, 1⟩
/-- Field n_valid of WGH_HIST1. -/
def wghHist1_n_valid : RF := ⟨19, 1⟩
/-- Field xchg_exp of WGH_HIST1. -/
def wghHist1_xchg_exp : RF := ⟨20, 8⟩
/-- Field dx_exp of WGH_HIST1. -/
def wghHist1_dx_exp : RF := ⟨28, 8⟩
/-- Field verdict of WGH_HIST1. -/
def wghHist1_verdict : RF := ⟨36, 2⟩
/-- WGH_HIST2 (R278): address. -/
def wghHist2 (d t : Nat) (i : Nat) : Nat := tileBlk d t 0x3000 + 0x310 + i * 0x18
/-- Field cur_norm of WGH_HIST2. -/
def wghHist2_cur_norm : RF := ⟨0, 32⟩
/-- Field clip_factor of WGH_HIST2. -/
def wghHist2_clip_factor : RF := ⟨32, 32⟩
/-- WGH_CHAN (R278): address. -/
def wghChan (d t : Nat) (i : Nat) : Nat := tileBlk d t 0x3000 + 0x900 + i * 0x8
/-- Field chan of WGH_CHAN. -/
def wghChan_chan (k : Nat) : RF := ⟨0 + k * 16, 16⟩
/-- SEQ_CTL (R402): address. -/
def seqCtl (d t : Nat) : Nat := tileBlk d t 0x4000 + 0x0
/-- Field start of SEQ_CTL. -/
def seqCtl_start : RF := ⟨0, 1⟩
/-- Field halt of SEQ_CTL. -/
def seqCtl_halt : RF := ⟨1, 1⟩
/-- Field sleep_delay of SEQ_CTL. -/
def seqCtl_sleep_delay : RF := ⟨8, 8⟩
/-- SEQ_STATUS (R402): address. -/
def seqStatus (d t : Nat) : Nat := tileBlk d t 0x4000 + 0x8
/-- Field state of SEQ_STATUS. -/
def seqStatus_state : RF := ⟨0, 3⟩
/-- Field in_flight of SEQ_STATUS. -/
def seqStatus_in_flight : RF := ⟨3, 3⟩
/-- Field halt_cause of SEQ_STATUS. -/
def seqStatus_halt_cause : RF := ⟨6, 4⟩
/-- Field units of SEQ_STATUS. -/
def seqStatus_units : RF := ⟨10, 6⟩
/-- SEQ_PC (R402): address. -/
def seqPc (d t : Nat) : Nat := tileBlk d t 0x4000 + 0x10
/-- Field pc of SEQ_PC. -/
def seqPc_pc : RF := ⟨0, 48⟩
/-- SEQ_GEN (R402): address. -/
def seqGen (d t : Nat) : Nat := tileBlk d t 0x4000 + 0x18
/-- Field gen of SEQ_GEN. -/
def seqGen_gen : RF := ⟨0, 32⟩
/-- SEQ_PASS (R402): address. -/
def seqPass (d t : Nat) : Nat := tileBlk d t 0x4000 + 0x20
/-- Field pass of SEQ_PASS. -/
def seqPass_pass : RF := ⟨0, 48⟩
/-- SEQ_ISSUED (R402): address. -/
def seqIssued (d t : Nat) : Nat := tileBlk d t 0x4000 + 0x28
/-- Field issued of SEQ_ISSUED. -/
def seqIssued_issued : RF := ⟨0, 32⟩
/-- SEQ_LOOP (R402): address. -/
def seqLoop (d t : Nat) (i : Nat) : Nat := tileBlk d t 0x4000 + 0x30 + i * 0x8
/-- Field i_lo of SEQ_LOOP. -/
def seqLoop_i_lo : RF := ⟨0, 32⟩
/-- Field i_hi of SEQ_LOOP. -/
def seqLoop_i_hi : RF := ⟨32, 32⟩
/-- SEQ_HALT_INFO (R402): address. -/
def seqHaltInfo (d t : Nat) : Nat := tileBlk d t 0x4000 + 0x40
/-- Field pc of SEQ_HALT_INFO. -/
def seqHaltInfo_pc : RF := ⟨0, 48⟩
/-- Field opcode of SEQ_HALT_INFO. -/
def seqHaltInfo_opcode : RF := ⟨48, 8⟩
/-- Field byte_off of SEQ_HALT_INFO. -/
def seqHaltInfo_byte_off : RF := ⟨56, 8⟩
/-- SEQ_WAIT (R402): address. -/
def seqWait (d t : Nat) : Nat := tileBlk d t 0x4000 + 0x48
/-- Field tally of SEQ_WAIT. -/
def seqWait_tally : RF := ⟨0, 14⟩
/-- Field waiting of SEQ_WAIT. -/
def seqWait_waiting : RF := ⟨14, 1⟩
/-- Field mark of SEQ_WAIT. -/
def seqWait_mark : RF := ⟨16, 16⟩
/-- SEQ_EVENTS (R402): address. -/
def seqEvents (d t : Nat) : Nat := tileBlk d t 0x4000 + 0x50
/-- Field refused of SEQ_EVENTS. -/
def seqEvents_refused : RF := ⟨0, 1⟩
/-- Field gen_stale of SEQ_EVENTS. -/
def seqEvents_gen_stale : RF := ⟨1, 1⟩
/-- Field engine_refused of SEQ_EVENTS. -/
def seqEvents_engine_refused : RF := ⟨2, 1⟩
/-- Field fetch_err of SEQ_EVENTS. -/
def seqEvents_fetch_err : RF := ⟨3, 1⟩
/-- Field busy of SEQ_EVENTS. -/
def seqEvents_busy : RF := ⟨4, 1⟩
/-- MEM_STATUS (R444): address. -/
def memStatus (d t : Nat) : Nat := tileBlk d t 0x5000 + 0x0
/-- Field waking of MEM_STATUS. -/
def memStatus_waking : RF := ⟨0, 24⟩
/-- Field pool_waking of MEM_STATUS. -/
def memStatus_pool_waking : RF := ⟨24, 1⟩
/-- Field invalidating of MEM_STATUS. -/
def memStatus_invalidating : RF := ⟨25, 1⟩
/-- MEM_EVENTS (R444): address. -/
def memEvents (d t : Nat) : Nat := tileBlk d t 0x5000 + 0x8
/-- Field not_owner of MEM_EVENTS. -/
def memEvents_not_owner : RF := ⟨0, 1⟩
/-- Field invalid_read of MEM_EVENTS. -/
def memEvents_invalid_read : RF := ⟨1, 1⟩
/-- Field dp_collide of MEM_EVENTS. -/
def memEvents_dp_collide : RF := ⟨2, 1⟩
/-- Field hand_busy of MEM_EVENTS. -/
def memEvents_hand_busy : RF := ⟨3, 1⟩
/-- MEM_BANK_PWR (R444): address. -/
def memBankPwr (d t : Nat) : Nat := tileBlk d t 0x5000 + 0x10
/-- Field state of MEM_BANK_PWR. -/
def memBankPwr_state (k : Nat) : RF := ⟨0 + k * 2, 2⟩
/-- MEM_INVALIDATE (R444): address. -/
def memInvalidate (d t : Nat) : Nat := tileBlk d t 0x5000 + 0x18
/-- Field bank of MEM_INVALIDATE. -/
def memInvalidate_bank : RF := ⟨0, 24⟩
/-- Field acc of MEM_INVALIDATE. -/
def memInvalidate_acc : RF := ⟨24, 1⟩
/-- Field wstore of MEM_INVALIDATE. -/
def memInvalidate_wstore : RF := ⟨25, 1⟩
/-- Field trace of MEM_INVALIDATE. -/
def memInvalidate_trace : RF := ⟨26, 1⟩
/-- Field pool of MEM_INVALIDATE. -/
def memInvalidate_pool : RF := ⟨27, 1⟩
/-- MEM_LAST_REFUSED (R444): address. -/
def memLastRefused (d t : Nat) : Nat := tileBlk d t 0x5000 + 0x20
/-- Field addr of MEM_LAST_REFUSED. -/
def memLastRefused_addr : RF := ⟨0, 48⟩
/-- Field kind of MEM_LAST_REFUSED. -/
def memLastRefused_kind : RF := ⟨48, 3⟩
/-- Field id of MEM_LAST_REFUSED. -/
def memLastRefused_id : RF := ⟨51, 8⟩
/-- MEM_POOL_PWR (R444): address. -/
def memPoolPwr (d t : Nat) : Nat := tileBlk d t 0x5000 + 0x28
/-- Field state of MEM_POOL_PWR. -/
def memPoolPwr_state : RF := ⟨0, 2⟩
/-- MEM_BANK_OWN (R444): address. -/
def memBankOwn (d t : Nat) (i : Nat) : Nat := tileBlk d t 0x5000 + 0x100 + i * 0x8
/-- Field kind of MEM_BANK_OWN. -/
def memBankOwn_kind : RF := ⟨0, 3⟩
/-- Field id of MEM_BANK_OWN. -/
def memBankOwn_id : RF := ⟨3, 8⟩
/-- MEM_BANK_HAND (R444): address. -/
def memBankHand (d t : Nat) (i : Nat) : Nat := tileBlk d t 0x5000 + 0x200 + i * 0x8
/-- Field mode of MEM_BANK_HAND. -/
def memBankHand_mode : RF := ⟨0, 2⟩
/-- Field next_kind of MEM_BANK_HAND. -/
def memBankHand_next_kind : RF := ⟨2, 3⟩
/-- Field next_id of MEM_BANK_HAND. -/
def memBankHand_next_id : RF := ⟨5, 8⟩
/-- Field hand_tally of MEM_BANK_HAND. -/
def memBankHand_hand_tally : RF := ⟨13, 14⟩
/-- Field pending of MEM_BANK_HAND. -/
def memBankHand_pending : RF := ⟨27, 1⟩
/-- CPY_CFG (R553): address. -/
def cpyCfg (d t : Nat) : Nat := tileBlk d t 0x6000 + 0x0
/-- Field retry_max of CPY_CFG. -/
def cpyCfg_retry_max : RF := ⟨0, 4⟩
/-- CPY_EVENTS (R553): address. -/
def cpyEvents (d t : Nat) : Nat := tileBlk d t 0x6000 + 0x8
/-- Field halt of CPY_EVENTS. -/
def cpyEvents_halt : RF := ⟨0, 1⟩
/-- Field abort of CPY_EVENTS. -/
def cpyEvents_abort : RF := ⟨1, 1⟩
/-- Field mismatch of CPY_EVENTS. -/
def cpyEvents_mismatch : RF := ⟨2, 1⟩
/-- Field req_ovf of CPY_EVENTS. -/
def cpyEvents_req_ovf : RF := ⟨3, 1⟩
/-- Field queue_full of CPY_EVENTS. -/
def cpyEvents_queue_full : RF := ⟨4, 1⟩
/-- Field refused of CPY_EVENTS. -/
def cpyEvents_refused : RF := ⟨5, 1⟩
/-- CPY_SWREQ (R553): address. -/
def cpySwreq (d t : Nat) : Nat := tileBlk d t 0x6000 + 0x10
/-- Field amount of CPY_SWREQ. -/
def cpySwreq_amount : RF := ⟨0, 8⟩
/-- CPY_REQ (R553): address. -/
def cpyReq (d t : Nat) (i : Nat) : Nat := tileBlk d t 0x6000 + 0x18 + i * 0x8
/-- Field pending of CPY_REQ. -/
def cpyReq_pending (k : Nat) : RF := ⟨0 + k * 8, 8⟩
/-- CPY_CH_STATUS (R553): address. -/
def cpyChStatus (d t : Nat) (i : Nat) : Nat := tileBlk d t 0x6000 + 0x100 + i * 0x40
/-- Field state of CPY_CH_STATUS. -/
def cpyChStatus_state : RF := ⟨0, 3⟩
/-- Field paused of CPY_CH_STATUS. -/
def cpyChStatus_paused : RF := ⟨3, 1⟩
/-- Field attempt of CPY_CH_STATUS. -/
def cpyChStatus_attempt : RF := ⟨4, 4⟩
/-- Field queue of CPY_CH_STATUS. -/
def cpyChStatus_queue : RF := ⟨8, 4⟩
/-- CPY_CH_CTL (R553): address. -/
def cpyChCtl (d t : Nat) (i : Nat) : Nat := tileBlk d t 0x6000 + 0x108 + i * 0x40
/-- Field resume of CPY_CH_CTL. -/
def cpyChCtl_resume : RF := ⟨0, 1⟩
/-- Field abort of CPY_CH_CTL. -/
def cpyChCtl_abort : RF := ⟨1, 1⟩
/-- CPY_CH_POS (R553): address. -/
def cpyChPos (d t : Nat) (i : Nat) : Nat := tileBlk d t 0x6000 + 0x110 + i * 0x40
/-- Field row of CPY_CH_POS. -/
def cpyChPos_row : RF := ⟨0, 16⟩
/-- Field offset of CPY_CH_POS. -/
def cpyChPos_offset : RF := ⟨16, 32⟩
/-- CPY_CH_ERR (R553): address. -/
def cpyChErr (d t : Nat) (i : Nat) : Nat := tileBlk d t 0x6000 + 0x118 + i * 0x40
/-- Field addr of CPY_CH_ERR. -/
def cpyChErr_addr : RF := ⟨0, 48⟩
/-- Field write of CPY_CH_ERR. -/
def cpyChErr_write : RF := ⟨48, 1⟩
/-- Field cause of CPY_CH_ERR. -/
def cpyChErr_cause : RF := ⟨49, 4⟩
/-- CPY_CH_CMP_FIRST (R553): address. -/
def cpyChCmpFirst (d t : Nat) (i : Nat) : Nat := tileBlk d t 0x6000 + 0x120 + i * 0x40
/-- Field addr of CPY_CH_CMP_FIRST. -/
def cpyChCmpFirst_addr : RF := ⟨0, 48⟩
/-- Field valid of CPY_CH_CMP_FIRST. -/
def cpyChCmpFirst_valid : RF := ⟨48, 1⟩
/-- CPY_CH_CMP_COUNT (R553): address. -/
def cpyChCmpCount (d t : Nat) (i : Nat) : Nat := tileBlk d t 0x6000 + 0x128 + i * 0x40
/-- Field count of CPY_CH_CMP_COUNT. -/
def cpyChCmpCount_count : RF := ⟨0, 32⟩
/-- Field sat of CPY_CH_CMP_COUNT. -/
def cpyChCmpCount_sat : RF := ⟨32, 1⟩
/-- OBS_CTL (R1013): address. -/
def obsCtl (d t : Nat) : Nat := tileBlk d t 0x7000 + 0x0
/-- Field clear64 of OBS_CTL. -/
def obsCtl_clear64 : RF := ⟨0, 1⟩
/-- Field clear32 of OBS_CTL. -/
def obsCtl_clear32 : RF := ⟨1, 1⟩
/-- Field opc_clear of OBS_CTL. -/
def obsCtl_opc_clear : RF := ⟨2, 1⟩
/-- OBS_EVENTS (R1013): address. -/
def obsEvents (d t : Nat) : Nat := tileBlk d t 0x7000 + 0x8
/-- Field cnt_sat of OBS_EVENTS. -/
def obsEvents_cnt_sat : RF := ⟨0, 1⟩
/-- Field trace_lost of OBS_EVENTS. -/
def obsEvents_trace_lost : RF := ⟨1, 1⟩
/-- OBS_TRACE_CTL (R1013): address. -/
def obsTraceCtl (d t : Nat) : Nat := tileBlk d t 0x7000 + 0x10
/-- Field kinds of OBS_TRACE_CTL. -/
def obsTraceCtl_kinds : RF := ⟨0, 6⟩
/-- Field stop of OBS_TRACE_CTL. -/
def obsTraceCtl_stop : RF := ⟨6, 1⟩
/-- OBS_TRACE_STAT (R1013): address. -/
def obsTraceStat (d t : Nat) : Nat := tileBlk d t 0x7000 + 0x18
/-- Field slot of OBS_TRACE_STAT. -/
def obsTraceStat_slot : RF := ⟨0, 9⟩
/-- Field full of OBS_TRACE_STAT. -/
def obsTraceStat_full : RF := ⟨9, 4⟩
/-- OBS_OPC_CFG (R1013): address. -/
def obsOpcCfg (d t : Nat) : Nat := tileBlk d t 0x7000 + 0x20
/-- Field sel of OBS_OPC_CFG. -/
def obsOpcCfg_sel (k : Nat) : RF := ⟨0 + k * 8, 6⟩
/-- Field grp of OBS_OPC_CFG. -/
def obsOpcCfg_grp (k : Nat) : RF := ⟨6 + k * 8, 1⟩
/-- Field en of OBS_OPC_CFG. -/
def obsOpcCfg_en (k : Nat) : RF := ⟨7 + k * 8, 1⟩
/-- Field class of OBS_OPC_CFG. -/
def obsOpcCfg_class : RF := ⟨32, 3⟩
/-- OBS_SAMPLE (R1013): address. -/
def obsSample (d t : Nat) : Nat := tileBlk d t 0x7000 + 0x28
/-- Field go of OBS_SAMPLE. -/
def obsSample_go : RF := ⟨0, 1⟩
/-- OBS_PC_CFG (R1013): address. -/
def obsPcCfg (d t : Nat) : Nat := tileBlk d t 0x7000 + 0x30
/-- Field period_us of OBS_PC_CFG. -/
def obsPcCfg_period_us : RF := ⟨0, 16⟩
/-- OBS_OPC_LAST (R1013): address. -/
def obsOpcLast (d t : Nat) (i : Nat) : Nat := tileBlk d t 0x7000 + 0x40 + i * 0x10
/-- Field value of OBS_OPC_LAST. -/
def obsOpcLast_value : RF := ⟨0, 64⟩
/-- OBS_OPC_LAST_TAG (R1013): address. -/
def obsOpcLastTag (d t : Nat) (i : Nat) : Nat := tileBlk d t 0x7000 + 0x48 + i * 0x10
/-- Field tag of OBS_OPC_LAST_TAG. -/
def obsOpcLastTag_tag : RF := ⟨0, 32⟩
/-- OBS_OPC_SAMPLE (R1013): address. -/
def obsOpcSample (d t : Nat) (i : Nat) : Nat := tileBlk d t 0x7000 + 0x80 + i * 0x10
/-- Field value of OBS_OPC_SAMPLE. -/
def obsOpcSample_value : RF := ⟨0, 64⟩
/-- OBS_OPC_SAMPLE_TAG (R1013): address. -/
def obsOpcSampleTag (d t : Nat) (i : Nat) : Nat := tileBlk d t 0x7000 + 0x88 + i * 0x10
/-- Field tag of OBS_OPC_SAMPLE_TAG. -/
def obsOpcSampleTag_tag : RF := ⟨0, 32⟩
/-- OBS_SAMPLE_TIME (R1013): address. -/
def obsSampleTime (d t : Nat) : Nat := tileBlk d t 0x7000 + 0xC0
/-- Field time of OBS_SAMPLE_TIME. -/
def obsSampleTime_time : RF := ⟨0, 64⟩
/-- OBS_PC_SAMPLE (R1013): address. -/
def obsPcSample (d t : Nat) : Nat := tileBlk d t 0x7000 + 0xC8
/-- Field desc of OBS_PC_SAMPLE. -/
def obsPcSample_desc : RF := ⟨0, 48⟩
/-- Field code of OBS_PC_SAMPLE. -/
def obsPcSample_code : RF := ⟨48, 4⟩
/-- OBS_PC_SAMPLE_ISSUE (R1013): address. -/
def obsPcSampleIssue (d t : Nat) : Nat := tileBlk d t 0x7000 + 0xD0
/-- Field issue of OBS_PC_SAMPLE_ISSUE. -/
def obsPcSampleIssue_issue : RF := ⟨0, 32⟩
/-- Field mark of OBS_PC_SAMPLE_ISSUE. -/
def obsPcSampleIssue_mark : RF := ⟨32, 16⟩
/-- OBS_PC_SAMPLE_TIME (R1013): address. -/
def obsPcSampleTime (d t : Nat) : Nat := tileBlk d t 0x7000 + 0xD8
/-- Field time of OBS_PC_SAMPLE_TIME. -/
def obsPcSampleTime_time : RF := ⟨0, 64⟩
/-- OBS_CNT64 (R988): address. -/
def obsCnt64 (d t : Nat) (i : Nat) : Nat := tileBlk d t 0x7000 + 0x100 + i * 0x8
/-- Field value of OBS_CNT64. -/
def obsCnt64_value : RF := ⟨0, 64⟩
/-- OBS_CNT32 (R988): address. -/
def obsCnt32 (d t : Nat) (i : Nat) : Nat := tileBlk d t 0x7000 + 0x200 + i * 0x8
/-- Field value of OBS_CNT32. -/
def obsCnt32_value : RF := ⟨0, 32⟩
/-- Field sat of OBS_CNT32. -/
def obsCnt32_sat : RF := ⟨32, 1⟩
/-- GEN_CTL (R278): address. -/
def genCtl (d t : Nat) : Nat := tileBlk d t 0x8000 + 0x0
/-- Field share of GEN_CTL. -/
def genCtl_share : RF := ⟨0, 8⟩
/-- GEN_STATUS (R278): address. -/
def genStatus (d t : Nat) : Nat := tileBlk d t 0x8000 + 0x8
/-- Field held of GEN_STATUS. -/
def genStatus_held : RF := ⟨0, 8⟩
/-- GEN_EVENTS (R278): address. -/
def genEvents (d t : Nat) : Nat := tileBlk d t 0x8000 + 0x10
/-- Field busy of GEN_EVENTS. -/
def genEvents_busy : RF := ⟨0, 1⟩
/-- Field collision of GEN_EVENTS. -/
def genEvents_collision : RF := ⟨1, 1⟩
/-- GEN_REMIX (R278): address. -/
def genRemix (d t : Nat) : Nat := tileBlk d t 0x8000 + 0x18
/-- Field remix of GEN_REMIX. -/
def genRemix_remix (k : Nat) : RF := ⟨0 + k * 8, 8⟩
/-- GEN_STATE_LO (R278): address. -/
def genStateLo (d t : Nat) (i : Nat) : Nat := tileBlk d t 0x8000 + 0x100 + i * 0x10
/-- Field state_lo of GEN_STATE_LO. -/
def genStateLo_state_lo : RF := ⟨0, 64⟩
/-- GEN_STATE_HI (R278): address. -/
def genStateHi (d t : Nat) (i : Nat) : Nat := tileBlk d t 0x8000 + 0x108 + i * 0x10
/-- Field state_hi of GEN_STATE_HI. -/
def genStateHi_state_hi : RF := ⟨0, 63⟩
/-- GEN_KEY (R278): address. -/
def genKey (d t : Nat) (i : Nat) : Nat := tileBlk d t 0x8000 + 0x200 + i * 0x8
/-- Field key of GEN_KEY. -/
def genKey_key : RF := ⟨0, 64⟩
/-- TLY_STATE (R403): address. -/
def tlyState (d : Nat) (i : Nat) : Nat := dieBlk d 0x1000000 + 0x0 + i * 0x10
/-- Field value of TLY_STATE. -/
def tlyState_value : RF := ⟨0, 32⟩
/-- Field target of TLY_STATE. -/
def tlyState_target : RF := ⟨32, 32⟩
/-- TLY_STATE_MODE (R403): address. -/
def tlyStateMode (d : Nat) (i : Nat) : Nat := dieBlk d 0x1000000 + 0x8 + i * 0x10
/-- Field armed of TLY_STATE_MODE. -/
def tlyStateMode_armed : RF := ⟨0, 1⟩
/-- Field auto_dec of TLY_STATE_MODE. -/
def tlyStateMode_auto_dec : RF := ⟨1, 1⟩
/-- TLY_ADD (R403): address. -/
def tlyAdd (d : Nat) (i : Nat) : Nat := dieBlk d 0x1000000 + 0x40000 + i * 0x8
/-- Field amount of TLY_ADD. -/
def tlyAdd_amount : RF := ⟨0, 32⟩
/-- TLY_PLAN_GEN (R403): address. -/
def tlyPlanGen (d : Nat) : Nat := dieBlk d 0x1000000 + 0x60000
/-- Field gen of TLY_PLAN_GEN. -/
def tlyPlanGen_gen : RF := ⟨0, 32⟩
/-- TLY_CTL (R403): address. -/
def tlyCtl (d : Nat) : Nat := dieBlk d 0x1000000 + 0x60008
/-- Field clear_all of TLY_CTL. -/
def tlyCtl_clear_all : RF := ⟨0, 1⟩
/-- TLY_EVENTS (R403): address. -/
def tlyEvents (d : Nat) : Nat := dieBlk d 0x1000000 + 0x60010
/-- Field range of TLY_EVENTS. -/
def tlyEvents_range : RF := ⟨0, 1⟩
/-- Field remote_lost of TLY_EVENTS. -/
def tlyEvents_remote_lost : RF := ⟨1, 1⟩
/-- TLY_REMOTE_LOST (R403): address. -/
def tlyRemoteLost (d : Nat) : Nat := dieBlk d 0x1000000 + 0x60018
/-- Field addr of TLY_REMOTE_LOST. -/
def tlyRemoteLost_addr : RF := ⟨0, 31⟩
/-- Field lost of TLY_REMOTE_LOST. -/
def tlyRemoteLost_lost : RF := ⟨32, 32⟩
/-- TLY_JOB_SEED (R403): address. -/
def tlyJobSeed (d : Nat) : Nat := dieBlk d 0x1000000 + 0x60020
/-- Field seed of TLY_JOB_SEED. -/
def tlyJobSeed_seed : RF := ⟨0, 64⟩
/-- TLY_WAIT_STAT (R403): address. -/
def tlyWaitStat (d : Nat) (i : Nat) : Nat := dieBlk d 0x1000000 + 0x60100 + i * 0x8
/-- Field tally of TLY_WAIT_STAT. -/
def tlyWaitStat_tally : RF := ⟨0, 14⟩
/-- Field waiting of TLY_WAIT_STAT. -/
def tlyWaitStat_waiting : RF := ⟨14, 1⟩
/-- Field gated of TLY_WAIT_STAT. -/
def tlyWaitStat_gated : RF := ⟨15, 1⟩
/-- UPD_CTL (R333): address. -/
def updCtl (d : Nat) : Nat := dieBlk d 0x1100000 + 0x0
/-- Field hold of UPD_CTL. -/
def updCtl_hold : RF := ⟨0, 1⟩
/-- Field queue_clear of UPD_CTL. -/
def updCtl_queue_clear : RF := ⟨1, 1⟩
/-- UPD_STATUS (R333): address. -/
def updStatus (d : Nat) : Nat := dieBlk d 0x1100000 + 0x8
/-- Field busy of UPD_STATUS. -/
def updStatus_busy : RF := ⟨0, 1⟩
/-- Field startup of UPD_STATUS. -/
def updStatus_startup : RF := ⟨1, 1⟩
/-- Field flush_sticky of UPD_STATUS. -/
def updStatus_flush_sticky : RF := ⟨2, 1⟩
/-- Field prepass of UPD_STATUS. -/
def updStatus_prepass : RF := ⟨3, 1⟩
/-- Field queue of UPD_STATUS. -/
def updStatus_queue : RF := ⟨4, 6⟩
/-- Field mirrors of UPD_STATUS. -/
def updStatus_mirrors : RF := ⟨10, 3⟩
/-- UPD_EVENTS (R333): address. -/
def updEvents (d : Nat) : Nat := dieBlk d 0x1100000 + 0x10
/-- Field queue_full of UPD_EVENTS. -/
def updEvents_queue_full : RF := ⟨0, 1⟩
/-- Field verdict_tag of UPD_EVENTS. -/
def updEvents_verdict_tag : RF := ⟨1, 1⟩
/-- Field nonfinite of UPD_EVENTS. -/
def updEvents_nonfinite : RF := ⟨2, 1⟩
/-- Field scale_bad of UPD_EVENTS. -/
def updEvents_scale_bad : RF := ⟨3, 1⟩
/-- Field repeat of UPD_EVENTS. -/
def updEvents_repeat : RF := ⟨4, 1⟩
/-- Field busy of UPD_EVENTS. -/
def updEvents_busy : RF := ⟨5, 1⟩
/-- Field gen_busy of UPD_EVENTS. -/
def updEvents_gen_busy : RF := ⟨6, 1⟩
/-- Field table_bad of UPD_EVENTS. -/
def updEvents_table_bad : RF := ⟨7, 1⟩
/-- Field refused of UPD_EVENTS. -/
def updEvents_refused : RF := ⟨8, 1⟩
/-- UPD_SUBMIT (R333): address. -/
def updSubmit (d : Nat) : Nat := dieBlk d 0x1100000 + 0x18
/-- Field desc_addr of UPD_SUBMIT. -/
def updSubmit_desc_addr : RF := ⟨0, 48⟩
/-- UPD_PROGRESS (R333): address. -/
def updProgress (d : Nat) : Nat := dieBlk d 0x1100000 + 0x20
/-- Field unit of UPD_PROGRESS. -/
def updProgress_unit : RF := ⟨0, 16⟩
/-- Field layer_id of UPD_PROGRESS. -/
def updProgress_layer_id : RF := ⟨16, 16⟩
/-- Field lr_exp of UPD_PROGRESS. -/
def updProgress_lr_exp : RF := ⟨32, 8⟩
/-- Field mirror_wait of UPD_PROGRESS. -/
def updProgress_mirror_wait : RF := ⟨40, 1⟩
/-- UPD_CFG (R333): address. -/
def updCfg (d : Nat) : Nat := dieBlk d 0x1100000 + 0x28
/-- Field wg_gap of UPD_CFG. -/
def updCfg_wg_gap : RF := ⟨0, 8⟩
/-- UPD_GEN_SHARE (R333): address. -/
def updGenShare (d : Nat) : Nat := dieBlk d 0x1100000 + 0x30
/-- Field share of UPD_GEN_SHARE. -/
def updGenShare_share : RF := ⟨0, 8⟩
/-- UPD_GEN_REMIX (R333): address. -/
def updGenRemix (d : Nat) : Nat := dieBlk d 0x1100000 + 0x38
/-- Field remix of UPD_GEN_REMIX. -/
def updGenRemix_remix (k : Nat) : RF := ⟨0 + k * 8, 8⟩
/-- UPD_GEN_STATE_LO (R333): address. -/
def updGenStateLo (d : Nat) (i : Nat) : Nat := dieBlk d 0x1100000 + 0x100 + i * 0x10
/-- Field state_lo of UPD_GEN_STATE_LO. -/
def updGenStateLo_state_lo : RF := ⟨0, 64⟩
/-- UPD_GEN_STATE_HI (R333): address. -/
def updGenStateHi (d : Nat) (i : Nat) : Nat := dieBlk d 0x1100000 + 0x108 + i * 0x10
/-- Field state_hi of UPD_GEN_STATE_HI. -/
def updGenStateHi_state_hi : RF := ⟨0, 63⟩
/-- UPD_GEN_KEY (R333): address. -/
def updGenKey (d : Nat) (i : Nat) : Nat := dieBlk d 0x1100000 + 0x200 + i * 0x8
/-- Field key of UPD_GEN_KEY. -/
def updGenKey_key : RF := ⟨0, 64⟩
/-- HBM_STATUS (R507): address. -/
def hbmStatus (d : Nat) (i : Nat) : Nat := dieBlk d 0x1200000 + 0x0 + 0x1000 * i
/-- Field init_done of HBM_STATUS. -/
def hbmStatus_init_done : RF := ⟨0, 1⟩
/-- Field self_refresh of HBM_STATUS. -/
def hbmStatus_self_refresh : RF := ⟨1, 1⟩
/-- Field trk_used of HBM_STATUS. -/
def hbmStatus_trk_used : RF := ⟨16, 14⟩
/-- HBM_EVENTS (R507): address. -/
def hbmEvents (d : Nat) (i : Nat) : Nat := dieBlk d 0x1200000 + 0x8 + 0x1000 * i
/-- Field ue of HBM_EVENTS. -/
def hbmEvents_ue : RF := ⟨0, 1⟩
/-- Field check_rebuilt of HBM_EVENTS. -/
def hbmEvents_check_rebuilt : RF := ⟨1, 1⟩
/-- HBM_UE_LAST (R507): address. -/
def hbmUeLast (d : Nat) (i : Nat) : Nat := dieBlk d 0x1200000 + 0x10 + 0x1000 * i
/-- Field addr of HBM_UE_LAST. -/
def hbmUeLast_addr : RF := ⟨0, 48⟩
/-- Field class of HBM_UE_LAST. -/
def hbmUeLast_class : RF := ⟨48, 2⟩
/-- Field source of HBM_UE_LAST. -/
def hbmUeLast_source : RF := ⟨50, 2⟩
/-- HBM_SCRUB_POS (R507): address. -/
def hbmScrubPos (d : Nat) (i : Nat) : Nat := dieBlk d 0x1200000 + 0x18 + 0x1000 * i
/-- Field line of HBM_SCRUB_POS. -/
def hbmScrubPos_line : RF := ⟨0, 36⟩
/-- TR2_STATUS (R507): address. -/
def tr2Status (d : Nat) (i : Nat) : Nat := dieBlk d 0x1300000 + 0x0 + 0x1000 * i
/-- Field init_done of TR2_STATUS. -/
def tr2Status_init_done : RF := ⟨0, 1⟩
/-- Field self_refresh of TR2_STATUS. -/
def tr2Status_self_refresh : RF := ⟨1, 1⟩
/-- Field trk_used of TR2_STATUS. -/
def tr2Status_trk_used : RF := ⟨16, 14⟩
/-- TR2_EVENTS (R507): address. -/
def tr2Events (d : Nat) (i : Nat) : Nat := dieBlk d 0x1300000 + 0x8 + 0x1000 * i
/-- Field ue of TR2_EVENTS. -/
def tr2Events_ue : RF := ⟨0, 1⟩
/-- Field check_rebuilt of TR2_EVENTS. -/
def tr2Events_check_rebuilt : RF := ⟨1, 1⟩
/-- TR2_UE_LAST (R507): address. -/
def tr2UeLast (d : Nat) (i : Nat) : Nat := dieBlk d 0x1300000 + 0x10 + 0x1000 * i
/-- Field addr of TR2_UE_LAST. -/
def tr2UeLast_addr : RF := ⟨0, 48⟩
/-- Field class of TR2_UE_LAST. -/
def tr2UeLast_class : RF := ⟨48, 2⟩
/-- Field source of TR2_UE_LAST. -/
def tr2UeLast_source : RF := ⟨50, 2⟩
/-- TR2_SCRUB_POS (R507): address. -/
def tr2ScrubPos (d : Nat) (i : Nat) : Nat := dieBlk d 0x1300000 + 0x18 + 0x1000 * i
/-- Field line of TR2_SCRUB_POS. -/
def tr2ScrubPos_line : RF := ⟨0, 36⟩
/-- MAP_CTL (R508): address. -/
def mapCtl (d : Nat) : Nat := dieBlk d 0x1400000 + 0x0
/-- Field scrub_en of MAP_CTL. -/
def mapCtl_scrub_en : RF := ⟨0, 1⟩
/-- Field scrub_hours of MAP_CTL. -/
def mapCtl_scrub_hours : RF := ⟨8, 8⟩
/-- MAP_STATUS (R508): address. -/
def mapStatus (d : Nat) : Nat := dieBlk d 0x1400000 + 0x8
/-- Field hbm_init_done of MAP_STATUS. -/
def mapStatus_hbm_init_done : RF := ⟨0, 1⟩
/-- Field tr2_init_done of MAP_STATUS. -/
def mapStatus_tr2_init_done : RF := ⟨1, 1⟩
/-- Field rc_ready of MAP_STATUS. -/
def mapStatus_rc_ready : RF := ⟨2, 1⟩
/-- MAP_EVENTS (R508): address. -/
def mapEvents (d : Nat) : Nat := dieBlk d 0x1400000 + 0x10
/-- Field denied of MAP_EVENTS. -/
def mapEvents_denied : RF := ⟨0, 1⟩
/-- Field region_bad of MAP_EVENTS. -/
def mapEvents_region_bad : RF := ⟨1, 1⟩
/-- Field rc_reserved of MAP_EVENTS. -/
def mapEvents_rc_reserved : RF := ⟨2, 1⟩
/-- Field repair_ovf of MAP_EVENTS. -/
def mapEvents_repair_ovf : RF := ⟨3, 1⟩
/-- MAP_RC_CFG (R508): address. -/
def mapRcCfg (d : Nat) : Nat := dieBlk d 0x1400000 + 0x18
/-- Field rc_gib of MAP_RC_CFG. -/
def mapRcCfg_rc_gib : RF := ⟨0, 8⟩
/-- MAP_REPAIR (R508): address. -/
def mapRepair (d : Nat) : Nat := dieBlk d 0x1400000 + 0x20
/-- Field addr of MAP_REPAIR. -/
def mapRepair_addr : RF := ⟨0, 48⟩
/-- Field valid of MAP_REPAIR. -/
def mapRepair_valid : RF := ⟨48, 1⟩
/-- MAP_REPAIR_STAT (R508): address. -/
def mapRepairStat (d : Nat) : Nat := dieBlk d 0x1400000 + 0x28
/-- Field pop of MAP_REPAIR_STAT. -/
def mapRepairStat_pop : RF := ⟨0, 1⟩
/-- Field overflow of MAP_REPAIR_STAT. -/
def mapRepairStat_overflow : RF := ⟨1, 1⟩
/-- Field count of MAP_REPAIR_STAT. -/
def mapRepairStat_count : RF := ⟨2, 7⟩
/-- MAP_DENIED_LAST (R508): address. -/
def mapDeniedLast (d : Nat) : Nat := dieBlk d 0x1400000 + 0x30
/-- Field addr of MAP_DENIED_LAST. -/
def mapDeniedLast_addr : RF := ⟨0, 48⟩
/-- Field write of MAP_DENIED_LAST. -/
def mapDeniedLast_write : RF := ⟨48, 1⟩
/-- MAP_REGION_RANGE (R508): address. -/
def mapRegionRange (d : Nat) (i : Nat) : Nat := dieBlk d 0x1400000 + 0x1000 + i * 0x10
/-- Field base_page of MAP_REGION_RANGE. -/
def mapRegionRange_base_page : RF := ⟨0, 27⟩
/-- Field npages of MAP_REGION_RANGE. -/
def mapRegionRange_npages : RF := ⟨32, 20⟩
/-- MAP_REGION_ATTR (R508): address. -/
def mapRegionAttr (d : Nat) (i : Nat) : Nat := dieBlk d 0x1400000 + 0x1008 + i * 0x10
/-- Field valid of MAP_REGION_ATTR. -/
def mapRegionAttr_valid : RF := ⟨0, 1⟩
/-- Field read of MAP_REGION_ATTR. -/
def mapRegionAttr_read : RF := ⟨1, 1⟩
/-- Field write of MAP_REGION_ATTR. -/
def mapRegionAttr_write : RF := ⟨2, 1⟩
/-- Field prefetch of MAP_REGION_ATTR. -/
def mapRegionAttr_prefetch : RF := ⟨3, 1⟩
/-- Field class of MAP_REGION_ATTR. -/
def mapRegionAttr_class : RF := ⟨4, 2⟩
/-- Field cache of MAP_REGION_ATTR. -/
def mapRegionAttr_cache : RF := ⟨6, 1⟩
/-- LNK_PORT_CTL (R678): address. -/
def lnkPortCtl (d : Nat) (i : Nat) : Nat := dieBlk d 0x1500000 + 0x0 + 0x1000 * i
/-- Field enable of LNK_PORT_CTL. -/
def lnkPortCtl_enable : RF := ⟨0, 1⟩
/-- Field retrain of LNK_PORT_CTL. -/
def lnkPortCtl_retrain : RF := ⟨1, 1⟩
/-- Field lane_off of LNK_PORT_CTL. -/
def lnkPortCtl_lane_off : RF := ⟨2, 8⟩
/-- LNK_PORT_STATUS (R678): address. -/
def lnkPortStatus (d : Nat) (i : Nat) : Nat := dieBlk d 0x1500000 + 0x8 + 0x1000 * i
/-- Field state of LNK_PORT_STATUS. -/
def lnkPortStatus_state : RF := ⟨0, 3⟩
/-- Field tx_width of LNK_PORT_STATUS. -/
def lnkPortStatus_tx_width : RF := ⟨3, 4⟩
/-- Field rx_width of LNK_PORT_STATUS. -/
def lnkPortStatus_rx_width : RF := ⟨7, 4⟩
/-- Field pol_fixed of LNK_PORT_STATUS. -/
def lnkPortStatus_pol_fixed : RF := ⟨11, 8⟩
/-- LNK_PORT_LANES (R678): address. -/
def lnkPortLanes (d : Nat) (i : Nat) : Nat := dieBlk d 0x1500000 + 0x10 + 0x1000 * i
/-- Field cause of LNK_PORT_LANES. -/
def lnkPortLanes_cause (k : Nat) : RF := ⟨0 + k * 4, 4⟩
/-- Field logical of LNK_PORT_LANES. -/
def lnkPortLanes_logical (k : Nat) : RF := ⟨32 + k * 4, 3⟩
/-- LNK_PORT_EXPECT (R678): address. -/
def lnkPortExpect (d : Nat) (i : Nat) : Nat := dieBlk d 0x1500000 + 0x18 + 0x1000 * i
/-- Field expect_station of LNK_PORT_EXPECT. -/
def lnkPortExpect_expect_station : RF := ⟨0, 16⟩
/-- Field expect_port of LNK_PORT_EXPECT. -/
def lnkPortExpect_expect_port : RF := ⟨16, 4⟩
/-- Field valid of LNK_PORT_EXPECT. -/
def lnkPortExpect_valid : RF := ⟨20, 1⟩
/-- LNK_PORT_PEER (R678): address. -/
def lnkPortPeer (d : Nat) (i : Nat) : Nat := dieBlk d 0x1500000 + 0x20 + 0x1000 * i
/-- Field station of LNK_PORT_PEER. -/
def lnkPortPeer_station : RF := ⟨0, 16⟩
/-- Field port of LNK_PORT_PEER. -/
def lnkPortPeer_port : RF := ⟨16, 4⟩
/-- LNK_PORT_PEER_LO (R678): address. -/
def lnkPortPeerLo (d : Nat) (i : Nat) : Nat := dieBlk d 0x1500000 + 0x28 + 0x1000 * i
/-- Field serial_lo of LNK_PORT_PEER_LO. -/
def lnkPortPeerLo_serial_lo : RF := ⟨0, 64⟩
/-- LNK_PORT_PEER_HI (R678): address. -/
def lnkPortPeerHi (d : Nat) (i : Nat) : Nat := dieBlk d 0x1500000 + 0x30 + 0x1000 * i
/-- Field serial_hi of LNK_PORT_PEER_HI. -/
def lnkPortPeerHi_serial_hi : RF := ⟨0, 64⟩
/-- LNK_PORT_EVENTS (R678): address. -/
def lnkPortEvents (d : Nat) (i : Nat) : Nat := dieBlk d 0x1500000 + 0x38 + 0x1000 * i
/-- Field up of LNK_PORT_EVENTS. -/
def lnkPortEvents_up : RF := ⟨0, 1⟩
/-- Field down of LNK_PORT_EVENTS. -/
def lnkPortEvents_down : RF := ⟨1, 1⟩
/-- Field narrowed of LNK_PORT_EVENTS. -/
def lnkPortEvents_narrowed : RF := ⟨2, 1⟩
/-- Field miscabled of LNK_PORT_EVENTS. -/
def lnkPortEvents_miscabled : RF := ⟨3, 1⟩
/-- Field sc_drop of LNK_PORT_EVENTS. -/
def lnkPortEvents_sc_drop : RF := ⟨4, 1⟩
/-- Field sc_busy of LNK_PORT_EVENTS. -/
def lnkPortEvents_sc_busy : RF := ⟨5, 1⟩
/-- LNK_PORT_ERR_CFG (R678): address. -/
def lnkPortErrCfg (d : Nat) (i : Nat) : Nat := dieBlk d 0x1500000 + 0x40 + 0x1000 * i
/-- Field replay_max of LNK_PORT_ERR_CFG. -/
def lnkPortErrCfg_replay_max : RF := ⟨0, 4⟩
/-- Field lane_err_max of LNK_PORT_ERR_CFG. -/
def lnkPortErrCfg_lane_err_max : RF := ⟨16, 16⟩
/-- LNK_SC_CTL (R678): address. -/
def lnkScCtl (d : Nat) (i : Nat) : Nat := dieBlk d 0x1500000 + 0x48 + 0x1000 * i
/-- Field tx_go of LNK_SC_CTL. -/
def lnkScCtl_tx_go : RF := ⟨0, 1⟩
/-- Field rx_pop of LNK_SC_CTL. -/
def lnkScCtl_rx_pop : RF := ⟨1, 1⟩
/-- Field tx_busy of LNK_SC_CTL. -/
def lnkScCtl_tx_busy : RF := ⟨2, 1⟩
/-- Field rx_count of LNK_SC_CTL. -/
def lnkScCtl_rx_count : RF := ⟨3, 5⟩
/-- LNK_PORT_HB (R812): address. -/
def lnkPortHb (d : Nat) (i : Nat) : Nat := dieBlk d 0x1500000 + 0x50 + 0x1000 * i
/-- Field peer_alive of LNK_PORT_HB. -/
def lnkPortHb_peer_alive : RF := ⟨0, 1⟩
/-- Field peer_state of LNK_PORT_HB. -/
def lnkPortHb_peer_state : RF := ⟨1, 3⟩
/-- Field peer_station of LNK_PORT_HB. -/
def lnkPortHb_peer_station : RF := ⟨8, 16⟩
/-- Field peer_gen of LNK_PORT_HB. -/
def lnkPortHb_peer_gen : RF := ⟨32, 32⟩
/-- LNK_SC_TX (R678): address. -/
def lnkScTx (d : Nat) (i j : Nat) : Nat := dieBlk d 0x1500000 + 0x100 + 0x1000 * i + j * 0x8
/-- Field bytes of LNK_SC_TX. -/
def lnkScTx_bytes : RF := ⟨0, 64⟩
/-- LNK_SC_RX (R678): address. -/
def lnkScRx (d : Nat) (i j : Nat) : Nat := dieBlk d 0x1500000 + 0x140 + 0x1000 * i + j * 0x8
/-- Field bytes of LNK_SC_RX. -/
def lnkScRx_bytes : RF := ⟨0, 64⟩
/-- LNK_STATION (R678): address. -/
def lnkStation (d : Nat) : Nat := dieBlk d 0x1500000 + 0x8000
/-- Field station of LNK_STATION. -/
def lnkStation_station : RF := ⟨0, 16⟩
/-- Field home of LNK_STATION. -/
def lnkStation_home : RF := ⟨16, 16⟩
/-- LNK_CFG (R678): address. -/
def lnkCfg (d : Nat) : Nat := dieBlk d 0x1500000 + 0x8008
/-- Field ack_timeout_us of LNK_CFG. -/
def lnkCfg_ack_timeout_us : RF := ⟨0, 16⟩
/-- Field ttl_init of LNK_CFG. -/
def lnkCfg_ttl_init : RF := ⟨16, 6⟩
/-- LNK_EVENTS (R678): address. -/
def lnkEvents (d : Nat) : Nat := dieBlk d 0x1500000 + 0x8010
/-- Field unreach of LNK_EVENTS. -/
def lnkEvents_unreach : RF := ⟨0, 1⟩
/-- Field ttl of LNK_EVENTS. -/
def lnkEvents_ttl : RF := ⟨1, 1⟩
/-- Field ack_timeout of LNK_EVENTS. -/
def lnkEvents_ack_timeout : RF := ⟨2, 1⟩
/-- Field comb_bad of LNK_EVENTS. -/
def lnkEvents_comb_bad : RF := ⟨3, 1⟩
/-- Field comb_dup of LNK_EVENTS. -/
def lnkEvents_comb_dup : RF := ⟨4, 1⟩
/-- Field comb_busy of LNK_EVENTS. -/
def lnkEvents_comb_busy : RF := ⟨5, 1⟩
/-- LNK_TRACK (R678): address. -/
def lnkTrack (d : Nat) : Nat := dieBlk d 0x1500000 + 0x8018
/-- Field outstanding of LNK_TRACK. -/
def lnkTrack_outstanding : RF := ⟨0, 13⟩
/-- Field full of LNK_TRACK. -/
def lnkTrack_full : RF := ⟨13, 1⟩
/-- LNK_HB_CFG (R812): address. -/
def lnkHbCfg (d : Nat) : Nat := dieBlk d 0x1500000 + 0x8020
/-- Field hb_us of LNK_HB_CFG. -/
def lnkHbCfg_hb_us : RF := ⟨0, 16⟩
/-- Field miss of LNK_HB_CFG. -/
def lnkHbCfg_miss : RF := ⟨16, 4⟩
/-- Field wd_ms of LNK_HB_CFG. -/
def lnkHbCfg_wd_ms : RF := ⟨32, 16⟩
/-- LNK_HB_KICK (R812): address. -/
def lnkHbKick (d : Nat) : Nat := dieBlk d 0x1500000 + 0x8028
/-- Field kick of LNK_HB_KICK. -/
def lnkHbKick_kick : RF := ⟨0, 1⟩
/-- LNK_STATE_GEN (R812): address. -/
def lnkStateGen (d : Nat) : Nat := dieBlk d 0x1500000 + 0x8030
/-- Field gen of LNK_STATE_GEN. -/
def lnkStateGen_gen : RF := ⟨0, 32⟩
/-- Field state of LNK_STATE_GEN. -/
def lnkStateGen_state : RF := ⟨32, 3⟩
/-- LNK_FLT_EVENTS (R812): address. -/
def lnkFltEvents (d : Nat) : Nat := dieBlk d 0x1500000 + 0x8038
/-- Field silent of LNK_FLT_EVENTS. -/
def lnkFltEvents_silent : RF := ⟨0, 8⟩
/-- Field gen of LNK_FLT_EVENTS. -/
def lnkFltEvents_gen : RF := ⟨8, 8⟩
/-- Field watchdog of LNK_FLT_EVENTS. -/
def lnkFltEvents_watchdog : RF := ⟨16, 1⟩
/-- LNK_FLT_STATUS (R812): address. -/
def lnkFltStatus (d : Nat) : Nat := dieBlk d 0x1500000 + 0x8040
/-- Field silent_now of LNK_FLT_STATUS. -/
def lnkFltStatus_silent_now : RF := ⟨0, 8⟩
/-- Field alive of LNK_FLT_STATUS. -/
def lnkFltStatus_alive : RF := ⟨8, 1⟩
/-- LNK_COMB (R678): address. -/
def lnkComb (d : Nat) (i : Nat) : Nat := dieBlk d 0x1500000 + 0x10000 + i * 0x10
/-- Field entry of LNK_COMB. -/
def lnkComb_entry : RF := ⟨0, 30⟩
/-- LNK_COMB_HELD (R678): address. -/
def lnkCombHeld (d : Nat) (i : Nat) : Nat := dieBlk d 0x1500000 + 0x10008 + i * 0x10
/-- Field held of LNK_COMB_HELD. -/
def lnkCombHeld_held : RF := ⟨0, 4⟩
/-- Field held_mask of LNK_COMB_HELD. -/
def lnkCombHeld_held_mask : RF := ⟨4, 8⟩
/-- LNK_ROUTE (R678): address. -/
def lnkRoute (d : Nat) (i : Nat) : Nat := dieBlk d 0x1500000 + 0x20000 + i * 0x8
/-- Field entry of LNK_ROUTE. -/
def lnkRoute_entry (k : Nat) : RF := ⟨0 + k * 16, 16⟩
/-- CLR_CTL (R745): address. -/
def clrCtl (d : Nat) : Nat := dieBlk d 0x1600000 + 0x0
/-- Field hold of CLR_CTL. -/
def clrCtl_hold : RF := ⟨0, 1⟩
/-- Field queue_clear of CLR_CTL. -/
def clrCtl_queue_clear : RF := ⟨1, 1⟩
/-- Field force16 of CLR_CTL. -/
def clrCtl_force16 : RF := ⟨2, 1⟩
/-- Field resume of CLR_CTL. -/
def clrCtl_resume : RF := ⟨3, 1⟩
/-- Field abort of CLR_CTL. -/
def clrCtl_abort : RF := ⟨4, 1⟩
/-- CLR_STATUS (R745): address. -/
def clrStatus (d : Nat) : Nat := dieBlk d 0x1600000 + 0x8
/-- Field in_flight of CLR_STATUS. -/
def clrStatus_in_flight : RF := ⟨0, 3⟩
/-- Field queue of CLR_STATUS. -/
def clrStatus_queue : RF := ⟨3, 6⟩
/-- Field halted of CLR_STATUS. -/
def clrStatus_halted : RF := ⟨9, 1⟩
/-- Field startup of CLR_STATUS. -/
def clrStatus_startup : RF := ⟨10, 1⟩
/-- CLR_EVENTS (R745): address. -/
def clrEvents (d : Nat) : Nat := dieBlk d 0x1600000 + 0x10
/-- Field queue_full of CLR_EVENTS. -/
def clrEvents_queue_full : RF := ⟨0, 1⟩
/-- Field refused of CLR_EVENTS. -/
def clrEvents_refused : RF := ⟨1, 1⟩
/-- Field halt of CLR_EVENTS. -/
def clrEvents_halt : RF := ⟨2, 1⟩
/-- Field late of CLR_EVENTS. -/
def clrEvents_late : RF := ⟨3, 1⟩
/-- Field quorum of CLR_EVENTS. -/
def clrEvents_quorum : RF := ⟨4, 1⟩
/-- Field split of CLR_EVENTS. -/
def clrEvents_split : RF := ⟨5, 1⟩
/-- Field epoch_drop of CLR_EVENTS. -/
def clrEvents_epoch_drop : RF := ⟨6, 1⟩
/-- Field fence_late of CLR_EVENTS. -/
def clrEvents_fence_late : RF := ⟨7, 1⟩
/-- Field permute_late of CLR_EVENTS. -/
def clrEvents_permute_late : RF := ⟨8, 1⟩
/-- CLR_SUBMIT (R745): address. -/
def clrSubmit (d : Nat) : Nat := dieBlk d 0x1600000 + 0x18
/-- Field desc_addr of CLR_SUBMIT. -/
def clrSubmit_desc_addr : RF := ⟨0, 48⟩
/-- CLR_CFG (R745): address. -/
def clrCfg (d : Nat) : Nat := dieBlk d 0x1600000 + 0x20
/-- Field level_us of CLR_CFG. -/
def clrCfg_level_us : RF := ⟨0, 16⟩
/-- Field stall_us of CLR_CFG. -/
def clrCfg_stall_us : RF := ⟨16, 16⟩
/-- Field retry_max of CLR_CFG. -/
def clrCfg_retry_max : RF := ⟨32, 4⟩
/-- CLR_EPOCH (R745): address. -/
def clrEpoch (d : Nat) : Nat := dieBlk d 0x1600000 + 0x28
/-- Field epoch of CLR_EPOCH. -/
def clrEpoch_epoch : RF := ⟨0, 8⟩
/-- CLR_ERR (R745): address. -/
def clrErr (d : Nat) : Nat := dieBlk d 0x1600000 + 0x30
/-- Field addr of CLR_ERR. -/
def clrErr_addr : RF := ⟨0, 48⟩
/-- Field write of CLR_ERR. -/
def clrErr_write : RF := ⟨48, 1⟩
/-- Field cause of CLR_ERR. -/
def clrErr_cause : RF := ⟨49, 4⟩
/-- CLR_PROGRESS (R745): address. -/
def clrProgress (d : Nat) : Nat := dieBlk d 0x1600000 + 0x38
/-- Field layer_id of CLR_PROGRESS. -/
def clrProgress_layer_id : RF := ⟨0, 16⟩
/-- Field position of CLR_PROGRESS. -/
def clrProgress_position : RF := ⟨16, 32⟩
/-- Field waiting of CLR_PROGRESS. -/
def clrProgress_waiting : RF := ⟨48, 1⟩
/-- CLR_XOR (R813): address. -/
def clrXor (d : Nat) : Nat := dieBlk d 0x1600000 + 0x40
/-- Field xor of CLR_XOR. -/
def clrXor_xor : RF := ⟨0, 1⟩
/-- PRT_CTL (R609): address. -/
def prtCtl (d : Nat) : Nat := dieBlk d 0x1700000 + 0x0
/-- Field resume of PRT_CTL. -/
def prtCtl_resume : RF := ⟨0, 1⟩
/-- Field abort of PRT_CTL. -/
def prtCtl_abort : RF := ⟨1, 1⟩
/-- Field queue_clear of PRT_CTL. -/
def prtCtl_queue_clear : RF := ⟨2, 1⟩
/-- PRT_STATUS (R609): address. -/
def prtStatus (d : Nat) : Nat := dieBlk d 0x1700000 + 0x8
/-- Field state of PRT_STATUS. -/
def prtStatus_state : RF := ⟨0, 3⟩
/-- Field queue of PRT_STATUS. -/
def prtStatus_queue : RF := ⟨3, 6⟩
/-- Field rows_in_flight of PRT_STATUS. -/
def prtStatus_rows_in_flight : RF := ⟨9, 12⟩
/-- PRT_EVENTS (R609): address. -/
def prtEvents (d : Nat) : Nat := dieBlk d 0x1700000 + 0x10
/-- Field list_bad of PRT_EVENTS. -/
def prtEvents_list_bad : RF := ⟨0, 1⟩
/-- Field invalid of PRT_EVENTS. -/
def prtEvents_invalid : RF := ⟨1, 1⟩
/-- Field ledger_full of PRT_EVENTS. -/
def prtEvents_ledger_full : RF := ⟨2, 1⟩
/-- Field par_lost of PRT_EVENTS. -/
def prtEvents_par_lost : RF := ⟨3, 1⟩
/-- Field halt of PRT_EVENTS. -/
def prtEvents_halt : RF := ⟨4, 1⟩
/-- Field queue_full of PRT_EVENTS. -/
def prtEvents_queue_full : RF := ⟨5, 1⟩
/-- Field refused of PRT_EVENTS. -/
def prtEvents_refused : RF := ⟨6, 1⟩
/-- PRT_SUBMIT (R609): address. -/
def prtSubmit (d : Nat) : Nat := dieBlk d 0x1700000 + 0x18
/-- Field desc_addr of PRT_SUBMIT. -/
def prtSubmit_desc_addr : RF := ⟨0, 48⟩
/-- PRT_CFG (R609): address. -/
def prtCfg (d : Nat) : Nat := dieBlk d 0x1700000 + 0x20
/-- Field retry_max of PRT_CFG. -/
def prtCfg_retry_max : RF := ⟨0, 4⟩
/-- PRT_ERR (R609): address. -/
def prtErr (d : Nat) : Nat := dieBlk d 0x1700000 + 0x28
/-- Field addr of PRT_ERR. -/
def prtErr_addr : RF := ⟨0, 48⟩
/-- Field write of PRT_ERR. -/
def prtErr_write : RF := ⟨48, 1⟩
/-- Field cause of PRT_ERR. -/
def prtErr_cause : RF := ⟨49, 4⟩
/-- PRT_PAR_SENT (R609): address. -/
def prtParSent (d : Nat) : Nat := dieBlk d 0x1700000 + 0x30
/-- Field lines of PRT_PAR_SENT. -/
def prtParSent_lines : RF := ⟨0, 64⟩
/-- PRT_PAR_LOST (R609): address. -/
def prtParLost (d : Nat) : Nat := dieBlk d 0x1700000 + 0x38
/-- Field lost of PRT_PAR_LOST. -/
def prtParLost_lost : RF := ⟨0, 32⟩
/-- PRT_PAR_RCVD (R609): address. -/
def prtParRcvd (d : Nat) (i : Nat) : Nat := dieBlk d 0x1700000 + 0x40 + i * 0x8
/-- Field lines of PRT_PAR_RCVD. -/
def prtParRcvd_lines : RF := ⟨0, 64⟩
/-- PRT_TABLE0 (R609): address. -/
def prtTable0 (d : Nat) (i : Nat) : Nat := dieBlk d 0x1700000 + 0x1000 + i * 0x40
/-- Field base of PRT_TABLE0. -/
def prtTable0_base : RF := ⟨0, 48⟩
/-- Field valid of PRT_TABLE0. -/
def prtTable0_valid : RF := ⟨48, 1⟩
/-- Field par_en of PRT_TABLE0. -/
def prtTable0_par_en : RF := ⟨49, 1⟩
/-- Field par_stale of PRT_TABLE0. -/
def prtTable0_par_stale : RF := ⟨50, 1⟩
/-- PRT_TABLE1 (R609): address. -/
def prtTable1 (d : Nat) (i : Nat) : Nat := dieBlk d 0x1700000 + 0x1008 + i * 0x40
/-- Field row0 of PRT_TABLE1. -/
def prtTable1_row0 : RF := ⟨0, 40⟩
/-- PRT_TABLE2 (R609): address. -/
def prtTable2 (d : Nat) (i : Nat) : Nat := dieBlk d 0x1700000 + 0x1010 + i * 0x40
/-- Field nrows of PRT_TABLE2. -/
def prtTable2_nrows : RF := ⟨0, 40⟩
/-- Field d_m of PRT_TABLE2. -/
def prtTable2_d_m : RF := ⟨40, 8⟩
/-- Field layer_id of PRT_TABLE2. -/
def prtTable2_layer_id : RF := ⟨48, 16⟩
/-- PRT_TABLE3 (R609): address. -/
def prtTable3 (d : Nat) (i : Nat) : Nat := dieBlk d 0x1700000 + 0x1018 + i * 0x40
/-- Field ledger_base of PRT_TABLE3. -/
def prtTable3_ledger_base : RF := ⟨0, 48⟩
/-- Field ledger_log2 of PRT_TABLE3. -/
def prtTable3_ledger_log2 : RF := ⟨48, 5⟩
/-- PRT_TABLE4 (R609): address. -/
def prtTable4 (d : Nat) (i : Nat) : Nat := dieBlk d 0x1700000 + 0x1020 + i * 0x40
/-- Field par_base of PRT_TABLE4. -/
def prtTable4_par_base : RF := ⟨0, 48⟩
/-- Field par_station of PRT_TABLE4. -/
def prtTable4_par_station : RF := ⟨48, 16⟩
/-- DCP_CFG (R553): address. -/
def dcpCfg (d : Nat) : Nat := dieBlk d 0x1800000 + 0x0
/-- Field retry_max of DCP_CFG. -/
def dcpCfg_retry_max : RF := ⟨0, 4⟩
/-- DCP_EVENTS (R553): address. -/
def dcpEvents (d : Nat) : Nat := dieBlk d 0x1800000 + 0x8
/-- Field halt of DCP_EVENTS. -/
def dcpEvents_halt : RF := ⟨0, 1⟩
/-- Field abort of DCP_EVENTS. -/
def dcpEvents_abort : RF := ⟨1, 1⟩
/-- Field mismatch of DCP_EVENTS. -/
def dcpEvents_mismatch : RF := ⟨2, 1⟩
/-- Field req_ovf of DCP_EVENTS. -/
def dcpEvents_req_ovf : RF := ⟨3, 1⟩
/-- Field queue_full of DCP_EVENTS. -/
def dcpEvents_queue_full : RF := ⟨4, 1⟩
/-- Field refused of DCP_EVENTS. -/
def dcpEvents_refused : RF := ⟨5, 1⟩
/-- DCP_SWREQ (R553): address. -/
def dcpSwreq (d : Nat) : Nat := dieBlk d 0x1800000 + 0x10
/-- Field amount of DCP_SWREQ. -/
def dcpSwreq_amount : RF := ⟨0, 8⟩
/-- DCP_REQ (R553): address. -/
def dcpReq (d : Nat) (i : Nat) : Nat := dieBlk d 0x1800000 + 0x18 + i * 0x8
/-- Field pending of DCP_REQ. -/
def dcpReq_pending (k : Nat) : RF := ⟨0 + k * 8, 8⟩
/-- DCP_SUBMIT (R553): address. -/
def dcpSubmit (d : Nat) : Nat := dieBlk d 0x1800000 + 0x28
/-- Field desc_addr of DCP_SUBMIT. -/
def dcpSubmit_desc_addr : RF := ⟨0, 48⟩
/-- DCP_CH_STATUS (R553): address. -/
def dcpChStatus (d : Nat) (i : Nat) : Nat := dieBlk d 0x1800000 + 0x1000 + i * 0x40
/-- Field state of DCP_CH_STATUS. -/
def dcpChStatus_state : RF := ⟨0, 3⟩
/-- Field paused of DCP_CH_STATUS. -/
def dcpChStatus_paused : RF := ⟨3, 1⟩
/-- Field attempt of DCP_CH_STATUS. -/
def dcpChStatus_attempt : RF := ⟨4, 4⟩
/-- Field queue of DCP_CH_STATUS. -/
def dcpChStatus_queue : RF := ⟨8, 4⟩
/-- DCP_CH_CTL (R553): address. -/
def dcpChCtl (d : Nat) (i : Nat) : Nat := dieBlk d 0x1800000 + 0x1008 + i * 0x40
/-- Field resume of DCP_CH_CTL. -/
def dcpChCtl_resume : RF := ⟨0, 1⟩
/-- Field abort of DCP_CH_CTL. -/
def dcpChCtl_abort : RF := ⟨1, 1⟩
/-- DCP_CH_POS (R553): address. -/
def dcpChPos (d : Nat) (i : Nat) : Nat := dieBlk d 0x1800000 + 0x1010 + i * 0x40
/-- Field row of DCP_CH_POS. -/
def dcpChPos_row : RF := ⟨0, 16⟩
/-- Field offset of DCP_CH_POS. -/
def dcpChPos_offset : RF := ⟨16, 32⟩
/-- DCP_CH_ERR (R553): address. -/
def dcpChErr (d : Nat) (i : Nat) : Nat := dieBlk d 0x1800000 + 0x1018 + i * 0x40
/-- Field addr of DCP_CH_ERR. -/
def dcpChErr_addr : RF := ⟨0, 48⟩
/-- Field write of DCP_CH_ERR. -/
def dcpChErr_write : RF := ⟨48, 1⟩
/-- Field cause of DCP_CH_ERR. -/
def dcpChErr_cause : RF := ⟨49, 4⟩
/-- DCP_CH_CMP_FIRST (R553): address. -/
def dcpChCmpFirst (d : Nat) (i : Nat) : Nat := dieBlk d 0x1800000 + 0x1020 + i * 0x40
/-- Field addr of DCP_CH_CMP_FIRST. -/
def dcpChCmpFirst_addr : RF := ⟨0, 48⟩
/-- Field valid of DCP_CH_CMP_FIRST. -/
def dcpChCmpFirst_valid : RF := ⟨48, 1⟩
/-- DCP_CH_CMP_COUNT (R553): address. -/
def dcpChCmpCount (d : Nat) (i : Nat) : Nat := dieBlk d 0x1800000 + 0x1028 + i * 0x40
/-- Field count of DCP_CH_CMP_COUNT. -/
def dcpChCmpCount_count : RF := ⟨0, 32⟩
/-- Field sat of DCP_CH_CMP_COUNT. -/
def dcpChCmpCount_sat : RF := ⟨32, 1⟩
/-- CLK_CTL (R980): address. -/
def clkCtl (d : Nat) : Nat := dieBlk d 0x1900000 + 0x0
/-- Field arr_stop of CLK_CTL. -/
def clkCtl_arr_stop : RF := ⟨0, 1⟩
/-- Field pll_sleep of CLK_CTL. -/
def clkCtl_pll_sleep : RF := ⟨1, 1⟩
/-- Field pll_idle_us of CLK_CTL. -/
def clkCtl_pll_idle_us : RF := ⟨16, 16⟩
/-- CLK_STATUS (R980): address. -/
def clkStatus (d : Nat) : Nat := dieBlk d 0x1900000 + 0x8
/-- Field lock of CLK_STATUS. -/
def clkStatus_lock : RF := ⟨0, 5⟩
/-- Field arr_running of CLK_STATUS. -/
def clkStatus_arr_running : RF := ⟨5, 1⟩
/-- Field failed of CLK_STATUS. -/
def clkStatus_failed : RF := ⟨6, 1⟩
/-- CLK_EVENTS (R980): address. -/
def clkEvents (d : Nat) : Nat := dieBlk d 0x1900000 + 0x10
/-- Field unlock of CLK_EVENTS. -/
def clkEvents_unlock : RF := ⟨0, 1⟩
/-- Field gate_busy of CLK_EVENTS. -/
def clkEvents_gate_busy : RF := ⟨1, 1⟩
/-- Field pll_failed of CLK_EVENTS. -/
def clkEvents_pll_failed : RF := ⟨2, 1⟩
/-- CLK_FREQ (R980): address. -/
def clkFreq (d : Nat) : Nat := dieBlk d 0x1900000 + 0x18
/-- Field arr_mhz of CLK_FREQ. -/
def clkFreq_arr_mhz : RF := ⟨0, 16⟩
/-- Field fab_mhz of CLK_FREQ. -/
def clkFreq_fab_mhz : RF := ⟨16, 16⟩
/-- DOB_CTL (R1013): address. -/
def dobCtl (d : Nat) : Nat := dieBlk d 0x1A00000 + 0x0
/-- Field clear64 of DOB_CTL. -/
def dobCtl_clear64 : RF := ⟨0, 1⟩
/-- Field clear32 of DOB_CTL. -/
def dobCtl_clear32 : RF := ⟨1, 1⟩
/-- Field snap_go of DOB_CTL. -/
def dobCtl_snap_go : RF := ⟨2, 1⟩
/-- DOB_EVENTS (R1013): address. -/
def dobEvents (d : Nat) : Nat := dieBlk d 0x1A00000 + 0x8
/-- Field reg_access of DOB_EVENTS. -/
def dobEvents_reg_access : RF := ⟨0, 1⟩
/-- Field reg_reserved_value of DOB_EVENTS. -/
def dobEvents_reg_reserved_value : RF := ⟨1, 1⟩
/-- Field addr_unmapped of DOB_EVENTS. -/
def dobEvents_addr_unmapped : RF := ⟨2, 1⟩
/-- Field addr_denied of DOB_EVENTS. -/
def dobEvents_addr_denied : RF := ⟨3, 1⟩
/-- Field addr_unreachable of DOB_EVENTS. -/
def dobEvents_addr_unreachable : RF := ⟨4, 1⟩
/-- Field cnt_sat of DOB_EVENTS. -/
def dobEvents_cnt_sat : RF := ⟨5, 1⟩
/-- Field log_lost of DOB_EVENTS. -/
def dobEvents_log_lost : RF := ⟨6, 1⟩
/-- DOB_LOG_CTL (R1013): address. -/
def dobLogCtl (d : Nat) : Nat := dieBlk d 0x1A00000 + 0x10
/-- Field base of DOB_LOG_CTL. -/
def dobLogCtl_base : RF := ⟨0, 48⟩
/-- Field en of DOB_LOG_CTL. -/
def dobLogCtl_en : RF := ⟨48, 1⟩
/-- DOB_LOG_STAT (R1013): address. -/
def dobLogStat (d : Nat) : Nat := dieBlk d 0x1A00000 + 0x18
/-- Field slot of DOB_LOG_STAT. -/
def dobLogStat_slot : RF := ⟨0, 8⟩
/-- Field full of DOB_LOG_STAT. -/
def dobLogStat_full : RF := ⟨8, 4⟩
/-- DOB_PC_CFG (R1013): address. -/
def dobPcCfg (d : Nat) : Nat := dieBlk d 0x1A00000 + 0x20
/-- Field period_us of DOB_PC_CFG. -/
def dobPcCfg_period_us : RF := ⟨0, 16⟩
/-- DOB_RAISE (R1013): address. -/
def dobRaise (d : Nat) : Nat := dieBlk d 0x1A00000 + 0x28
/-- Field code of DOB_RAISE. -/
def dobRaise_code : RF := ⟨0, 16⟩
/-- DOB_RAISE_DETAIL (R1013): address. -/
def dobRaiseDetail (d : Nat) (i : Nat) : Nat := dieBlk d 0x1A00000 + 0x30 + i * 0x8
/-- Field word of DOB_RAISE_DETAIL. -/
def dobRaiseDetail_word : RF := ⟨0, 64⟩
/-- DOB_SNAP_TIME (R1013): address. -/
def dobSnapTime (d : Nat) : Nat := dieBlk d 0x1A00000 + 0x50
/-- Field time of DOB_SNAP_TIME. -/
def dobSnapTime_time : RF := ⟨0, 64⟩
/-- DOB_WARDEN_PC (R1013): address. -/
def dobWardenPc (d : Nat) (i : Nat) : Nat := dieBlk d 0x1A00000 + 0x100 + i * 0x8
/-- Field pc of DOB_WARDEN_PC. -/
def dobWardenPc_pc : RF := ⟨0, 48⟩
/-- Field state of DOB_WARDEN_PC. -/
def dobWardenPc_state : RF := ⟨48, 3⟩
/-- DOB_LOG_LAST (R1013): address. -/
def dobLogLast (d : Nat) (i : Nat) : Nat := dieBlk d 0x1A00000 + 0x200 + i * 0x8
/-- Field word of DOB_LOG_LAST. -/
def dobLogLast_word : RF := ⟨0, 64⟩
/-- DOB_SNAP0 (R1012): address. -/
def dobSnap0 (d : Nat) (i : Nat) : Nat := dieBlk d 0x1A00000 + 0x1000 + i * 0x20
/-- Field tally of DOB_SNAP0. -/
def dobSnap0_tally : RF := ⟨0, 14⟩
/-- Field waiting of DOB_SNAP0. -/
def dobSnap0_waiting : RF := ⟨14, 1⟩
/-- Field gated of DOB_SNAP0. -/
def dobSnap0_gated : RF := ⟨15, 1⟩
/-- Field code of DOB_SNAP0. -/
def dobSnap0_code : RF := ⟨16, 4⟩
/-- Field value of DOB_SNAP0. -/
def dobSnap0_value : RF := ⟨32, 32⟩
/-- DOB_SNAP1 (R1012): address. -/
def dobSnap1 (d : Nat) (i : Nat) : Nat := dieBlk d 0x1A00000 + 0x1008 + i * 0x20
/-- Field target of DOB_SNAP1. -/
def dobSnap1_target : RF := ⟨0, 32⟩
/-- Field armed of DOB_SNAP1. -/
def dobSnap1_armed : RF := ⟨32, 1⟩
/-- Field auto_dec of DOB_SNAP1. -/
def dobSnap1_auto_dec : RF := ⟨33, 1⟩
/-- DOB_SNAP2 (R1012): address. -/
def dobSnap2 (d : Nat) (i : Nat) : Nat := dieBlk d 0x1A00000 + 0x1010 + i * 0x20
/-- Field desc of DOB_SNAP2. -/
def dobSnap2_desc : RF := ⟨0, 48⟩
/-- Field mark of DOB_SNAP2. -/
def dobSnap2_mark : RF := ⟨48, 16⟩
/-- DOB_SNAP3 (R1012): address. -/
def dobSnap3 (d : Nat) (i : Nat) : Nat := dieBlk d 0x1A00000 + 0x1018 + i * 0x20
/-- Field issue of DOB_SNAP3. -/
def dobSnap3_issue : RF := ⟨0, 32⟩
/-- DOB_CNT64 (R988): address. -/
def dobCnt64 (d : Nat) (i : Nat) : Nat := dieBlk d 0x1A00000 + 0x10000 + i * 0x8
/-- Field value of DOB_CNT64. -/
def dobCnt64_value : RF := ⟨0, 64⟩
/-- DOB_CNT32 (R988): address. -/
def dobCnt32 (d : Nat) (i : Nat) : Nat := dieBlk d 0x1A00000 + 0x20000 + i * 0x8
/-- Field value of DOB_CNT32. -/
def dobCnt32_value : RF := ⟨0, 32⟩
/-- Field sat of DOB_CNT32. -/
def dobCnt32_sat : RF := ⟨32, 1⟩
/-- PWR_CTL (R932): address. -/
def pwrCtl : Nat := modBlk 0x0 + 0x0
/-- Field cap_w of PWR_CTL. -/
def pwrCtl_cap_w : RF := ⟨0, 12⟩
/-- Field peak_w of PWR_CTL. -/
def pwrCtl_peak_w : RF := ⟨16, 12⟩
/-- Field temp_c of PWR_CTL. -/
def pwrCtl_temp_c : RF := ⟨32, 7⟩
/-- PWR_STATUS (R932): address. -/
def pwrStatus : Nat := modBlk 0x0 + 0x8
/-- Field surge of PWR_STATUS. -/
def pwrStatus_surge : RF := ⟨0, 1⟩
/-- Field sag of PWR_STATUS. -/
def pwrStatus_sag : RF := ⟨1, 1⟩
/-- Field floor of PWR_STATUS. -/
def pwrStatus_floor : RF := ⟨2, 1⟩
/-- Field alert of PWR_STATUS. -/
def pwrStatus_alert : RF := ⟨3, 1⟩
/-- Field shell_hold of PWR_STATUS. -/
def pwrStatus_shell_hold : RF := ⟨4, 1⟩
/-- Field rail_fault_valid of PWR_STATUS. -/
def pwrStatus_rail_fault_valid : RF := ⟨5, 1⟩
/-- Field rail_fault of PWR_STATUS. -/
def pwrStatus_rail_fault : RF := ⟨6, 5⟩
/-- PWR_EVENTS (R932): address. -/
def pwrEvents : Nat := modBlk 0x0 + 0x10
/-- Field feed_lost of PWR_EVENTS. -/
def pwrEvents_feed_lost : RF := ⟨0, 1⟩
/-- Field feed_reverse of PWR_EVENTS. -/
def pwrEvents_feed_reverse : RF := ⟨1, 1⟩
/-- Field feed_fault of PWR_EVENTS. -/
def pwrEvents_feed_fault : RF := ⟨2, 1⟩
/-- Field brownout of PWR_EVENTS. -/
def pwrEvents_brownout : RF := ⟨3, 1⟩
/-- Field rail_fault of PWR_EVENTS. -/
def pwrEvents_rail_fault : RF := ⟨4, 1⟩
/-- Field sense_open of PWR_EVENTS. -/
def pwrEvents_sense_open : RF := ⟨5, 1⟩
/-- Field shell of PWR_EVENTS. -/
def pwrEvents_shell : RF := ⟨6, 1⟩
/-- Field limit_floor of PWR_EVENTS. -/
def pwrEvents_limit_floor : RF := ⟨7, 1⟩
/-- Field overtemp of PWR_EVENTS. -/
def pwrEvents_overtemp : RF := ⟨8, 1⟩
/-- Field shutdown of PWR_EVENTS. -/
def pwrEvents_shutdown : RF := ⟨9, 1⟩
/-- Field tile_busy of PWR_EVENTS. -/
def pwrEvents_tile_busy : RF := ⟨10, 1⟩
/-- PWR_FEED (R932): address. -/
def pwrFeed (i : Nat) : Nat := modBlk 0x0 + 0x18 + i * 0x8
/-- Field mv of PWR_FEED. -/
def pwrFeed_mv : RF := ⟨0, 16⟩
/-- Field ca of PWR_FEED. -/
def pwrFeed_ca : RF := ⟨16, 16⟩
/-- Field lost of PWR_FEED. -/
def pwrFeed_lost : RF := ⟨32, 1⟩
/-- Field reverse of PWR_FEED. -/
def pwrFeed_reverse : RF := ⟨33, 1⟩
/-- Field fault of PWR_FEED. -/
def pwrFeed_fault : RF := ⟨34, 1⟩
/-- Field carrying of PWR_FEED. -/
def pwrFeed_carrying : RF := ⟨35, 1⟩
/-- PWR_INPUT (R932): address. -/
def pwrInput : Nat := modBlk 0x0 + 0x28
/-- Field w_10us of PWR_INPUT. -/
def pwrInput_w_10us : RF := ⟨0, 16⟩
/-- Field w_1ms of PWR_INPUT. -/
def pwrInput_w_1ms : RF := ⟨16, 16⟩
/-- Field w_100ms of PWR_INPUT. -/
def pwrInput_w_100ms : RF := ⟨32, 16⟩
/-- PWR_ENERGY (R932): address. -/
def pwrEnergy : Nat := modBlk 0x0 + 0x30
/-- Field mj of PWR_ENERGY. -/
def pwrEnergy_mj : RF := ⟨0, 64⟩
/-- PWR_STRETCH (R932): address. -/
def pwrStretch : Nat := modBlk 0x0 + 0x38
/-- Field k_m of PWR_STRETCH. -/
def pwrStretch_k_m : RF := ⟨0, 5⟩
/-- Field k_a of PWR_STRETCH. -/
def pwrStretch_k_a : RF := ⟨5, 5⟩
/-- Field k_b of PWR_STRETCH. -/
def pwrStretch_k_b : RF := ⟨10, 5⟩
/-- Field cause of PWR_STRETCH. -/
def pwrStretch_cause : RF := ⟨16, 4⟩
/-- PWR_TILE_ON (R932): address. -/
def pwrTileOn (i : Nat) : Nat := modBlk 0x0 + 0x40 + i * 0x8
/-- Field on of PWR_TILE_ON. -/
def pwrTileOn_on : RF := ⟨0, 64⟩
/-- PWR_SENSE (R932): address. -/
def pwrSense : Nat := modBlk 0x0 + 0x50
/-- Field open of PWR_SENSE. -/
def pwrSense_open : RF := ⟨0, 17⟩
/-- PWR_RAIL (R932): address. -/
def pwrRail (i : Nat) : Nat := modBlk 0x0 + 0x1000 + i * 0x8
/-- Field mv of PWR_RAIL. -/
def pwrRail_mv : RF := ⟨0, 16⟩
/-- Field set_mv of PWR_RAIL. -/
def pwrRail_set_mv : RF := ⟨16, 16⟩
/-- Field ma of PWR_RAIL. -/
def pwrRail_ma : RF := ⟨32, 20⟩
/-- PWR_CNT64 (R988): address. -/
def pwrCnt64 : Nat := modBlk 0x0 + 0x2000
/-- Field value of PWR_CNT64. -/
def pwrCnt64_value : RF := ⟨0, 64⟩
/-- PWR_CNT32 (R988): address. -/
def pwrCnt32 (i : Nat) : Nat := modBlk 0x0 + 0x2008 + i * 0x8
/-- Field value of PWR_CNT32. -/
def pwrCnt32_value : RF := ⟨0, 32⟩
/-- Field sat of PWR_CNT32. -/
def pwrCnt32_sat : RF := ⟨32, 1⟩
/-- ETH_PORT_CFG (R857): address. -/
def ethPortCfg (i : Nat) : Nat := modBlk 0x100000 + 0x0 + 0x1000 * i
/-- Field enable of ETH_PORT_CFG. -/
def ethPortCfg_enable : RF := ⟨0, 1⟩
/-- Field vlan of ETH_PORT_CFG. -/
def ethPortCfg_vlan : RF := ⟨1, 12⟩
/-- Field prio of ETH_PORT_CFG. -/
def ethPortCfg_prio : RF := ⟨13, 3⟩
/-- Field pfc_prio of ETH_PORT_CFG. -/
def ethPortCfg_pfc_prio : RF := ⟨16, 3⟩
/-- Field ack_us of ETH_PORT_CFG. -/
def ethPortCfg_ack_us : RF := ⟨19, 16⟩
/-- ETH_PORT_STATUS (R857): address. -/
def ethPortStatus (i : Nat) : Nat := modBlk 0x100000 + 0x8 + 0x1000 * i
/-- Field up of ETH_PORT_STATUS. -/
def ethPortStatus_up : RF := ⟨0, 1⟩
/-- Field optical of ETH_PORT_STATUS. -/
def ethPortStatus_optical : RF := ⟨1, 1⟩
/-- Field qps of ETH_PORT_STATUS. -/
def ethPortStatus_qps : RF := ⟨2, 7⟩
/-- ETH_PORT_EVENTS (R857): address. -/
def ethPortEvents (i : Nat) : Nat := modBlk 0x100000 + 0x10 + 0x1000 * i
/-- Field down of ETH_PORT_EVENTS. -/
def ethPortEvents_down : RF := ⟨0, 1⟩
/-- Field qp_err of ETH_PORT_EVENTS. -/
def ethPortEvents_qp_err : RF := ⟨1, 1⟩
/-- ETH_SQ_BELL (R857): address. -/
def ethSqBell (i : Nat) : Nat := modBlk 0x100000 + 0x18 + 0x1000 * i
/-- Field qp of ETH_SQ_BELL. -/
def ethSqBell_qp : RF := ⟨0, 6⟩
/-- Field tail of ETH_SQ_BELL. -/
def ethSqBell_tail : RF := ⟨32, 16⟩
/-- ETH_RING (R857): address. -/
def ethRing (i j : Nat) : Nat := modBlk 0x100000 + 0x100 + 0x1000 * i + j * 0x10
/-- Field base of ETH_RING. -/
def ethRing_base : RF := ⟨0, 48⟩
/-- ETH_RING_CFG (R857): address. -/
def ethRingCfg (i j : Nat) : Nat := modBlk 0x100000 + 0x108 + 0x1000 * i + j * 0x10
/-- Field buf_bytes of ETH_RING_CFG. -/
def ethRingCfg_buf_bytes : RF := ⟨0, 16⟩
/-- Field nbuf of ETH_RING_CFG. -/
def ethRingCfg_nbuf : RF := ⟨16, 16⟩
/-- Field head of ETH_RING_CFG. -/
def ethRingCfg_head : RF := ⟨32, 16⟩
/-- ETH_SQ (R857): address. -/
def ethSq (i j : Nat) : Nat := modBlk 0x100000 + 0x800 + 0x1000 * i + j * 0x10
/-- Field base of ETH_SQ. -/
def ethSq_base : RF := ⟨0, 48⟩
/-- ETH_SQ_CFG (R857): address. -/
def ethSqCfg (i j : Nat) : Nat := modBlk 0x100000 + 0x808 + 0x1000 * i + j * 0x10
/-- Field entries of ETH_SQ_CFG. -/
def ethSqCfg_entries : RF := ⟨0, 16⟩
/-- Field head of ETH_SQ_CFG. -/
def ethSqCfg_head : RF := ⟨16, 16⟩
/-- Field tail of ETH_SQ_CFG. -/
def ethSqCfg_tail : RF := ⟨32, 16⟩
/-- ETH_PITCH_STAT (R857): address. -/
def ethPitchStat : Nat := modBlk 0x100000 + 0x8000
/-- Field pstate of ETH_PITCH_STAT. -/
def ethPitchStat_pstate : RF := ⟨0, 3⟩
/-- Field pitch of ETH_PITCH_STAT. -/
def ethPitchStat_pitch : RF := ⟨3, 32⟩
/-- ETH_PITCH_CFG (R857): address. -/
def ethPitchCfg : Nat := modBlk 0x100000 + 0x8008
/-- Field window_ms of ETH_PITCH_CFG. -/
def ethPitchCfg_window_ms : RF := ⟨0, 16⟩
/-- Field sleep of ETH_PITCH_CFG. -/
def ethPitchCfg_sleep : RF := ⟨16, 1⟩
/-- ETH_PITCH_SEQ (R857): address. -/
def ethPitchSeq : Nat := modBlk 0x100000 + 0x8010
/-- Field last of ETH_PITCH_SEQ. -/
def ethPitchSeq_last : RF := ⟨0, 64⟩
/-- ETH_EVENTS (R857): address. -/
def ethEvents : Nat := modBlk 0x100000 + 0x8018
/-- Field pitch of ETH_EVENTS. -/
def ethEvents_pitch : RF := ⟨0, 1⟩
/-- ETH_TOLL_CFG (R857): address. -/
def ethTollCfg : Nat := modBlk 0x100000 + 0x8020
/-- Field ckpt_s of ETH_TOLL_CFG. -/
def ethTollCfg_ckpt_s : RF := ⟨0, 16⟩
/-- ETH_TOLL_OPEN (R857): address. -/
def ethTollOpen : Nat := modBlk 0x100000 + 0x8100
/-- Field ns of ETH_TOLL_OPEN. -/
def ethTollOpen_ns : RF := ⟨0, 64⟩
/-- ETH_TOLL_READY (R857): address. -/
def ethTollReady : Nat := modBlk 0x100000 + 0x8108
/-- Field ns of ETH_TOLL_READY. -/
def ethTollReady_ns : RF := ⟨0, 64⟩
/-- ETH_TOLL_RUNNING (R857): address. -/
def ethTollRunning : Nat := modBlk 0x100000 + 0x8110
/-- Field ns of ETH_TOLL_RUNNING. -/
def ethTollRunning_ns : RF := ⟨0, 64⟩
/-- ETH_TOLL_RECOVERY (R857): address. -/
def ethTollRecovery : Nat := modBlk 0x100000 + 0x8118
/-- Field ns of ETH_TOLL_RECOVERY. -/
def ethTollRecovery_ns : RF := ⟨0, 64⟩
/-- ETH_TOLL_DRAINING (R857): address. -/
def ethTollDraining : Nat := modBlk 0x100000 + 0x8120
/-- Field ns of ETH_TOLL_DRAINING. -/
def ethTollDraining_ns : RF := ⟨0, 64⟩
/-- ETH_TOLL_WARM (R857): address. -/
def ethTollWarm : Nat := modBlk 0x100000 + 0x8128
/-- Field ns of ETH_TOLL_WARM. -/
def ethTollWarm_ns : RF := ⟨0, 64⟩
/-- ETH_TOLL_ENERGY (R857): address. -/
def ethTollEnergy : Nat := modBlk 0x100000 + 0x8130
/-- Field mj of ETH_TOLL_ENERGY. -/
def ethTollEnergy_mj : RF := ⟨0, 64⟩
/-- ETH_MR (R857): address. -/
def ethMr (i : Nat) : Nat := modBlk 0x100000 + 0x9000 + i * 0x18
/-- Field base of ETH_MR. -/
def ethMr_base : RF := ⟨0, 48⟩
/-- Field valid of ETH_MR. -/
def ethMr_valid : RF := ⟨48, 1⟩
/-- Field rd of ETH_MR. -/
def ethMr_rd : RF := ⟨49, 1⟩
/-- Field wr of ETH_MR. -/
def ethMr_wr : RF := ⟨50, 1⟩
/-- ETH_MR_LEN (R857): address. -/
def ethMrLen (i : Nat) : Nat := modBlk 0x100000 + 0x9008 + i * 0x18
/-- Field length of ETH_MR_LEN. -/
def ethMrLen_length : RF := ⟨0, 48⟩
/-- ETH_MR_KEY (R857): address. -/
def ethMrKey (i : Nat) : Nat := modBlk 0x100000 + 0x9010 + i * 0x18
/-- Field key of ETH_MR_KEY. -/
def ethMrKey_key : RF := ⟨0, 32⟩
/-- ETH_CNT_BYTES (R988): address. -/
def ethCntBytes (i j : Nat) : Nat := modBlk 0x100000 + 0xA000 + i * 0x10 + j * 0x8
/-- Field value of ETH_CNT_BYTES. -/
def ethCntBytes_value : RF := ⟨0, 64⟩
/-- ETH_CNT32 (R988): address. -/
def ethCnt32 (i : Nat) : Nat := modBlk 0x100000 + 0xA100 + i * 0x8
/-- Field value of ETH_CNT32. -/
def ethCnt32_value : RF := ⟨0, 32⟩
/-- Field sat of ETH_CNT32. -/
def ethCnt32_sat : RF := ⟨32, 1⟩
/-- SEC_STATUS (R1050): address. -/
def secStatus : Nat := modBlk 0x200000 + 0x0
/-- Field slot of SEC_STATUS. -/
def secStatus_slot : RF := ⟨0, 1⟩
/-- Field trial of SEC_STATUS. -/
def secStatus_trial : RF := ⟨1, 1⟩
/-- Field staged of SEC_STATUS. -/
def secStatus_staged : RF := ⟨2, 1⟩
/-- Field busy of SEC_STATUS. -/
def secStatus_busy : RF := ⟨3, 1⟩
/-- Field dbg_open of SEC_STATUS. -/
def secStatus_dbg_open : RF := ⟨4, 1⟩
/-- Field dbg_fails of SEC_STATUS. -/
def secStatus_dbg_fails : RF := ⟨5, 2⟩
/-- Field fused_epoch of SEC_STATUS. -/
def secStatus_fused_epoch : RF := ⟨7, 7⟩
/-- Field cause_a of SEC_STATUS. -/
def secStatus_cause_a : RF := ⟨14, 4⟩
/-- Field cause_b of SEC_STATUS. -/
def secStatus_cause_b : RF := ⟨18, 4⟩
/-- Field stage_cause of SEC_STATUS. -/
def secStatus_stage_cause : RF := ⟨22, 4⟩
/-- Field result of SEC_STATUS. -/
def secStatus_result : RF := ⟨26, 2⟩
/-- Field pw_set of SEC_STATUS. -/
def secStatus_pw_set : RF := ⟨28, 1⟩
/-- SEC_EVENTS (R1050): address. -/
def secEvents : Nat := modBlk 0x200000 + 0x8
/-- Field fallback of SEC_EVENTS. -/
def secEvents_fallback : RF := ⟨0, 1⟩
/-- Field trial_rejected of SEC_EVENTS. -/
def secEvents_trial_rejected : RF := ⟨1, 1⟩
/-- Field commit of SEC_EVENTS. -/
def secEvents_commit : RF := ⟨2, 1⟩
/-- Field floor_lost of SEC_EVENTS. -/
def secEvents_floor_lost : RF := ⟨3, 1⟩
/-- Field stage_refused of SEC_EVENTS. -/
def secEvents_stage_refused : RF := ⟨4, 1⟩
/-- Field recovery of SEC_EVENTS. -/
def secEvents_recovery : RF := ⟨5, 1⟩
/-- Field key_low of SEC_EVENTS. -/
def secEvents_key_low : RF := ⟨6, 1⟩
/-- Field key_spent of SEC_EVENTS. -/
def secEvents_key_spent : RF := ⟨7, 1⟩
/-- Field dbg_open of SEC_EVENTS. -/
def secEvents_dbg_open : RF := ⟨8, 1⟩
/-- Field dbg_fail of SEC_EVENTS. -/
def secEvents_dbg_fail : RF := ⟨9, 1⟩
/-- Field dbg_lockout of SEC_EVENTS. -/
def secEvents_dbg_lockout : RF := ⟨10, 1⟩
/-- SEC_VERSION (R1050): address. -/
def secVersion : Nat := modBlk 0x200000 + 0x10
/-- Field running of SEC_VERSION. -/
def secVersion_running : RF := ⟨0, 32⟩
/-- Field floor of SEC_VERSION. -/
def secVersion_floor : RF := ⟨32, 32⟩
/-- SEC_KEY (R1050): address. -/
def secKey : Nat := modBlk 0x200000 + 0x18
/-- Field next_index of SEC_KEY. -/
def secKey_next_index : RF := ⟨0, 21⟩
/-- Field blocks_left of SEC_KEY. -/
def secKey_blocks_left : RF := ⟨21, 13⟩
/-- Field cache_ok of SEC_KEY. -/
def secKey_cache_ok : RF := ⟨34, 1⟩
/-- SEC_SERIAL (R1050): address. -/
def secSerial (i : Nat) : Nat := modBlk 0x200000 + 0x20 + i * 0x8
/-- Field serial of SEC_SERIAL. -/
def secSerial_serial : RF := ⟨0, 64⟩
/-- SEC_ID_PUB (R1050): address. -/
def secIdPub (i : Nat) : Nat := modBlk 0x200000 + 0x40 + i * 0x8
/-- Field bytes of SEC_ID_PUB. -/
def secIdPub_bytes : RF := ⟨0, 64⟩
/-- SEC_RAND (R1050): address. -/
def secRand : Nat := modBlk 0x200000 + 0x90
/-- Field random of SEC_RAND. -/
def secRand_random : RF := ⟨0, 64⟩
/-- SEC_STAGE_CMD (R1050): address. -/
def secStageCmd : Nat := modBlk 0x200000 + 0xA0
/-- Field op of SEC_STAGE_CMD. -/
def secStageCmd_op : RF := ⟨0, 3⟩
/-- Field block_no of SEC_STAGE_CMD. -/
def secStageCmd_block_no : RF := ⟨16, 12⟩
/-- SEC_DIST_CFG (R1050): address. -/
def secDistCfg : Nat := modBlk 0x200000 + 0xA8
/-- Field auto_activate of SEC_DIST_CFG. -/
def secDistCfg_auto_activate : RF := ⟨0, 1⟩
/-- SEC_DBG_CTL (R1050): address. -/
def secDbgCtl : Nat := modBlk 0x200000 + 0xB0
/-- Field new_chal of SEC_DBG_CTL. -/
def secDbgCtl_new_chal : RF := ⟨0, 1⟩
/-- Field check of SEC_DBG_CTL. -/
def secDbgCtl_check : RF := ⟨1, 1⟩
/-- Field method of SEC_DBG_CTL. -/
def secDbgCtl_method : RF := ⟨2, 1⟩
/-- Field pw_write of SEC_DBG_CTL. -/
def secDbgCtl_pw_write : RF := ⟨3, 1⟩
/-- SEC_DBG_CHAL (R1050): address. -/
def secDbgChal (i : Nat) : Nat := modBlk 0x200000 + 0xC0 + i * 0x8
/-- Field bytes of SEC_DBG_CHAL. -/
def secDbgChal_bytes : RF := ⟨0, 64⟩
/-- SEC_DBG_RESP (R1050): address. -/
def secDbgResp (i : Nat) : Nat := modBlk 0x200000 + 0x1000 + i * 0x8
/-- Field bytes of SEC_DBG_RESP. -/
def secDbgResp_bytes : RF := ⟨0, 64⟩
/-- SEC_STAGE_DATA (R1050): address. -/
def secStageData (i : Nat) : Nat := modBlk 0x200000 + 0x2000 + i * 0x8
/-- Field bytes of SEC_STAGE_DATA. -/
def secStageData_bytes : RF := ⟨0, 64⟩
/-- MGT_CTL (R885): address. -/
def mgtCtl : Nat := modBlk 0x300000 + 0x0
/-- Field cold_restart of MGT_CTL. -/
def mgtCtl_cold_restart : RF := ⟨0, 1⟩
/-- Field warm_restart of MGT_CTL. -/
def mgtCtl_warm_restart : RF := ⟨1, 1⟩
/-- Field key of MGT_CTL. -/
def mgtCtl_key : RF := ⟨8, 8⟩
/-- MGT_STATUS (R885): address. -/
def mgtStatus : Nat := modBlk 0x300000 + 0x8
/-- Field phase of MGT_STATUS. -/
def mgtStatus_phase : RF := ⟨0, 4⟩
/-- Field alert of MGT_STATUS. -/
def mgtStatus_alert : RF := ⟨4, 1⟩
/-- Field warm of MGT_STATUS. -/
def mgtStatus_warm : RF := ⟨5, 1⟩
/-- MGT_EVENTS (R885): address. -/
def mgtEvents : Nat := modBlk 0x300000 + 0x10
/-- Field copy_bad of MGT_EVENTS. -/
def mgtEvents_copy_bad : RF := ⟨0, 1⟩
/-- Field none of MGT_EVENTS. -/
def mgtEvents_none : RF := ⟨1, 1⟩
/-- Field settings_old of MGT_EVENTS. -/
def mgtEvents_settings_old : RF := ⟨2, 1⟩
/-- Field settings_newer of MGT_EVENTS. -/
def mgtEvents_settings_newer : RF := ⟨3, 1⟩
/-- Field settings_default of MGT_EVENTS. -/
def mgtEvents_settings_default : RF := ⟨4, 1⟩
/-- Field setting_range of MGT_EVENTS. -/
def mgtEvents_setting_range : RF := ⟨5, 1⟩
/-- Field flash_busy of MGT_EVENTS. -/
def mgtEvents_flash_busy : RF := ⟨6, 1⟩
/-- Field restart_key of MGT_EVENTS. -/
def mgtEvents_restart_key : RF := ⟨7, 1⟩
/-- MGT_FURN_STAT (R885): address. -/
def mgtFurnStat : Nat := modBlk 0x300000 + 0x18
/-- Field ident_src of MGT_FURN_STAT. -/
def mgtFurnStat_ident_src : RF := ⟨0, 2⟩
/-- Field settings_src of MGT_FURN_STAT. -/
def mgtFurnStat_settings_src : RF := ⟨2, 2⟩
/-- Field cause_a of MGT_FURN_STAT. -/
def mgtFurnStat_cause_a : RF := ⟨4, 4⟩
/-- Field cause_b of MGT_FURN_STAT. -/
def mgtFurnStat_cause_b : RF := ⟨8, 4⟩
/-- Field settings_version of MGT_FURN_STAT. -/
def mgtFurnStat_settings_version : RF := ⟨16, 8⟩
/-- Field settings_expect of MGT_FURN_STAT. -/
def mgtFurnStat_settings_expect : RF := ⟨24, 8⟩
/-- Field sequence of MGT_FURN_STAT. -/
def mgtFurnStat_sequence : RF := ⟨32, 32⟩
/-- MGT_FURN_RANGE (R885): address. -/
def mgtFurnRange : Nat := modBlk 0x300000 + 0x20
/-- Field defaulted of MGT_FURN_RANGE. -/
def mgtFurnRange_defaulted : RF := ⟨0, 32⟩
/-- MGT_FLASH_CMD (R885): address. -/
def mgtFlashCmd : Nat := modBlk 0x300000 + 0x28
/-- Field op of MGT_FLASH_CMD. -/
def mgtFlashCmd_op : RF := ⟨0, 2⟩
/-- Field device of MGT_FLASH_CMD. -/
def mgtFlashCmd_device : RF := ⟨2, 1⟩
/-- Field busy of MGT_FLASH_CMD. -/
def mgtFlashCmd_busy : RF := ⟨3, 1⟩
/-- Field error of MGT_FLASH_CMD. -/
def mgtFlashCmd_error : RF := ⟨4, 1⟩
/-- Field offset of MGT_FLASH_CMD. -/
def mgtFlashCmd_offset : RF := ⟨8, 20⟩
/-- MGT_FLASH_DATA (R885): address. -/
def mgtFlashData (i : Nat) : Nat := modBlk 0x300000 + 0x100 + i * 0x8
/-- Field bytes of MGT_FLASH_DATA. -/
def mgtFlashData_bytes : RF := ⟨0, 64⟩
/-- MGT_SENS_CFG (R1083): address. -/
def mgtSensCfg : Nat := modBlk 0x300000 + 0x8000
/-- Field flow_min of MGT_SENS_CFG. -/
def mgtSensCfg_flow_min : RF := ⟨0, 10⟩
/-- Field inlet_max of MGT_SENS_CFG. -/
def mgtSensCfg_inlet_max : RF := ⟨16, 8⟩
/-- Field outlet_max of MGT_SENS_CFG. -/
def mgtSensCfg_outlet_max : RF := ⟨24, 8⟩
/-- MGT_SENS_STATUS (R1083): address. -/
def mgtSensStatus : Nat := modBlk 0x300000 + 0x8008
/-- Field inlet_open of MGT_SENS_STATUS. -/
def mgtSensStatus_inlet_open : RF := ⟨0, 1⟩
/-- Field inlet_short of MGT_SENS_STATUS. -/
def mgtSensStatus_inlet_short : RF := ⟨1, 1⟩
/-- Field outlet_open of MGT_SENS_STATUS. -/
def mgtSensStatus_outlet_open : RF := ⟨2, 1⟩
/-- Field outlet_short of MGT_SENS_STATUS. -/
def mgtSensStatus_outlet_short : RF := ⟨3, 1⟩
/-- Field flow_open of MGT_SENS_STATUS. -/
def mgtSensStatus_flow_open : RF := ⟨4, 1⟩
/-- Field flow_short of MGT_SENS_STATUS. -/
def mgtSensStatus_flow_short : RF := ⟨5, 1⟩
/-- Field flow_low of MGT_SENS_STATUS. -/
def mgtSensStatus_flow_low : RF := ⟨6, 1⟩
/-- Field inlet_high of MGT_SENS_STATUS. -/
def mgtSensStatus_inlet_high : RF := ⟨7, 1⟩
/-- Field outlet_high of MGT_SENS_STATUS. -/
def mgtSensStatus_outlet_high : RF := ⟨8, 1⟩
/-- Field die_a_blind of MGT_SENS_STATUS. -/
def mgtSensStatus_die_a_blind : RF := ⟨9, 1⟩
/-- Field die_b_blind of MGT_SENS_STATUS. -/
def mgtSensStatus_die_b_blind : RF := ⟨10, 1⟩
/-- MGT_SENS_EVENTS (R1083): address. -/
def mgtSensEvents : Nat := modBlk 0x300000 + 0x8010
/-- Field fault of MGT_SENS_EVENTS. -/
def mgtSensEvents_fault : RF := ⟨0, 1⟩
/-- Field flow_low of MGT_SENS_EVENTS. -/
def mgtSensEvents_flow_low : RF := ⟨1, 1⟩
/-- Field coolant_hot of MGT_SENS_EVENTS. -/
def mgtSensEvents_coolant_hot : RF := ⟨2, 1⟩
/-- Field conn_power of MGT_SENS_EVENTS. -/
def mgtSensEvents_conn_power : RF := ⟨3, 1⟩
/-- MGT_SENS_COOL (R1083): address. -/
def mgtSensCool : Nat := modBlk 0x300000 + 0x8018
/-- Field inlet of MGT_SENS_COOL. -/
def mgtSensCool_inlet : RF := ⟨0, 16⟩
/-- Field outlet of MGT_SENS_COOL. -/
def mgtSensCool_outlet : RF := ⟨16, 16⟩
/-- Field flow of MGT_SENS_COOL. -/
def mgtSensCool_flow : RF := ⟨32, 10⟩
/-- Field inlet_valid of MGT_SENS_COOL. -/
def mgtSensCool_inlet_valid : RF := ⟨42, 1⟩
/-- Field outlet_valid of MGT_SENS_COOL. -/
def mgtSensCool_outlet_valid : RF := ⟨43, 1⟩
/-- Field flow_valid of MGT_SENS_COOL. -/
def mgtSensCool_flow_valid : RF := ⟨44, 1⟩
/-- MGT_SENS_DIE (R1083): address. -/
def mgtSensDie (i : Nat) : Nat := modBlk 0x300000 + 0x8020 + i * 0x8
/-- Field hottest of MGT_SENS_DIE. -/
def mgtSensDie_hottest : RF := ⟨0, 16⟩
/-- Field sensor of MGT_SENS_DIE. -/
def mgtSensDie_sensor : RF := ⟨16, 4⟩
/-- Field valid of MGT_SENS_DIE. -/
def mgtSensDie_valid : RF := ⟨20, 16⟩
/-- MGT_SENS_HBM (R1083): address. -/
def mgtSensHbm (i : Nat) : Nat := modBlk 0x300000 + 0x8030 + i * 0x8
/-- Field temp of MGT_SENS_HBM. -/
def mgtSensHbm_temp (k : Nat) : RF := ⟨0 + k * 8, 8⟩
/-- MGT_SENS_BOARD (R1083): address. -/
def mgtSensBoard : Nat := modBlk 0x300000 + 0x8040
/-- Field temp of MGT_SENS_BOARD. -/
def mgtSensBoard_temp (k : Nat) : RF := ⟨0 + k * 16, 16⟩
/-- MGT_CONN (R1083): address. -/
def mgtConn : Nat := modBlk 0x300000 + 0x8048
/-- Field cbl_present of MGT_CONN. -/
def mgtConn_cbl_present : RF := ⟨0, 16⟩
/-- Field cbl_off of MGT_CONN. -/
def mgtConn_cbl_off : RF := ⟨16, 16⟩
/-- Field cage_present of MGT_CONN. -/
def mgtConn_cage_present : RF := ⟨32, 8⟩
/-- Field cage_off of MGT_CONN. -/
def mgtConn_cage_off : RF := ⟨40, 8⟩
/-- MGT_IDENT (R1083): address. -/
def mgtIdent : Nat := modBlk 0x300000 + 0x8050
/-- Field stepping of MGT_IDENT. -/
def mgtIdent_stepping : RF := ⟨0, 8⟩
/-- Field board_rev of MGT_IDENT. -/
def mgtIdent_board_rev : RF := ⟨8, 8⟩
/-- MCK_REF_CFG (R980): address. -/
def mckRefCfg : Nat := modBlk 0x400000 + 0x0
/-- Field ref_port of MCK_REF_CFG. -/
def mckRefCfg_ref_port : RF := ⟨0, 4⟩
/-- Field force_local of MCK_REF_CFG. -/
def mckRefCfg_force_local : RF := ⟨4, 1⟩
/-- Field root of MCK_REF_CFG. -/
def mckRefCfg_root : RF := ⟨5, 1⟩
/-- Field ref_ppm of MCK_REF_CFG. -/
def mckRefCfg_ref_ppm : RF := ⟨8, 8⟩
/-- MCK_STATUS (R980): address. -/
def mckStatus : Nat := modBlk 0x400000 + 0x8
/-- Field ref_src of MCK_STATUS. -/
def mckStatus_ref_src : RF := ⟨0, 1⟩
/-- Field qualified of MCK_STATUS. -/
def mckStatus_qualified : RF := ⟨1, 1⟩
/-- Field osc_ok of MCK_STATUS. -/
def mckStatus_osc_ok : RF := ⟨2, 1⟩
/-- Field clkout_bad of MCK_STATUS. -/
def mckStatus_clkout_bad : RF := ⟨3, 1⟩
/-- MCK_EVENTS (R980): address. -/
def mckEvents : Nat := modBlk 0x400000 + 0x10
/-- Field ref_switch of MCK_EVENTS. -/
def mckEvents_ref_switch : RF := ⟨0, 1⟩
/-- Field osc_bad of MCK_EVENTS. -/
def mckEvents_osc_bad : RF := ⟨1, 1⟩
/-- Field no_ref of MCK_EVENTS. -/
def mckEvents_no_ref : RF := ⟨2, 1⟩
/-- MCK_REF_MEAS (R980): address. -/
def mckRefMeas : Nat := modBlk 0x400000 + 0x18
/-- Field dev of MCK_REF_MEAS. -/
def mckRefMeas_dev : RF := ⟨0, 32⟩
/-- MCK_CLKOUT (R980): address. -/
def mckClkout : Nat := modBlk 0x400000 + 0x20
/-- Field en of MCK_CLKOUT. -/
def mckClkout_en : RF := ⟨0, 1⟩
/-- Field src of MCK_CLKOUT. -/
def mckClkout_src : RF := ⟨1, 3⟩
/-- Field div_m1 of MCK_CLKOUT. -/
def mckClkout_div_m1 : RF := ⟨4, 12⟩
/-- MCK_CNT32 (R988): address. -/
def mckCnt32 (i : Nat) : Nat := modBlk 0x400000 + 0x100 + i * 0x8
/-- Field value of MCK_CNT32. -/
def mckCnt32_value : RF := ⟨0, 32⟩
/-- Field sat of MCK_CNT32. -/
def mckCnt32_sat : RF := ⟨32, 1⟩
/-- TIME_NOW (R980): address. -/
def timeNow : Nat := modBlk 0x500000 + 0x0
/-- Field ns of TIME_NOW. -/
def timeNow_ns : RF := ⟨0, 64⟩
/-- TIME_FRAC (R980): address. -/
def timeFrac : Nat := modBlk 0x500000 + 0x8
/-- Field frac of TIME_FRAC. -/
def timeFrac_frac : RF := ⟨0, 32⟩
/-- TIME_RATE (R980): address. -/
def timeRate : Nat := modBlk 0x500000 + 0x10
/-- Field rate of TIME_RATE. -/
def timeRate_rate : RF := ⟨0, 32⟩
/-- TIME_STEP (R980): address. -/
def timeStep : Nat := modBlk 0x500000 + 0x18
/-- Field value of TIME_STEP. -/
def timeStep_value : RF := ⟨0, 64⟩
/-- TIME_SLEW (R980): address. -/
def timeSlew : Nat := modBlk 0x500000 + 0x20
/-- Field amount of TIME_SLEW. -/
def timeSlew_amount : RF := ⟨0, 32⟩
/-- Field left of TIME_SLEW. -/
def timeSlew_left : RF := ⟨32, 32⟩
/-- TIME_STATUS (R980): address. -/
def timeStatus : Nat := modBlk 0x500000 + 0x28
/-- Field sync of TIME_STATUS. -/
def timeStatus_sync : RF := ⟨0, 1⟩
/-- Field sync_ever of TIME_STATUS. -/
def timeStatus_sync_ever : RF := ⟨1, 1⟩
/-- Field src of TIME_STATUS. -/
def timeStatus_src : RF := ⟨2, 1⟩
/-- TIME_CFG (R980): address. -/
def timeCfg : Nat := modBlk 0x500000 + 0x30
/-- Field time_source of TIME_CFG. -/
def timeCfg_time_source : RF := ⟨0, 1⟩
/-- Field sync_ns of TIME_CFG. -/
def timeCfg_sync_ns : RF := ⟨8, 16⟩
/-- Field holdover_s of TIME_CFG. -/
def timeCfg_holdover_s : RF := ⟨24, 8⟩
/-- Field link_ms of TIME_CFG. -/
def timeCfg_link_ms : RF := ⟨32, 8⟩
/-- Field rtt_max_ns of TIME_CFG. -/
def timeCfg_rtt_max_ns : RF := ⟨40, 16⟩
/-- TIME_LINK (R980): address. -/
def timeLink : Nat := modBlk 0x500000 + 0x38
/-- Field offset of TIME_LINK. -/
def timeLink_offset : RF := ⟨0, 32⟩
/-- Field rtt of TIME_LINK. -/
def timeLink_rtt : RF := ⟨32, 16⟩
/-- Field seq of TIME_LINK. -/
def timeLink_seq : RF := ⟨48, 16⟩
/-- TIME_EVENTS (R980): address. -/
def timeEvents : Nat := modBlk 0x500000 + 0x40
/-- Field sync of TIME_EVENTS. -/
def timeEvents_sync : RF := ⟨0, 1⟩
/-- Field unsync of TIME_EVENTS. -/
def timeEvents_unsync : RF := ⟨1, 1⟩
/-- Field step_refused of TIME_EVENTS. -/
def timeEvents_step_refused : RF := ⟨2, 1⟩

end Reg

end Sys2Proof.Machine
end

