-- ==== Sys2Proof/Machine/RegMap.lean ====
section
/-! DEFINITION. The register tables of every block: where a register lies, and the place, width, access code (R6),
reset value and legal encodings (R10) of each of its fields. -/

namespace Sys2Proof.Machine

/-- The access codes of R6. -/
inductive Acc where
  | ro | rw | w1c | wo | rws
  deriving DecidableEq, Repr

/-- Which encodings of a field are not reserved (R10). -/
inductive Legal where
  /-- Every encoding. -/
  | any
  /-- Every encoding but 0. -/
  | nonzero
  | upTo (hi : Nat)
  | range (lo hi : Nat)
  /-- Multiples of `m` from `lo` to `hi`. -/
  | mult (m lo hi : Nat)
  /-- Powers of two `2^lo` to `2^hi`. -/
  | pow2 (lo hi : Nat)
  /-- PWR_CTL.peak_w: from the cap_w beside it to 3000. -/
  | peak
  /-- TIME_RATE.rate (R967). -/
  | ratePpm
  /-- A route entry (R645): no mode 0b11, no reserved bit. -/
  | route
  deriving DecidableEq, Repr

/-- One field of a register. -/
structure FieldRow where
  lo : Nat
  w : Nat
  acc : Acc
  reset : Nat
  legal : Legal
  deriving DecidableEq, Repr

/-- One register, or an array of like registers: offset in its block, (stride, count) of each array dimension from
the outermost, and its fields. Reserved bits are in no field. -/
structure RegRow where
  off : Nat
  dims : List (Nat × Nat)
  fields : List FieldRow
  deriving DecidableEq, Repr

/-- Registers of the FWD block (R133). -/
def rowsFwd : List RegRow :=
  [
   -- FWD_CTL
   ⟨0x0, [], [⟨0, 1, .rw, 0, .any⟩]⟩,
   -- FWD_STATUS
   ⟨0x8, [], [⟨0, 1, .ro, 0, .any⟩, ⟨1, 2, .ro, 0, .any⟩, ⟨3, 1, .ro, 0, .any⟩, ⟨4, 1, .w1c, 0, .any⟩]⟩,
   -- FWD_EVENTS
   ⟨0x10, [], [⟨0, 1, .w1c, 0, .any⟩, ⟨1, 1, .w1c, 0, .any⟩, ⟨2, 1, .w1c, 0, .any⟩, ⟨3, 1, .w1c, 0, .any⟩, ⟨4, 1, .w1c, 0, .any⟩]⟩,
   -- FWD_WINDOW
   ⟨0x18, [], [⟨0, 16, .ro, 0, .any⟩, ⟨16, 16, .ro, 0, .any⟩, ⟨32, 5, .ro, 0, .any⟩]⟩,
   -- FWD_PROGRESS
   ⟨0x20, [], [⟨0, 16, .ro, 0, .any⟩, ⟨16, 16, .ro, 0, .any⟩, ⟨32, 8, .ro, 0, .any⟩, ⟨40, 1, .ro, 0, .any⟩, ⟨41, 1, .ro, 0, .any⟩]⟩]

/-- Registers of the BWD block (R187). -/
def rowsBwd : List RegRow :=
  [
   -- BWD_CTL
   ⟨0x0, [], [⟨0, 16, .rw, 0, .mult 8 0 49144⟩]⟩,
   -- BWD_STATUS
   ⟨0x8, [], [⟨0, 1, .ro, 0, .any⟩, ⟨1, 1, .w1c, 0, .any⟩, ⟨2, 2, .ro, 0, .any⟩, ⟨4, 1, .ro, 0, .any⟩]⟩,
   -- BWD_EVENTS
   ⟨0x10, [], [⟨0, 1, .w1c, 0, .any⟩, ⟨1, 1, .w1c, 0, .any⟩, ⟨2, 1, .w1c, 0, .any⟩, ⟨3, 1, .w1c, 0, .any⟩, ⟨4, 1, .w1c, 0, .any⟩]⟩,
   -- BWD_PROGRESS
   ⟨0x18, [], [⟨0, 8, .ro, 0, .any⟩, ⟨8, 8, .ro, 0, .any⟩, ⟨16, 16, .ro, 0, .any⟩, ⟨32, 1, .ro, 0, .any⟩, ⟨33, 1, .ro, 0, .any⟩, ⟨34, 1, .ro, 0, .any⟩]⟩,
   -- BWD_FIRST_BAD
   ⟨0x20, [], [⟨0, 16, .ro, 0, .any⟩, ⟨16, 16, .ro, 0, .any⟩, ⟨32, 8, .ro, 0, .any⟩, ⟨40, 6, .ro, 0, .any⟩, ⟨46, 1, .ro, 0, .any⟩, ⟨47, 1, .w1c, 0, .any⟩]⟩,
   -- BWD_FIRST_BAD_PASS
   ⟨0x28, [], [⟨0, 48, .ro, 0, .any⟩]⟩,
   -- BWD_DERIV
   ⟨0x100, [(0x40, 4), (0x8, 8)], [⟨0, 32, .rw, 0, .any⟩, ⟨32, 32, .rw, 0, .any⟩]⟩]

/-- Registers of the CNV block (R278). -/
def rowsCnv : List RegRow :=
  [
   -- CNV_STATUS
   ⟨0x0, [], [⟨0, 1, .ro, 0, .any⟩, ⟨1, 1, .w1c, 0, .any⟩, ⟨2, 3, .ro, 0, .any⟩]⟩,
   -- CNV_EVENTS
   ⟨0x8, [], [⟨0, 1, .w1c, 0, .any⟩, ⟨1, 1, .w1c, 0, .any⟩]⟩,
   -- CNV_PROGRESS
   ⟨0x10, [], [⟨0, 16, .ro, 0, .any⟩, ⟨16, 16, .ro, 0, .any⟩]⟩,
   -- CNV_ACT_BP
   ⟨0x400, [(0x100, 4), (0x8, 8)], [⟨0, 32, .rw, 0, .any⟩, ⟨32, 32, .rw, 0, .any⟩]⟩,
   -- CNV_ACT_SLOPE
   ⟨0x440, [(0x100, 4), (0x8, 8)], [⟨0, 32, .rw, 0, .any⟩, ⟨32, 32, .rw, 0, .any⟩]⟩,
   -- CNV_ACT_OFF
   ⟨0x480, [(0x100, 4), (0x8, 8)], [⟨0, 32, .rw, 0, .any⟩, ⟨32, 32, .rw, 0, .any⟩]⟩,
   -- CNV_ACT_SEG
   ⟨0x4C0, [(0x100, 4)], [⟨0, 5, .rw, 1, .range 1 16⟩]⟩]

/-- Registers of the WGH block (R278). -/
def rowsWgh : List RegRow :=
  [
   -- WGH_CTL
   ⟨0x0, [], [⟨0, 1, .wo, 0, .any⟩, ⟨1, 1, .wo, 0, .any⟩]⟩,
   -- WGH_STATUS
   ⟨0x8, [], [⟨0, 1, .ro, 0, .any⟩, ⟨1, 1, .ro, 1, .any⟩, ⟨2, 1, .w1c, 0, .any⟩]⟩,
   -- WGH_EVENTS
   ⟨0x10, [], [⟨0, 1, .w1c, 0, .any⟩, ⟨1, 1, .w1c, 0, .any⟩, ⟨2, 1, .w1c, 0, .any⟩, ⟨3, 1, .w1c, 0, .any⟩, ⟨4, 1, .w1c, 0, .any⟩, ⟨5, 1, .w1c, 0, .any⟩]⟩,
   -- WGH_STARTUP
   ⟨0x18, [], [⟨0, 48, .rw, 0, .any⟩]⟩,
   -- WGH_NORM_CFG
   ⟨0x20, [], [⟨0, 2, .rw, 0, .any⟩, ⟨8, 16, .rw, 768, .any⟩, ⟨24, 4, .rw, 4, .any⟩]⟩,
   -- WGH_HIST_CFG
   ⟨0x28, [], [⟨0, 4, .rw, 4, .any⟩, ⟨4, 4, .rw, 4, .any⟩, ⟨8, 4, .rw, 4, .any⟩, ⟨12, 4, .rw, 3, .any⟩, ⟨16, 16, .rw, 1024, .any⟩]⟩,
   -- WGH_SLOT
   ⟨0x100, [(0x8, 64)], [⟨0, 32, .rw, 0, .any⟩, ⟨32, 16, .rw, 0, .any⟩, ⟨48, 1, .rw, 0, .any⟩, ⟨49, 8, .ro, 0, .any⟩]⟩,
   -- WGH_HIST0
   ⟨0x300, [(0x18, 64)], [⟨0, 16, .rw, 0, .any⟩, ⟨16, 16, .rw, 0, .any⟩, ⟨32, 16, .rw, 0, .any⟩, ⟨48, 16, .rw, 0, .any⟩]⟩,
   -- WGH_HIST1
   ⟨0x308, [(0x18, 64)], [⟨0, 16, .rw, 0, .any⟩, ⟨16, 1, .rw, 0, .any⟩, ⟨17, 1, .rw, 0, .any⟩, ⟨18, 1, .rw, 0, .any⟩, ⟨19, 1, .rw, 0, .any⟩, ⟨20, 8, .ro, 0, .any⟩, ⟨28, 8, .ro, 0, .any⟩, ⟨36, 2, .ro, 0, .any⟩]⟩,
   -- WGH_HIST2
   ⟨0x310, [(0x18, 64)], [⟨0, 32, .ro, 0, .any⟩, ⟨32, 32, .ro, 0, .any⟩]⟩,
   -- WGH_CHAN
   ⟨0x900, [(0x8, 128)], [⟨0, 16, .ro, 0, .any⟩, ⟨16, 16, .ro, 0, .any⟩, ⟨32, 16, .ro, 0, .any⟩, ⟨48, 16, .ro, 0, .any⟩]⟩]

/-- Registers of the SEQ block (R402). -/
def rowsSeq : List RegRow :=
  [
   -- SEQ_CTL
   ⟨0x0, [], [⟨0, 1, .wo, 0, .any⟩, ⟨1, 1, .wo, 0, .any⟩, ⟨8, 8, .rw, 32, .any⟩]⟩,
   -- SEQ_STATUS
   ⟨0x8, [], [⟨0, 3, .ro, 0, .any⟩, ⟨3, 3, .ro, 0, .any⟩, ⟨6, 4, .ro, 0, .any⟩, ⟨10, 6, .ro, 0, .any⟩]⟩,
   -- SEQ_PC
   ⟨0x10, [], [⟨0, 48, .rw, 0, .any⟩]⟩,
   -- SEQ_GEN
   ⟨0x18, [], [⟨0, 32, .rw, 0, .any⟩]⟩,
   -- SEQ_PASS
   ⟨0x20, [], [⟨0, 48, .rw, 0, .any⟩]⟩,
   -- SEQ_ISSUED
   ⟨0x28, [], [⟨0, 32, .ro, 0, .any⟩]⟩,
   -- SEQ_LOOP
   ⟨0x30, [(0x8, 2)], [⟨0, 32, .rw, 0, .any⟩, ⟨32, 32, .rw, 0, .any⟩]⟩,
   -- SEQ_HALT_INFO
   ⟨0x40, [], [⟨0, 48, .ro, 0, .any⟩, ⟨48, 8, .ro, 0, .any⟩, ⟨56, 8, .ro, 0, .any⟩]⟩,
   -- SEQ_WAIT
   ⟨0x48, [], [⟨0, 14, .ro, 0, .any⟩, ⟨14, 1, .ro, 0, .any⟩, ⟨16, 16, .ro, 0, .any⟩]⟩,
   -- SEQ_EVENTS
   ⟨0x50, [], [⟨0, 1, .w1c, 0, .any⟩, ⟨1, 1, .w1c, 0, .any⟩, ⟨2, 1, .w1c, 0, .any⟩, ⟨3, 1, .w1c, 0, .any⟩, ⟨4, 1, .w1c, 0, .any⟩]⟩]

/-- Registers of the MEM block (R444). -/
def rowsMem : List RegRow :=
  [
   -- MEM_STATUS
   ⟨0x0, [], [⟨0, 24, .ro, 0, .any⟩, ⟨24, 1, .ro, 0, .any⟩, ⟨25, 1, .ro, 0, .any⟩]⟩,
   -- MEM_EVENTS
   ⟨0x8, [], [⟨0, 1, .w1c, 0, .any⟩, ⟨1, 1, .w1c, 0, .any⟩, ⟨2, 1, .w1c, 0, .any⟩, ⟨3, 1, .w1c, 0, .any⟩]⟩,
   -- MEM_BANK_PWR
   ⟨0x10, [], [⟨0, 2, .rw, 0, .upTo 2⟩, ⟨2, 2, .rw, 0, .upTo 2⟩, ⟨4, 2, .rw, 0, .upTo 2⟩, ⟨6, 2, .rw, 0, .upTo 2⟩, ⟨8, 2, .rw, 0, .upTo 2⟩, ⟨10, 2, .rw, 0, .upTo 2⟩, ⟨12, 2, .rw, 0, .upTo 2⟩, ⟨14, 2, .rw, 0, .upTo 2⟩, ⟨16, 2, .rw, 0, .upTo 2⟩, ⟨18, 2, .rw, 0, .upTo 2⟩, ⟨20, 2, .rw, 0, .upTo 2⟩, ⟨22, 2, .rw, 0, .upTo 2⟩, ⟨24, 2, .rw, 0, .upTo 2⟩, ⟨26, 2, .rw, 0, .upTo 2⟩, ⟨28, 2, .rw, 0, .upTo 2⟩, ⟨30, 2, .rw, 0, .upTo 2⟩, ⟨32, 2, .rw, 0, .upTo 2⟩, ⟨34, 2, .rw, 0, .upTo 2⟩, ⟨36, 2, .rw, 0, .upTo 2⟩, ⟨38, 2, .rw, 0, .upTo 2⟩, ⟨40, 2, .rw, 0, .upTo 2⟩, ⟨42, 2, .rw, 0, .upTo 2⟩, ⟨44, 2, .rw, 0, .upTo 2⟩, ⟨46, 2, .rw, 0, .upTo 2⟩]⟩,
   -- MEM_INVALIDATE
   ⟨0x18, [], [⟨0, 24, .wo, 0, .any⟩, ⟨24, 1, .wo, 0, .any⟩, ⟨25, 1, .wo, 0, .any⟩, ⟨26, 1, .wo, 0, .any⟩, ⟨27, 1, .wo, 0, .any⟩]⟩,
   -- MEM_LAST_REFUSED
   ⟨0x20, [], [⟨0, 48, .ro, 0, .any⟩, ⟨48, 3, .ro, 0, .any⟩, ⟨51, 8, .ro, 0, .any⟩]⟩,
   -- MEM_POOL_PWR
   ⟨0x28, [], [⟨0, 2, .rw, 0, .upTo 2⟩]⟩,
   -- MEM_BANK_OWN
   ⟨0x100, [(0x8, 25)], [⟨0, 3, .ro, 4, .any⟩, ⟨3, 8, .ro, 0, .any⟩]⟩,
   -- MEM_BANK_HAND
   ⟨0x200, [(0x8, 25)], [⟨0, 2, .rw, 0, .any⟩, ⟨2, 3, .rw, 0, .upTo 5⟩, ⟨5, 8, .rw, 0, .any⟩, ⟨13, 14, .rw, 0, .any⟩, ⟨27, 1, .ro, 0, .any⟩]⟩]

/-- Registers of the CPY block (R553). -/
def rowsCpy : List RegRow :=
  [
   -- CPY_CFG
   ⟨0x0, [], [⟨0, 4, .rw, 3, .any⟩]⟩,
   -- CPY_EVENTS
   ⟨0x8, [], [⟨0, 1, .w1c, 0, .any⟩, ⟨1, 1, .w1c, 0, .any⟩, ⟨2, 1, .w1c, 0, .any⟩, ⟨3, 1, .w1c, 0, .any⟩, ⟨4, 1, .w1c, 0, .any⟩, ⟨5, 1, .w1c, 0, .any⟩]⟩,
   -- CPY_SWREQ
   ⟨0x10, [], [⟨0, 8, .wo, 0, .any⟩]⟩,
   -- CPY_REQ
   ⟨0x18, [(0x8, 2)], [⟨0, 8, .ro, 0, .any⟩, ⟨8, 8, .ro, 0, .any⟩, ⟨16, 8, .ro, 0, .any⟩, ⟨24, 8, .ro, 0, .any⟩, ⟨32, 8, .ro, 0, .any⟩, ⟨40, 8, .ro, 0, .any⟩, ⟨48, 8, .ro, 0, .any⟩, ⟨56, 8, .ro, 0, .any⟩]⟩,
   -- CPY_CH_STATUS
   ⟨0x100, [(0x40, 2)], [⟨0, 3, .ro, 0, .any⟩, ⟨3, 1, .ro, 0, .any⟩, ⟨4, 4, .ro, 0, .any⟩, ⟨8, 4, .ro, 0, .any⟩]⟩,
   -- CPY_CH_CTL
   ⟨0x108, [(0x40, 2)], [⟨0, 1, .wo, 0, .any⟩, ⟨1, 1, .wo, 0, .any⟩]⟩,
   -- CPY_CH_POS
   ⟨0x110, [(0x40, 2)], [⟨0, 16, .ro, 0, .any⟩, ⟨16, 32, .ro, 0, .any⟩]⟩,
   -- CPY_CH_ERR
   ⟨0x118, [(0x40, 2)], [⟨0, 48, .ro, 0, .any⟩, ⟨48, 1, .ro, 0, .any⟩, ⟨49, 4, .ro, 0, .any⟩]⟩,
   -- CPY_CH_CMP_FIRST
   ⟨0x120, [(0x40, 2)], [⟨0, 48, .ro, 0, .any⟩, ⟨48, 1, .ro, 0, .any⟩]⟩,
   -- CPY_CH_CMP_COUNT
   ⟨0x128, [(0x40, 2)], [⟨0, 32, .ro, 0, .any⟩, ⟨32, 1, .ro, 0, .any⟩]⟩]

/-- Registers of the OBS block (R1013). -/
def rowsObs : List RegRow :=
  [
   -- OBS_CTL
   ⟨0x0, [], [⟨0, 1, .wo, 0, .any⟩, ⟨1, 1, .wo, 0, .any⟩, ⟨2, 1, .wo, 0, .any⟩]⟩,
   -- OBS_EVENTS
   ⟨0x8, [], [⟨0, 1, .w1c, 0, .any⟩, ⟨1, 1, .w1c, 0, .any⟩]⟩,
   -- OBS_TRACE_CTL
   ⟨0x10, [], [⟨0, 6, .rw, 0, .any⟩, ⟨6, 1, .rw, 0, .any⟩]⟩,
   -- OBS_TRACE_STAT
   ⟨0x18, [], [⟨0, 9, .ro, 0, .any⟩, ⟨9, 4, .ro, 0, .any⟩]⟩,
   -- OBS_OPC_CFG
   ⟨0x20, [], [⟨0, 6, .rw, 0, .any⟩, ⟨8, 6, .rw, 0, .any⟩, ⟨16, 6, .rw, 0, .any⟩, ⟨24, 6, .rw, 0, .any⟩, ⟨6, 1, .rw, 0, .any⟩, ⟨14, 1, .rw, 0, .any⟩, ⟨22, 1, .rw, 0, .any⟩, ⟨30, 1, .rw, 0, .any⟩, ⟨7, 1, .rw, 0, .any⟩, ⟨15, 1, .rw, 0, .any⟩, ⟨23, 1, .rw, 0, .any⟩, ⟨31, 1, .rw, 0, .any⟩, ⟨32, 3, .rw, 0, .upTo 5⟩]⟩,
   -- OBS_SAMPLE
   ⟨0x28, [], [⟨0, 1, .wo, 0, .any⟩]⟩,
   -- OBS_PC_CFG
   ⟨0x30, [], [⟨0, 16, .rw, 0, .any⟩]⟩,
   -- OBS_OPC_LAST
   ⟨0x40, [(0x10, 4)], [⟨0, 64, .ro, 0, .any⟩]⟩,
   -- OBS_OPC_LAST_TAG
   ⟨0x48, [(0x10, 4)], [⟨0, 32, .ro, 0, .any⟩]⟩,
   -- OBS_OPC_SAMPLE
   ⟨0x80, [(0x10, 4)], [⟨0, 64, .ro, 0, .any⟩]⟩,
   -- OBS_OPC_SAMPLE_TAG
   ⟨0x88, [(0x10, 4)], [⟨0, 32, .ro, 0, .any⟩]⟩,
   -- OBS_SAMPLE_TIME
   ⟨0xC0, [], [⟨0, 64, .ro, 0, .any⟩]⟩,
   -- OBS_PC_SAMPLE
   ⟨0xC8, [], [⟨0, 48, .ro, 0, .any⟩, ⟨48, 4, .ro, 0, .any⟩]⟩,
   -- OBS_PC_SAMPLE_ISSUE
   ⟨0xD0, [], [⟨0, 32, .ro, 0, .any⟩, ⟨32, 16, .ro, 0, .any⟩]⟩,
   -- OBS_PC_SAMPLE_TIME
   ⟨0xD8, [], [⟨0, 64, .ro, 0, .any⟩]⟩,
   -- OBS_CNT64
   ⟨0x100, [(0x8, 29)], [⟨0, 64, .ro, 0, .any⟩]⟩,
   -- OBS_CNT32
   ⟨0x200, [(0x8, 24)], [⟨0, 32, .ro, 0, .any⟩, ⟨32, 1, .ro, 0, .any⟩]⟩]

/-- Registers of the GEN block (R278). -/
def rowsGen : List RegRow :=
  [
   -- GEN_CTL
   ⟨0x0, [], [⟨0, 8, .rw, 0, .any⟩]⟩,
   -- GEN_STATUS
   ⟨0x8, [], [⟨0, 8, .ro, 0, .any⟩]⟩,
   -- GEN_EVENTS
   ⟨0x10, [], [⟨0, 1, .w1c, 0, .any⟩, ⟨1, 1, .w1c, 0, .any⟩]⟩,
   -- GEN_REMIX
   ⟨0x18, [], [⟨0, 8, .rw, 0, .any⟩, ⟨8, 8, .rw, 0, .any⟩, ⟨16, 8, .rw, 0, .any⟩, ⟨24, 8, .rw, 0, .any⟩, ⟨32, 8, .rw, 0, .any⟩, ⟨40, 8, .rw, 0, .any⟩, ⟨48, 8, .rw, 0, .any⟩, ⟨56, 8, .rw, 0, .any⟩]⟩,
   -- GEN_STATE_LO
   ⟨0x100, [(0x10, 8)], [⟨0, 64, .rw, 1, .any⟩]⟩,
   -- GEN_STATE_HI
   ⟨0x108, [(0x10, 8)], [⟨0, 63, .rw, 0, .any⟩]⟩,
   -- GEN_KEY
   ⟨0x200, [(0x8, 8)], [⟨0, 64, .rw, 0, .any⟩]⟩]

/-- Registers of the TLY block (R403). -/
def rowsTly : List RegRow :=
  [
   -- TLY_STATE
   ⟨0x0, [(0x10, 16384)], [⟨0, 32, .rw, 0, .any⟩, ⟨32, 32, .rw, 0, .any⟩]⟩,
   -- TLY_STATE_MODE
   ⟨0x8, [(0x10, 16384)], [⟨0, 1, .rw, 0, .any⟩, ⟨1, 1, .rw, 0, .any⟩]⟩,
   -- TLY_ADD
   ⟨0x40000, [(0x8, 16384)], [⟨0, 32, .wo, 0, .any⟩]⟩,
   -- TLY_PLAN_GEN
   ⟨0x60000, [], [⟨0, 32, .rw, 0, .any⟩]⟩,
   -- TLY_CTL
   ⟨0x60008, [], [⟨0, 1, .wo, 0, .any⟩]⟩,
   -- TLY_EVENTS
   ⟨0x60010, [], [⟨0, 1, .w1c, 0, .any⟩, ⟨1, 1, .w1c, 0, .any⟩]⟩,
   -- TLY_REMOTE_LOST
   ⟨0x60018, [], [⟨0, 31, .ro, 0, .any⟩, ⟨32, 32, .ro, 0, .any⟩]⟩,
   -- TLY_JOB_SEED
   ⟨0x60020, [], [⟨0, 64, .rw, 0, .any⟩]⟩,
   -- TLY_WAIT_STAT
   ⟨0x60100, [(0x8, 64)], [⟨0, 14, .ro, 0, .any⟩, ⟨14, 1, .ro, 0, .any⟩, ⟨15, 1, .ro, 0, .any⟩]⟩]

/-- Registers of the UPD block (R333). -/
def rowsUpd : List RegRow :=
  [
   -- UPD_CTL
   ⟨0x0, [], [⟨0, 1, .rw, 0, .any⟩, ⟨1, 1, .wo, 0, .any⟩]⟩,
   -- UPD_STATUS
   ⟨0x8, [], [⟨0, 1, .ro, 0, .any⟩, ⟨1, 1, .ro, 0, .any⟩, ⟨2, 1, .w1c, 0, .any⟩, ⟨3, 1, .ro, 0, .any⟩, ⟨4, 6, .ro, 0, .any⟩, ⟨10, 3, .ro, 0, .any⟩]⟩,
   -- UPD_EVENTS
   ⟨0x10, [], [⟨0, 1, .w1c, 0, .any⟩, ⟨1, 1, .w1c, 0, .any⟩, ⟨2, 1, .w1c, 0, .any⟩, ⟨3, 1, .w1c, 0, .any⟩, ⟨4, 1, .w1c, 0, .any⟩, ⟨5, 1, .w1c, 0, .any⟩, ⟨6, 1, .w1c, 0, .any⟩, ⟨7, 1, .w1c, 0, .any⟩, ⟨8, 1, .w1c, 0, .any⟩]⟩,
   -- UPD_SUBMIT
   ⟨0x18, [], [⟨0, 48, .wo, 0, .any⟩]⟩,
   -- UPD_PROGRESS
   ⟨0x20, [], [⟨0, 16, .ro, 0, .any⟩, ⟨16, 16, .ro, 0, .any⟩, ⟨32, 8, .ro, 0, .any⟩, ⟨40, 1, .ro, 0, .any⟩]⟩,
   -- UPD_CFG
   ⟨0x28, [], [⟨0, 8, .rw, 10, .any⟩]⟩,
   -- UPD_GEN_SHARE
   ⟨0x30, [], [⟨0, 8, .rw, 0, .any⟩]⟩,
   -- UPD_GEN_REMIX
   ⟨0x38, [], [⟨0, 8, .rw, 0, .any⟩, ⟨8, 8, .rw, 0, .any⟩, ⟨16, 8, .rw, 0, .any⟩, ⟨24, 8, .rw, 0, .any⟩, ⟨32, 8, .rw, 0, .any⟩, ⟨40, 8, .rw, 0, .any⟩, ⟨48, 8, .rw, 0, .any⟩, ⟨56, 8, .rw, 0, .any⟩]⟩,
   -- UPD_GEN_STATE_LO
   ⟨0x100, [(0x10, 8)], [⟨0, 64, .rw, 1, .any⟩]⟩,
   -- UPD_GEN_STATE_HI
   ⟨0x108, [(0x10, 8)], [⟨0, 63, .rw, 0, .any⟩]⟩,
   -- UPD_GEN_KEY
   ⟨0x200, [(0x8, 8)], [⟨0, 64, .rw, 0, .any⟩]⟩]

/-- Registers of the HBM block (R507). -/
def rowsHbm : List RegRow :=
  [
   -- HBM_STATUS
   ⟨0x0, [(0x1000, 8)], [⟨0, 1, .ro, 0, .any⟩, ⟨1, 1, .ro, 0, .any⟩, ⟨16, 14, .ro, 0, .any⟩]⟩,
   -- HBM_EVENTS
   ⟨0x8, [(0x1000, 8)], [⟨0, 1, .w1c, 0, .any⟩, ⟨1, 1, .w1c, 0, .any⟩]⟩,
   -- HBM_UE_LAST
   ⟨0x10, [(0x1000, 8)], [⟨0, 48, .ro, 0, .any⟩, ⟨48, 2, .ro, 0, .any⟩, ⟨50, 2, .ro, 0, .any⟩]⟩,
   -- HBM_SCRUB_POS
   ⟨0x18, [(0x1000, 8)], [⟨0, 36, .ro, 0, .any⟩]⟩]

/-- Registers of the TR2 block (R507). -/
def rowsTr2 : List RegRow :=
  [
   -- TR2_STATUS
   ⟨0x0, [(0x1000, 12)], [⟨0, 1, .ro, 0, .any⟩, ⟨1, 1, .ro, 0, .any⟩, ⟨16, 14, .ro, 0, .any⟩]⟩,
   -- TR2_EVENTS
   ⟨0x8, [(0x1000, 12)], [⟨0, 1, .w1c, 0, .any⟩, ⟨1, 1, .w1c, 0, .any⟩]⟩,
   -- TR2_UE_LAST
   ⟨0x10, [(0x1000, 12)], [⟨0, 48, .ro, 0, .any⟩, ⟨48, 2, .ro, 0, .any⟩, ⟨50, 2, .ro, 0, .any⟩]⟩,
   -- TR2_SCRUB_POS
   ⟨0x18, [(0x1000, 12)], [⟨0, 36, .ro, 0, .any⟩]⟩]

/-- Registers of the MAP block (R508). -/
def rowsMap : List RegRow :=
  [
   -- MAP_CTL
   ⟨0x0, [], [⟨0, 1, .rw, 1, .any⟩, ⟨8, 8, .rw, 24, .range 1 168⟩]⟩,
   -- MAP_STATUS
   ⟨0x8, [], [⟨0, 1, .ro, 0, .any⟩, ⟨1, 1, .ro, 0, .any⟩, ⟨2, 1, .ro, 0, .any⟩]⟩,
   -- MAP_EVENTS
   ⟨0x10, [], [⟨0, 1, .w1c, 0, .any⟩, ⟨1, 1, .w1c, 0, .any⟩, ⟨2, 1, .w1c, 0, .any⟩, ⟨3, 1, .w1c, 0, .any⟩]⟩,
   -- MAP_RC_CFG
   ⟨0x18, [], [⟨0, 8, .rw, 0, .upTo 192⟩]⟩,
   -- MAP_REPAIR
   ⟨0x20, [], [⟨0, 48, .ro, 0, .any⟩, ⟨48, 1, .ro, 0, .any⟩]⟩,
   -- MAP_REPAIR_STAT
   ⟨0x28, [], [⟨0, 1, .wo, 0, .any⟩, ⟨1, 1, .w1c, 0, .any⟩, ⟨2, 7, .ro, 0, .any⟩]⟩,
   -- MAP_DENIED_LAST
   ⟨0x30, [], [⟨0, 48, .ro, 0, .any⟩, ⟨48, 1, .ro, 0, .any⟩]⟩,
   -- MAP_REGION_RANGE
   ⟨0x1000, [(0x10, 256)], [⟨0, 27, .rw, 0, .any⟩, ⟨32, 20, .rw, 0, .any⟩]⟩,
   -- MAP_REGION_ATTR
   ⟨0x1008, [(0x10, 256)], [⟨0, 1, .rw, 0, .any⟩, ⟨1, 1, .rw, 1, .any⟩, ⟨2, 1, .rw, 1, .any⟩, ⟨3, 1, .rw, 0, .any⟩, ⟨4, 2, .rw, 0, .any⟩, ⟨6, 1, .rw, 0, .any⟩]⟩]

/-- Registers of the LNK block (R678). -/
def rowsLnk : List RegRow :=
  [
   -- LNK_PORT_CTL
   ⟨0x0, [(0x1000, 8)], [⟨0, 1, .rw, 1, .any⟩, ⟨1, 1, .wo, 0, .any⟩, ⟨2, 8, .rw, 0, .any⟩]⟩,
   -- LNK_PORT_STATUS
   ⟨0x8, [(0x1000, 8)], [⟨0, 3, .ro, 0, .any⟩, ⟨3, 4, .ro, 0, .any⟩, ⟨7, 4, .ro, 0, .any⟩, ⟨11, 8, .ro, 0, .any⟩]⟩,
   -- LNK_PORT_LANES
   ⟨0x10, [(0x1000, 8)], [⟨0, 4, .ro, 0, .any⟩, ⟨4, 4, .ro, 0, .any⟩, ⟨8, 4, .ro, 0, .any⟩, ⟨12, 4, .ro, 0, .any⟩, ⟨16, 4, .ro, 0, .any⟩, ⟨20, 4, .ro, 0, .any⟩, ⟨24, 4, .ro, 0, .any⟩, ⟨28, 4, .ro, 0, .any⟩, ⟨32, 3, .ro, 0, .any⟩, ⟨36, 3, .ro, 0, .any⟩, ⟨40, 3, .ro, 0, .any⟩, ⟨44, 3, .ro, 0, .any⟩, ⟨48, 3, .ro, 0, .any⟩, ⟨52, 3, .ro, 0, .any⟩, ⟨56, 3, .ro, 0, .any⟩, ⟨60, 3, .ro, 0, .any⟩]⟩,
   -- LNK_PORT_EXPECT
   ⟨0x18, [(0x1000, 8)], [⟨0, 16, .rw, 0, .any⟩, ⟨16, 4, .rw, 0, .any⟩, ⟨20, 1, .rw, 0, .any⟩]⟩,
   -- LNK_PORT_PEER
   ⟨0x20, [(0x1000, 8)], [⟨0, 16, .ro, 0, .any⟩, ⟨16, 4, .ro, 0, .any⟩]⟩,
   -- LNK_PORT_PEER_LO
   ⟨0x28, [(0x1000, 8)], [⟨0, 64, .ro, 0, .any⟩]⟩,
   -- LNK_PORT_PEER_HI
   ⟨0x30, [(0x1000, 8)], [⟨0, 64, .ro, 0, .any⟩]⟩,
   -- LNK_PORT_EVENTS
   ⟨0x38, [(0x1000, 8)], [⟨0, 1, .w1c, 0, .any⟩, ⟨1, 1, .w1c, 0, .any⟩, ⟨2, 1, .w1c, 0, .any⟩, ⟨3, 1, .w1c, 0, .any⟩, ⟨4, 1, .w1c, 0, .any⟩, ⟨5, 1, .w1c, 0, .any⟩]⟩,
   -- LNK_PORT_ERR_CFG
   ⟨0x40, [(0x1000, 8)], [⟨0, 4, .rw, 8, .nonzero⟩, ⟨16, 16, .rw, 4096, .any⟩]⟩,
   -- LNK_SC_CTL
   ⟨0x48, [(0x1000, 8)], [⟨0, 1, .wo, 0, .any⟩, ⟨1, 1, .wo, 0, .any⟩, ⟨2, 1, .ro, 0, .any⟩, ⟨3, 5, .ro, 0, .any⟩]⟩,
   -- LNK_PORT_HB
   ⟨0x50, [(0x1000, 8)], [⟨0, 1, .ro, 0, .any⟩, ⟨1, 3, .ro, 0, .any⟩, ⟨8, 16, .ro, 0, .any⟩, ⟨32, 32, .ro, 0, .any⟩]⟩,
   -- LNK_SC_TX
   ⟨0x100, [(0x1000, 8), (0x8, 8)], [⟨0, 64, .rw, 0, .any⟩]⟩,
   -- LNK_SC_RX
   ⟨0x140, [(0x1000, 8), (0x8, 8)], [⟨0, 64, .ro, 0, .any⟩]⟩,
   -- LNK_STATION
   ⟨0x8000, [], [⟨0, 16, .rw, 0, .any⟩, ⟨16, 16, .rw, 0, .any⟩]⟩,
   -- LNK_CFG
   ⟨0x8008, [], [⟨0, 16, .rw, 1000, .nonzero⟩, ⟨16, 6, .rw, 63, .any⟩]⟩,
   -- LNK_EVENTS
   ⟨0x8010, [], [⟨0, 1, .w1c, 0, .any⟩, ⟨1, 1, .w1c, 0, .any⟩, ⟨2, 1, .w1c, 0, .any⟩, ⟨3, 1, .w1c, 0, .any⟩, ⟨4, 1, .w1c, 0, .any⟩, ⟨5, 1, .w1c, 0, .any⟩]⟩,
   -- LNK_TRACK
   ⟨0x8018, [], [⟨0, 13, .ro, 0, .any⟩, ⟨13, 1, .ro, 0, .any⟩]⟩,
   -- LNK_HB_CFG
   ⟨0x8020, [], [⟨0, 16, .rw, 100, .nonzero⟩, ⟨16, 4, .rw, 5, .nonzero⟩, ⟨32, 16, .rw, 10, .nonzero⟩]⟩,
   -- LNK_HB_KICK
   ⟨0x8028, [], [⟨0, 1, .wo, 0, .any⟩]⟩,
   -- LNK_STATE_GEN
   ⟨0x8030, [], [⟨0, 32, .rw, 0, .any⟩, ⟨32, 3, .rw, 0, .upTo 4⟩]⟩,
   -- LNK_FLT_EVENTS
   ⟨0x8038, [], [⟨0, 8, .w1c, 0, .any⟩, ⟨8, 8, .w1c, 0, .any⟩, ⟨16, 1, .w1c, 0, .any⟩]⟩,
   -- LNK_FLT_STATUS
   ⟨0x8040, [], [⟨0, 8, .ro, 255, .any⟩, ⟨8, 1, .ro, 0, .any⟩]⟩,
   -- LNK_COMB
   ⟨0x10000, [(0x10, 1024)], [⟨0, 30, .rw, 0, .any⟩]⟩,
   -- LNK_COMB_HELD
   ⟨0x10008, [(0x10, 1024)], [⟨0, 4, .ro, 0, .any⟩, ⟨4, 8, .ro, 0, .any⟩]⟩,
   -- LNK_ROUTE
   ⟨0x20000, [(0x8, 16384)], [⟨0, 16, .rw, 0, .route⟩, ⟨16, 16, .rw, 0, .route⟩, ⟨32, 16, .rw, 0, .route⟩, ⟨48, 16, .rw, 0, .route⟩]⟩]

/-- Registers of the CLR block (R745). -/
def rowsClr : List RegRow :=
  [
   -- CLR_CTL
   ⟨0x0, [], [⟨0, 1, .rw, 0, .any⟩, ⟨1, 1, .wo, 0, .any⟩, ⟨2, 1, .rw, 0, .any⟩, ⟨3, 1, .wo, 0, .any⟩, ⟨4, 1, .wo, 0, .any⟩]⟩,
   -- CLR_STATUS
   ⟨0x8, [], [⟨0, 3, .ro, 0, .any⟩, ⟨3, 6, .ro, 0, .any⟩, ⟨9, 1, .ro, 0, .any⟩, ⟨10, 1, .ro, 0, .any⟩]⟩,
   -- CLR_EVENTS
   ⟨0x10, [], [⟨0, 1, .w1c, 0, .any⟩, ⟨1, 1, .w1c, 0, .any⟩, ⟨2, 1, .w1c, 0, .any⟩, ⟨3, 1, .w1c, 0, .any⟩, ⟨4, 1, .w1c, 0, .any⟩, ⟨5, 1, .w1c, 0, .any⟩, ⟨6, 1, .w1c, 0, .any⟩, ⟨7, 1, .w1c, 0, .any⟩, ⟨8, 1, .w1c, 0, .any⟩]⟩,
   -- CLR_SUBMIT
   ⟨0x18, [], [⟨0, 48, .wo, 0, .any⟩]⟩,
   -- CLR_CFG
   ⟨0x20, [], [⟨0, 16, .rw, 20, .any⟩, ⟨16, 16, .rw, 50, .nonzero⟩, ⟨32, 4, .rw, 3, .any⟩]⟩,
   -- CLR_EPOCH
   ⟨0x28, [], [⟨0, 8, .rw, 0, .any⟩]⟩,
   -- CLR_ERR
   ⟨0x30, [], [⟨0, 48, .ro, 0, .any⟩, ⟨48, 1, .ro, 0, .any⟩, ⟨49, 4, .ro, 0, .any⟩]⟩,
   -- CLR_PROGRESS
   ⟨0x38, [], [⟨0, 16, .ro, 0, .any⟩, ⟨16, 32, .ro, 0, .any⟩, ⟨48, 1, .ro, 0, .any⟩]⟩,
   -- CLR_XOR
   ⟨0x40, [], [⟨0, 1, .rw, 0, .any⟩]⟩]

/-- Registers of the PRT block (R609). -/
def rowsPrt : List RegRow :=
  [
   -- PRT_CTL
   ⟨0x0, [], [⟨0, 1, .wo, 0, .any⟩, ⟨1, 1, .wo, 0, .any⟩, ⟨2, 1, .wo, 0, .any⟩]⟩,
   -- PRT_STATUS
   ⟨0x8, [], [⟨0, 3, .ro, 0, .any⟩, ⟨3, 6, .ro, 0, .any⟩, ⟨9, 12, .ro, 0, .any⟩]⟩,
   -- PRT_EVENTS
   ⟨0x10, [], [⟨0, 1, .w1c, 0, .any⟩, ⟨1, 1, .w1c, 0, .any⟩, ⟨2, 1, .w1c, 0, .any⟩, ⟨3, 1, .w1c, 0, .any⟩, ⟨4, 1, .w1c, 0, .any⟩, ⟨5, 1, .w1c, 0, .any⟩, ⟨6, 1, .w1c, 0, .any⟩]⟩,
   -- PRT_SUBMIT
   ⟨0x18, [], [⟨0, 48, .wo, 0, .any⟩]⟩,
   -- PRT_CFG
   ⟨0x20, [], [⟨0, 4, .rw, 3, .any⟩]⟩,
   -- PRT_ERR
   ⟨0x28, [], [⟨0, 48, .ro, 0, .any⟩, ⟨48, 1, .ro, 0, .any⟩, ⟨49, 4, .ro, 0, .any⟩]⟩,
   -- PRT_PAR_SENT
   ⟨0x30, [], [⟨0, 64, .ro, 0, .any⟩]⟩,
   -- PRT_PAR_LOST
   ⟨0x38, [], [⟨0, 32, .ro, 0, .any⟩]⟩,
   -- PRT_PAR_RCVD
   ⟨0x40, [(0x8, 8)], [⟨0, 64, .ro, 0, .any⟩]⟩,
   -- PRT_TABLE0
   ⟨0x1000, [(0x40, 64)], [⟨0, 48, .rw, 0, .any⟩, ⟨48, 1, .rw, 0, .any⟩, ⟨49, 1, .rw, 0, .any⟩, ⟨50, 1, .w1c, 0, .any⟩]⟩,
   -- PRT_TABLE1
   ⟨0x1008, [(0x40, 64)], [⟨0, 40, .rw, 0, .any⟩]⟩,
   -- PRT_TABLE2
   ⟨0x1010, [(0x40, 64)], [⟨0, 40, .rw, 0, .any⟩, ⟨40, 8, .rw, 0, .any⟩, ⟨48, 16, .rw, 0, .any⟩]⟩,
   -- PRT_TABLE3
   ⟨0x1018, [(0x40, 64)], [⟨0, 48, .rw, 0, .any⟩, ⟨48, 5, .rw, 4, .range 4 20⟩]⟩,
   -- PRT_TABLE4
   ⟨0x1020, [(0x40, 64)], [⟨0, 48, .rw, 0, .any⟩, ⟨48, 16, .rw, 0, .any⟩]⟩]

/-- Registers of the DCP block (R553). -/
def rowsDcp : List RegRow :=
  [
   -- DCP_CFG
   ⟨0x0, [], [⟨0, 4, .rw, 3, .any⟩]⟩,
   -- DCP_EVENTS
   ⟨0x8, [], [⟨0, 1, .w1c, 0, .any⟩, ⟨1, 1, .w1c, 0, .any⟩, ⟨2, 1, .w1c, 0, .any⟩, ⟨3, 1, .w1c, 0, .any⟩, ⟨4, 1, .w1c, 0, .any⟩, ⟨5, 1, .w1c, 0, .any⟩]⟩,
   -- DCP_SWREQ
   ⟨0x10, [], [⟨0, 8, .wo, 0, .any⟩]⟩,
   -- DCP_REQ
   ⟨0x18, [(0x8, 2)], [⟨0, 8, .ro, 0, .any⟩, ⟨8, 8, .ro, 0, .any⟩, ⟨16, 8, .ro, 0, .any⟩, ⟨24, 8, .ro, 0, .any⟩, ⟨32, 8, .ro, 0, .any⟩, ⟨40, 8, .ro, 0, .any⟩, ⟨48, 8, .ro, 0, .any⟩, ⟨56, 8, .ro, 0, .any⟩]⟩,
   -- DCP_SUBMIT
   ⟨0x28, [], [⟨0, 48, .wo, 0, .any⟩]⟩,
   -- DCP_CH_STATUS
   ⟨0x1000, [(0x40, 16)], [⟨0, 3, .ro, 0, .any⟩, ⟨3, 1, .ro, 0, .any⟩, ⟨4, 4, .ro, 0, .any⟩, ⟨8, 4, .ro, 0, .any⟩]⟩,
   -- DCP_CH_CTL
   ⟨0x1008, [(0x40, 16)], [⟨0, 1, .wo, 0, .any⟩, ⟨1, 1, .wo, 0, .any⟩]⟩,
   -- DCP_CH_POS
   ⟨0x1010, [(0x40, 16)], [⟨0, 16, .ro, 0, .any⟩, ⟨16, 32, .ro, 0, .any⟩]⟩,
   -- DCP_CH_ERR
   ⟨0x1018, [(0x40, 16)], [⟨0, 48, .ro, 0, .any⟩, ⟨48, 1, .ro, 0, .any⟩, ⟨49, 4, .ro, 0, .any⟩]⟩,
   -- DCP_CH_CMP_FIRST
   ⟨0x1020, [(0x40, 16)], [⟨0, 48, .ro, 0, .any⟩, ⟨48, 1, .ro, 0, .any⟩]⟩,
   -- DCP_CH_CMP_COUNT
   ⟨0x1028, [(0x40, 16)], [⟨0, 32, .ro, 0, .any⟩, ⟨32, 1, .ro, 0, .any⟩]⟩]

/-- Registers of the CLK block (R980). -/
def rowsClk : List RegRow :=
  [
   -- CLK_CTL
   ⟨0x0, [], [⟨0, 1, .wo, 0, .any⟩, ⟨1, 1, .rw, 0, .any⟩, ⟨16, 16, .rw, 100, .any⟩]⟩,
   -- CLK_STATUS
   ⟨0x8, [], [⟨0, 5, .ro, 0, .any⟩, ⟨5, 1, .ro, 0, .any⟩, ⟨6, 1, .ro, 0, .any⟩]⟩,
   -- CLK_EVENTS
   ⟨0x10, [], [⟨0, 1, .w1c, 0, .any⟩, ⟨1, 1, .w1c, 0, .any⟩, ⟨2, 1, .w1c, 0, .any⟩]⟩,
   -- CLK_FREQ
   ⟨0x18, [], [⟨0, 16, .rw, 1000, .mult 25 400 1000⟩, ⟨16, 16, .rw, 1200, .mult 25 400 1200⟩]⟩]

/-- Registers of the DOB block (R1013). -/
def rowsDob : List RegRow :=
  [
   -- DOB_CTL
   ⟨0x0, [], [⟨0, 1, .wo, 0, .any⟩, ⟨1, 1, .wo, 0, .any⟩, ⟨2, 1, .wo, 0, .any⟩]⟩,
   -- DOB_EVENTS
   ⟨0x8, [], [⟨0, 1, .w1c, 0, .any⟩, ⟨1, 1, .w1c, 0, .any⟩, ⟨2, 1, .w1c, 0, .any⟩, ⟨3, 1, .w1c, 0, .any⟩, ⟨4, 1, .w1c, 0, .any⟩, ⟨5, 1, .w1c, 0, .any⟩, ⟨6, 1, .w1c, 0, .any⟩]⟩,
   -- DOB_LOG_CTL
   ⟨0x10, [], [⟨0, 48, .rw, 0, .any⟩, ⟨48, 1, .rw, 0, .any⟩]⟩,
   -- DOB_LOG_STAT
   ⟨0x18, [], [⟨0, 8, .ro, 0, .any⟩, ⟨8, 4, .ro, 0, .any⟩]⟩,
   -- DOB_PC_CFG
   ⟨0x20, [], [⟨0, 16, .rw, 0, .any⟩]⟩,
   -- DOB_RAISE
   ⟨0x28, [], [⟨0, 16, .wo, 0, .any⟩]⟩,
   -- DOB_RAISE_DETAIL
   ⟨0x30, [(0x8, 4)], [⟨0, 64, .rw, 0, .any⟩]⟩,
   -- DOB_SNAP_TIME
   ⟨0x50, [], [⟨0, 64, .ro, 0, .any⟩]⟩,
   -- DOB_WARDEN_PC
   ⟨0x100, [(0x8, 8)], [⟨0, 48, .ro, 0, .any⟩, ⟨48, 3, .ro, 0, .any⟩]⟩,
   -- DOB_LOG_LAST
   ⟨0x200, [(0x8, 8)], [⟨0, 64, .ro, 0, .any⟩]⟩,
   -- DOB_SNAP0
   ⟨0x1000, [(0x20, 83)], [⟨0, 14, .ro, 0, .any⟩, ⟨14, 1, .ro, 0, .any⟩, ⟨15, 1, .ro, 0, .any⟩, ⟨16, 4, .ro, 0, .any⟩, ⟨32, 32, .ro, 0, .any⟩]⟩,
   -- DOB_SNAP1
   ⟨0x1008, [(0x20, 83)], [⟨0, 32, .ro, 0, .any⟩, ⟨32, 1, .ro, 0, .any⟩, ⟨33, 1, .ro, 0, .any⟩]⟩,
   -- DOB_SNAP2
   ⟨0x1010, [(0x20, 83)], [⟨0, 48, .ro, 0, .any⟩, ⟨48, 16, .ro, 0, .any⟩]⟩,
   -- DOB_SNAP3
   ⟨0x1018, [(0x20, 83)], [⟨0, 32, .ro, 0, .any⟩]⟩,
   -- DOB_CNT64
   ⟨0x10000, [(0x8, 121)], [⟨0, 64, .ro, 0, .any⟩]⟩,
   -- DOB_CNT32
   ⟨0x20000, [(0x8, 120)], [⟨0, 32, .ro, 0, .any⟩, ⟨32, 1, .ro, 0, .any⟩]⟩]

/-- Registers of the PWR block (R932). -/
def rowsPwr : List RegRow :=
  [
   -- PWR_CTL
   ⟨0x0, [], [⟨0, 12, .rw, 2400, .range 600 2400⟩, ⟨16, 12, .rw, 2760, .peak⟩, ⟨32, 7, .rw, 100, .range 70 110⟩]⟩,
   -- PWR_STATUS
   ⟨0x8, [], [⟨0, 1, .ro, 0, .any⟩, ⟨1, 1, .ro, 0, .any⟩, ⟨2, 1, .ro, 0, .any⟩, ⟨3, 1, .ro, 0, .any⟩, ⟨4, 1, .ro, 0, .any⟩, ⟨5, 1, .ro, 0, .any⟩, ⟨6, 5, .ro, 0, .any⟩]⟩,
   -- PWR_EVENTS
   ⟨0x10, [], [⟨0, 1, .w1c, 0, .any⟩, ⟨1, 1, .w1c, 0, .any⟩, ⟨2, 1, .w1c, 0, .any⟩, ⟨3, 1, .w1c, 0, .any⟩, ⟨4, 1, .w1c, 0, .any⟩, ⟨5, 1, .w1c, 0, .any⟩, ⟨6, 1, .w1c, 0, .any⟩, ⟨7, 1, .w1c, 0, .any⟩, ⟨8, 1, .w1c, 0, .any⟩, ⟨9, 1, .w1c, 0, .any⟩, ⟨10, 1, .w1c, 0, .any⟩]⟩,
   -- PWR_FEED
   ⟨0x18, [(0x8, 2)], [⟨0, 16, .ro, 0, .any⟩, ⟨16, 16, .ro, 0, .any⟩, ⟨32, 1, .ro, 0, .any⟩, ⟨33, 1, .ro, 0, .any⟩, ⟨34, 1, .ro, 0, .any⟩, ⟨35, 1, .ro, 0, .any⟩]⟩,
   -- PWR_INPUT
   ⟨0x28, [], [⟨0, 16, .ro, 0, .any⟩, ⟨16, 16, .ro, 0, .any⟩, ⟨32, 16, .ro, 0, .any⟩]⟩,
   -- PWR_ENERGY
   ⟨0x30, [], [⟨0, 64, .ro, 0, .any⟩]⟩,
   -- PWR_STRETCH
   ⟨0x38, [], [⟨0, 5, .ro, 16, .any⟩, ⟨5, 5, .ro, 16, .any⟩, ⟨10, 5, .ro, 16, .any⟩, ⟨16, 4, .ro, 0, .any⟩]⟩,
   -- PWR_TILE_ON
   ⟨0x40, [(0x8, 2)], [⟨0, 64, .rw, 0, .any⟩]⟩,
   -- PWR_SENSE
   ⟨0x50, [], [⟨0, 17, .ro, 0, .any⟩]⟩,
   -- PWR_RAIL
   ⟨0x1000, [(0x8, 17)], [⟨0, 16, .ro, 0, .any⟩, ⟨16, 16, .ro, 0, .any⟩, ⟨32, 20, .ro, 0, .any⟩]⟩,
   -- PWR_CNT64
   ⟨0x2000, [], [⟨0, 64, .ro, 0, .any⟩]⟩,
   -- PWR_CNT32
   ⟨0x2008, [(0x8, 4)], [⟨0, 32, .ro, 0, .any⟩, ⟨32, 1, .ro, 0, .any⟩]⟩]

/-- Registers of the ETH block (R857). -/
def rowsEth : List RegRow :=
  [
   -- ETH_PORT_CFG
   ⟨0x0, [(0x1000, 8)], [⟨0, 1, .rw, 1, .any⟩, ⟨1, 12, .rw, 0, .any⟩, ⟨13, 3, .rw, 0, .any⟩, ⟨16, 3, .rw, 3, .any⟩, ⟨19, 16, .rw, 500, .nonzero⟩]⟩,
   -- ETH_PORT_STATUS
   ⟨0x8, [(0x1000, 8)], [⟨0, 1, .ro, 0, .any⟩, ⟨1, 1, .ro, 0, .any⟩, ⟨2, 7, .ro, 0, .any⟩]⟩,
   -- ETH_PORT_EVENTS
   ⟨0x10, [(0x1000, 8)], [⟨0, 1, .w1c, 0, .any⟩, ⟨1, 1, .w1c, 0, .any⟩]⟩,
   -- ETH_SQ_BELL
   ⟨0x18, [(0x1000, 8)], [⟨0, 6, .wo, 0, .any⟩, ⟨32, 16, .wo, 0, .any⟩]⟩,
   -- ETH_RING
   ⟨0x100, [(0x1000, 8), (0x10, 64)], [⟨0, 48, .rw, 0, .any⟩]⟩,
   -- ETH_RING_CFG
   ⟨0x108, [(0x1000, 8), (0x10, 64)], [⟨0, 16, .rw, 0, .any⟩, ⟨16, 16, .rw, 0, .any⟩, ⟨32, 16, .ro, 0, .any⟩]⟩,
   -- ETH_SQ
   ⟨0x800, [(0x1000, 8), (0x10, 64)], [⟨0, 48, .rw, 0, .any⟩]⟩,
   -- ETH_SQ_CFG
   ⟨0x808, [(0x1000, 8), (0x10, 64)], [⟨0, 16, .rw, 0, .pow2 0 15⟩, ⟨16, 16, .ro, 0, .any⟩, ⟨32, 16, .ro, 0, .any⟩]⟩,
   -- ETH_PITCH_STAT
   ⟨0x8000, [], [⟨0, 3, .ro, 0, .any⟩, ⟨3, 32, .ro, 0, .any⟩]⟩,
   -- ETH_PITCH_CFG
   ⟨0x8008, [], [⟨0, 16, .rw, 2000, .nonzero⟩, ⟨16, 1, .rw, 0, .any⟩]⟩,
   -- ETH_PITCH_SEQ
   ⟨0x8010, [], [⟨0, 64, .rws, 0, .any⟩]⟩,
   -- ETH_EVENTS
   ⟨0x8018, [], [⟨0, 1, .w1c, 0, .any⟩]⟩,
   -- ETH_TOLL_CFG
   ⟨0x8020, [], [⟨0, 16, .rw, 60, .nonzero⟩]⟩,
   -- ETH_TOLL_OPEN
   ⟨0x8100, [], [⟨0, 64, .ro, 0, .any⟩]⟩,
   -- ETH_TOLL_READY
   ⟨0x8108, [], [⟨0, 64, .ro, 0, .any⟩]⟩,
   -- ETH_TOLL_RUNNING
   ⟨0x8110, [], [⟨0, 64, .ro, 0, .any⟩]⟩,
   -- ETH_TOLL_RECOVERY
   ⟨0x8118, [], [⟨0, 64, .ro, 0, .any⟩]⟩,
   -- ETH_TOLL_DRAINING
   ⟨0x8120, [], [⟨0, 64, .ro, 0, .any⟩]⟩,
   -- ETH_TOLL_WARM
   ⟨0x8128, [], [⟨0, 64, .ro, 0, .any⟩]⟩,
   -- ETH_TOLL_ENERGY
   ⟨0x8130, [], [⟨0, 64, .ro, 0, .any⟩]⟩,
   -- ETH_MR
   ⟨0x9000, [(0x18, 64)], [⟨0, 48, .rw, 0, .any⟩, ⟨48, 1, .rw, 0, .any⟩, ⟨49, 1, .rw, 0, .any⟩, ⟨50, 1, .rw, 0, .any⟩]⟩,
   -- ETH_MR_LEN
   ⟨0x9008, [(0x18, 64)], [⟨0, 48, .rw, 0, .any⟩]⟩,
   -- ETH_MR_KEY
   ⟨0x9010, [(0x18, 64)], [⟨0, 32, .ro, 0, .any⟩]⟩,
   -- ETH_CNT_BYTES
   ⟨0xA000, [(0x10, 8), (0x8, 2)], [⟨0, 64, .ro, 0, .any⟩]⟩,
   -- ETH_CNT32
   ⟨0xA100, [(0x8, 3)], [⟨0, 32, .ro, 0, .any⟩, ⟨32, 1, .ro, 0, .any⟩]⟩]

/-- Registers of the SEC block (R1050). -/
def rowsSec : List RegRow :=
  [
   -- SEC_STATUS
   ⟨0x0, [], [⟨0, 1, .ro, 0, .any⟩, ⟨1, 1, .ro, 0, .any⟩, ⟨2, 1, .ro, 0, .any⟩, ⟨3, 1, .ro, 0, .any⟩, ⟨4, 1, .ro, 0, .any⟩, ⟨5, 2, .ro, 0, .any⟩, ⟨7, 7, .ro, 0, .any⟩, ⟨14, 4, .ro, 0, .any⟩, ⟨18, 4, .ro, 0, .any⟩, ⟨22, 4, .ro, 0, .any⟩, ⟨26, 2, .ro, 0, .any⟩, ⟨28, 1, .ro, 0, .any⟩]⟩,
   -- SEC_EVENTS
   ⟨0x8, [], [⟨0, 1, .w1c, 0, .any⟩, ⟨1, 1, .w1c, 0, .any⟩, ⟨2, 1, .w1c, 0, .any⟩, ⟨3, 1, .w1c, 0, .any⟩, ⟨4, 1, .w1c, 0, .any⟩, ⟨5, 1, .w1c, 0, .any⟩, ⟨6, 1, .w1c, 0, .any⟩, ⟨7, 1, .w1c, 0, .any⟩, ⟨8, 1, .w1c, 0, .any⟩, ⟨9, 1, .w1c, 0, .any⟩, ⟨10, 1, .w1c, 0, .any⟩]⟩,
   -- SEC_VERSION
   ⟨0x10, [], [⟨0, 32, .ro, 0, .any⟩, ⟨32, 32, .ro, 0, .any⟩]⟩,
   -- SEC_KEY
   ⟨0x18, [], [⟨0, 21, .ro, 0, .any⟩, ⟨21, 13, .ro, 0, .any⟩, ⟨34, 1, .ro, 0, .any⟩]⟩,
   -- SEC_SERIAL
   ⟨0x20, [(0x8, 2)], [⟨0, 64, .ro, 0, .any⟩]⟩,
   -- SEC_ID_PUB
   ⟨0x40, [(0x8, 9)], [⟨0, 64, .ro, 0, .any⟩]⟩,
   -- SEC_RAND
   ⟨0x90, [], [⟨0, 64, .ro, 0, .any⟩]⟩,
   -- SEC_STAGE_CMD
   ⟨0xA0, [], [⟨0, 3, .wo, 0, .any⟩, ⟨16, 12, .rw, 0, .any⟩]⟩,
   -- SEC_DIST_CFG
   ⟨0xA8, [], [⟨0, 1, .rw, 0, .any⟩]⟩,
   -- SEC_DBG_CTL
   ⟨0xB0, [], [⟨0, 1, .wo, 0, .any⟩, ⟨1, 1, .wo, 0, .any⟩, ⟨2, 1, .rw, 0, .any⟩, ⟨3, 1, .wo, 0, .any⟩]⟩,
   -- SEC_DBG_CHAL
   ⟨0xC0, [(0x8, 4)], [⟨0, 64, .ro, 0, .any⟩]⟩,
   -- SEC_DBG_RESP
   ⟨0x1000, [(0x8, 384)], [⟨0, 64, .rw, 0, .any⟩]⟩,
   -- SEC_STAGE_DATA
   ⟨0x2000, [(0x8, 512)], [⟨0, 64, .rw, 0, .any⟩]⟩]

/-- Registers of the MGT block (R885). -/
def rowsMgt : List RegRow :=
  [
   -- MGT_CTL
   ⟨0x0, [], [⟨0, 1, .wo, 0, .any⟩, ⟨1, 1, .wo, 0, .any⟩, ⟨8, 8, .wo, 0, .any⟩]⟩,
   -- MGT_STATUS
   ⟨0x8, [], [⟨0, 4, .ro, 0, .any⟩, ⟨4, 1, .ro, 0, .any⟩, ⟨5, 1, .ro, 0, .any⟩]⟩,
   -- MGT_EVENTS
   ⟨0x10, [], [⟨0, 1, .w1c, 0, .any⟩, ⟨1, 1, .w1c, 0, .any⟩, ⟨2, 1, .w1c, 0, .any⟩, ⟨3, 1, .w1c, 0, .any⟩, ⟨4, 1, .w1c, 0, .any⟩, ⟨5, 1, .w1c, 0, .any⟩, ⟨6, 1, .w1c, 0, .any⟩, ⟨7, 1, .w1c, 0, .any⟩]⟩,
   -- MGT_FURN_STAT
   ⟨0x18, [], [⟨0, 2, .ro, 0, .any⟩, ⟨2, 2, .ro, 0, .any⟩, ⟨4, 4, .ro, 0, .any⟩, ⟨8, 4, .ro, 0, .any⟩, ⟨16, 8, .ro, 0, .any⟩, ⟨24, 8, .ro, 2, .any⟩, ⟨32, 32, .ro, 0, .any⟩]⟩,
   -- MGT_FURN_RANGE
   ⟨0x20, [], [⟨0, 32, .ro, 0, .any⟩]⟩,
   -- MGT_FLASH_CMD
   ⟨0x28, [], [⟨0, 2, .rw, 0, .any⟩, ⟨2, 1, .rw, 0, .any⟩, ⟨3, 1, .ro, 0, .any⟩, ⟨4, 1, .ro, 0, .any⟩, ⟨8, 20, .rw, 0, .any⟩]⟩,
   -- MGT_FLASH_DATA
   ⟨0x100, [(0x8, 32)], [⟨0, 64, .rw, 0, .any⟩]⟩,
   -- MGT_SENS_CFG
   ⟨0x8000, [], [⟨0, 10, .rw, 200, .nonzero⟩, ⟨16, 8, .rw, 40, .any⟩, ⟨24, 8, .rw, 65, .any⟩]⟩,
   -- MGT_SENS_STATUS
   ⟨0x8008, [], [⟨0, 1, .ro, 0, .any⟩, ⟨1, 1, .ro, 0, .any⟩, ⟨2, 1, .ro, 0, .any⟩, ⟨3, 1, .ro, 0, .any⟩, ⟨4, 1, .ro, 0, .any⟩, ⟨5, 1, .ro, 0, .any⟩, ⟨6, 1, .ro, 0, .any⟩, ⟨7, 1, .ro, 0, .any⟩, ⟨8, 1, .ro, 0, .any⟩, ⟨9, 1, .ro, 0, .any⟩, ⟨10, 1, .ro, 0, .any⟩]⟩,
   -- MGT_SENS_EVENTS
   ⟨0x8010, [], [⟨0, 1, .w1c, 0, .any⟩, ⟨1, 1, .w1c, 0, .any⟩, ⟨2, 1, .w1c, 0, .any⟩, ⟨3, 1, .w1c, 0, .any⟩]⟩,
   -- MGT_SENS_COOL
   ⟨0x8018, [], [⟨0, 16, .ro, 0, .any⟩, ⟨16, 16, .ro, 0, .any⟩, ⟨32, 10, .ro, 0, .any⟩, ⟨42, 1, .ro, 0, .any⟩, ⟨43, 1, .ro, 0, .any⟩, ⟨44, 1, .ro, 0, .any⟩]⟩,
   -- MGT_SENS_DIE
   ⟨0x8020, [(0x8, 2)], [⟨0, 16, .ro, 0, .any⟩, ⟨16, 4, .ro, 0, .any⟩, ⟨20, 16, .ro, 0, .any⟩]⟩,
   -- MGT_SENS_HBM
   ⟨0x8030, [(0x8, 2)], [⟨0, 8, .ro, 255, .any⟩, ⟨8, 8, .ro, 255, .any⟩, ⟨16, 8, .ro, 255, .any⟩, ⟨24, 8, .ro, 255, .any⟩, ⟨32, 8, .ro, 255, .any⟩, ⟨40, 8, .ro, 255, .any⟩, ⟨48, 8, .ro, 255, .any⟩, ⟨56, 8, .ro, 255, .any⟩]⟩,
   -- MGT_SENS_BOARD
   ⟨0x8040, [], [⟨0, 16, .ro, 32768, .any⟩, ⟨16, 16, .ro, 32768, .any⟩, ⟨32, 16, .ro, 32768, .any⟩, ⟨48, 16, .ro, 32768, .any⟩]⟩,
   -- MGT_CONN
   ⟨0x8048, [], [⟨0, 16, .ro, 0, .any⟩, ⟨16, 16, .ro, 0, .any⟩, ⟨32, 8, .ro, 0, .any⟩, ⟨40, 8, .ro, 0, .any⟩]⟩,
   -- MGT_IDENT
   ⟨0x8050, [], [⟨0, 8, .ro, 176, .any⟩, ⟨8, 8, .ro, 1, .any⟩]⟩]

/-- Registers of the MCK block (R980). -/
def rowsMck : List RegRow :=
  [
   -- MCK_REF_CFG
   ⟨0x0, [], [⟨0, 4, .rw, 0, .any⟩, ⟨4, 1, .rw, 0, .any⟩, ⟨5, 1, .rw, 1, .any⟩, ⟨8, 8, .rw, 50, .nonzero⟩]⟩,
   -- MCK_STATUS
   ⟨0x8, [], [⟨0, 1, .ro, 0, .any⟩, ⟨1, 1, .ro, 0, .any⟩, ⟨2, 1, .ro, 1, .any⟩, ⟨3, 1, .ro, 0, .any⟩]⟩,
   -- MCK_EVENTS
   ⟨0x10, [], [⟨0, 1, .w1c, 0, .any⟩, ⟨1, 1, .w1c, 0, .any⟩, ⟨2, 1, .w1c, 0, .any⟩]⟩,
   -- MCK_REF_MEAS
   ⟨0x18, [], [⟨0, 32, .ro, 0, .any⟩]⟩,
   -- MCK_CLKOUT
   ⟨0x20, [], [⟨0, 1, .rw, 0, .any⟩, ⟨1, 3, .rw, 0, .upTo 4⟩, ⟨4, 12, .rw, 0, .any⟩]⟩,
   -- MCK_CNT32
   ⟨0x100, [(0x8, 2)], [⟨0, 32, .ro, 0, .any⟩, ⟨32, 1, .ro, 0, .any⟩]⟩]

/-- Registers of the TIME block (R980). -/
def rowsTime : List RegRow :=
  [
   -- TIME_NOW
   ⟨0x0, [], [⟨0, 64, .ro, 0, .any⟩]⟩,
   -- TIME_FRAC
   ⟨0x8, [], [⟨0, 32, .ro, 0, .any⟩]⟩,
   -- TIME_RATE
   ⟨0x10, [], [⟨0, 32, .rw, 0, .ratePpm⟩]⟩,
   -- TIME_STEP
   ⟨0x18, [], [⟨0, 64, .wo, 0, .any⟩]⟩,
   -- TIME_SLEW
   ⟨0x20, [], [⟨0, 32, .wo, 0, .any⟩, ⟨32, 32, .ro, 0, .any⟩]⟩,
   -- TIME_STATUS
   ⟨0x28, [], [⟨0, 1, .ro, 0, .any⟩, ⟨1, 1, .ro, 0, .any⟩, ⟨2, 1, .ro, 0, .any⟩]⟩,
   -- TIME_CFG
   ⟨0x30, [], [⟨0, 1, .rw, 0, .any⟩, ⟨8, 16, .rw, 1000, .nonzero⟩, ⟨24, 8, .rw, 8, .nonzero⟩, ⟨32, 8, .rw, 125, .nonzero⟩, ⟨40, 16, .rw, 2000, .any⟩]⟩,
   -- TIME_LINK
   ⟨0x38, [], [⟨0, 32, .ro, 0, .any⟩, ⟨32, 16, .ro, 0, .any⟩, ⟨48, 16, .ro, 0, .any⟩]⟩,
   -- TIME_EVENTS
   ⟨0x40, [], [⟨0, 1, .w1c, 0, .any⟩, ⟨1, 1, .w1c, 0, .any⟩, ⟨2, 1, .w1c, 0, .any⟩]⟩]

/-- The register blocks of R22 to R24. -/
inductive Blk where
  | fwd | bwd | cnv | wgh | seq | mem | cpy | obs | gen
  | tly | upd | hbm | tr2 | map | lnk | clr | prt | dcp | clk | dob
  | pwr | eth | sec | mgt | mck | time
  deriving DecidableEq, Repr

/-- The register rows of a block. -/
def rowsOf : Blk → List RegRow
  | .fwd => rowsFwd | .bwd => rowsBwd | .cnv => rowsCnv | .wgh => rowsWgh | .seq => rowsSeq | .mem => rowsMem
  | .cpy => rowsCpy | .obs => rowsObs | .gen => rowsGen | .tly => rowsTly | .upd => rowsUpd | .hbm => rowsHbm
  | .tr2 => rowsTr2 | .map => rowsMap | .lnk => rowsLnk | .clr => rowsClr | .prt => rowsPrt | .dcp => rowsDcp
  | .clk => rowsClk | .dob => rowsDob | .pwr => rowsPwr | .eth => rowsEth | .sec => rowsSec | .mgt => rowsMgt
  | .mck => rowsMck | .time => rowsTime

/-- Where an address of the register space falls: block, die, tile (0 for die and module blocks) and offset. -/
structure RegLoc where
  blk : Blk
  d : Nat
  t : Nat
  off : Nat
  deriving DecidableEq, Repr

/-- The tile block of a block number (R22). -/
def tileBlkOf : Nat → Option Blk
  | 0 => some .fwd | 1 => some .bwd | 2 => some .cnv | 3 => some .wgh | 4 => some .seq | 5 => some .mem
  | 6 => some .cpy | 7 => some .obs | 8 => some .gen | _ => none

/-- The die block of a megabyte number (R23). -/
def dieBlkOf : Nat → Option Blk
  | 0x10 => some .tly | 0x11 => some .upd | 0x12 => some .hbm | 0x13 => some .tr2 | 0x14 => some .map
  | 0x15 => some .lnk | 0x16 => some .clr | 0x17 => some .prt | 0x18 => some .dcp | 0x19 => some .clk
  | 0x1A => some .dob | _ => none

/-- The module block of a megabyte number (R24). -/
def modBlkOf : Nat → Option Blk
  | 0 => some .pwr | 1 => some .eth | 2 => some .sec | 3 => some .mgt | 4 => some .mck | 5 => some .time | _ => none

/-- The block, die, tile and offset of a register address (R14, R22 to R24); none where the map has no block. -/
def regLoc (a : Nat) : Option RegLoc :=
  if 0x700000000000 ≤ a ∧ a < 0x700200000000 then
    let d := (a - 0x700000000000) / 0x100000000
    let o := (a - 0x700000000000) % 0x100000000
    if o < 0x400000 then
      (tileBlkOf (o % 0x10000 / 0x1000)).map (fun b => ⟨b, d, o / 0x10000, o % 0x1000⟩)
    else (dieBlkOf (o / 0x100000)).map (fun b => ⟨b, d, 0, o % 0x100000⟩)
  else if 0x7F0000000000 ≤ a ∧ a < 0x7F0000600000 then
    let o := a - 0x7F0000000000
    (modBlkOf (o / 0x100000)).map (fun b => ⟨b, 0, 0, o % 0x100000⟩)
  else none

/-- Whether offset `x` is one of the registers at `off` with these array dimensions. -/
def inArr : Nat → List (Nat × Nat) → Nat → Bool
  | off, [], x => x == off
  | off, (st, n) :: ds, x => decide (off ≤ x) && decide (0 < n) &&
      inArr off ds (x - min ((x - off) / st) (n - 1) * st)

/-- The row of a register at an offset of a block; none for a reserved offset. -/
def rowAt (b : Blk) (off : Nat) : Option RegRow := (rowsOf b).find? (fun r => inArr r.off r.dims off)

/-- The fields of the register word at an address; empty where the address is reserved. -/
def fieldsAt (a : Nat) : List FieldRow :=
  match regLoc a with
  | none => []
  | some l => match rowAt l.blk l.off with
    | none => []
    | some r => r.fields

/-- The word a list of fields spells with every field at its reset value. -/
def resetOf : List FieldRow → Word
  | [] => 0
  | f :: fs => setFld (resetOf fs) f.lo f.w f.reset

/-- The reset value of the register word at an address. Fused registers hold their fuse values. -/
def resetWord (a : Nat) : Word :=
  if a = Reg.secSerial 0 then Config.serial.setWidth 64
  else if a = Reg.secSerial 1 then (Config.serial >>> 64).setWidth 64
  else if Reg.secIdPub 0 ≤ a ∧ a < Reg.secIdPub 9 then Config.idPub ((a - Reg.secIdPub 0) / 8)
  else resetOf (fieldsAt a)

/-- Whether an encoding of a field is not reserved (R10); `x` is the whole word written. -/
def legalEnc (x : Word) (f : FieldRow) (v : Nat) : Bool :=
  match f.legal with
  | .any => true
  | .nonzero => decide (v ≠ 0)
  | .upTo hi => decide (v ≤ hi)
  | .range lo hi => decide (lo ≤ v ∧ v ≤ hi)
  | .mult m lo hi => decide (v % m = 0 ∧ lo ≤ v ∧ v ≤ hi)
  | .pow2 lo hi => (List.range (hi + 1 - lo)).any (fun k => v == 2 ^ (lo + k))
  | .peak => decide (fld x 0 12 ≤ v ∧ v ≤ 3000)
  | .ratePpm => decide (-21474836 ≤ sgn 32 v ∧ sgn 32 v ≤ 21474836)
  | .route => decide (nfld v 8 2 ≠ 3 ∧ v >>> 12 = 0)

end Sys2Proof.Machine
end

