-- ==== Sys2Proof/Machine/SMap.lean ====
section
/-! DEFINITION. Sparse maps: sorted lists of (key, value) pairs that list no key at its default value. -/

namespace Sys2Proof.Machine

/-- Read a sparse map whose unlisted keys hold `d k`. -/
def SMap.get {α : Type} (d : Nat → α) : List (Nat × α) → Nat → α
  | [], k => d k
  | (k', v) :: m, k => if k' = k then v else SMap.get d m k

/-- The map without key `k`. -/
def SMap.erase {α : Type} : List (Nat × α) → Nat → List (Nat × α)
  | [], _ => []
  | (k', v) :: m, k => if k' = k then SMap.erase m k else (k', v) :: SMap.erase m k

/-- Insert a key into a map sorted by key that does not list it. -/
def SMap.ins {α : Type} : List (Nat × α) → Nat → α → List (Nat × α)
  | [], k, v => [(k, v)]
  | (k', v') :: m, k, v => if k < k' then (k, v) :: (k', v') :: m else (k', v') :: SMap.ins m k v

/-- Write a sparse map: a value equal to the key's default unlists the key. -/
def SMap.set {α : Type} [DecidableEq α] (d : Nat → α) (m : List (Nat × α)) (k : Nat) (v : α) :
    List (Nat × α) :=
  if v = d k then SMap.erase m k else SMap.ins (SMap.erase m k) k v

/-- Keys strictly rising from `lo`. -/
def SMap.sortedFrom {α : Type} : Nat → List (Nat × α) → Bool
  | _, [] => true
  | lo, (k, _) :: m => decide (lo ≤ k) && SMap.sortedFrom (k + 1) m

/-- The canonical form: keys strictly rising, and no key listed at its default. -/
def SMap.wf {α : Type} [DecidableEq α] (d : Nat → α) (m : List (Nat × α)) : Bool :=
  SMap.sortedFrom 0 m && m.all (fun p => decide (p.2 ≠ d p.1))

/-- Unlist every key that `p` selects. -/
def SMap.drop {α : Type} (p : Nat → Bool) (m : List (Nat × α)) : List (Nat × α) :=
  m.filter (fun e => !p e.1)

end Sys2Proof.Machine
end

