-- ==== Sys2Proof/Machine/State.lean ====
section
/-! DEFINITION. The state of the module, as plain data, and the state right after reset. -/

namespace Sys2Proof.Machine

/-- The faults a step can end in. No command of this model ends in one. -/
inductive Fault where
  /-- Raised by no command: the specification gives every command of the table an effect. Safe. -/
  | none
  deriving DecidableEq, Repr

/-- The refusals a step can end in. -/
inductive Refusal where
  /-- A command whose meaning is not written yet, by its mnemonic. Safe: nothing is claimed of it. -/
  | notModelled (mnemonic : String)
  deriving DecidableEq, Repr

/-- Why an access was refused: the rule that refuses it. -/
inductive AccErr where
  | regAccess | unmapped | denied | unreachable | mapDenied | notOwner | rcReserved | busy | handBusy | value
  deriving DecidableEq, Repr

/-- What the module answered to the last access a requester issued. -/
inductive Reply where
  | none
  | ack
  /-- The access waits: for a wake, an invalidation, a fill or the end of initialisation. -/
  | waiting
  | data (bs : List Byte)
  /-- Both ports of a dual-port bank answered in one cycle (R423): port 0's read bytes, then port 1's. -/
  | pair (p0 p1 : List Byte)
  | word (w : Word)
  | error (e : AccErr)
  deriving DecidableEq, Repr

/-- A frame as a port sends it (R612): kind data, sequence number, nak, last frame accepted, credits returned for two
VCs, side-channel bytes and packet-stream bytes. The CRC and the FEC follow from these. -/
structure FrameOut where
  data : Bool
  seq : Nat
  nak : Bool
  ack : Nat
  cr : List (Nat × Nat)
  sc : List Byte
  payload : List Byte
  deriving DecidableEq, Repr

/-- What an Ethernet port sends: a pitch message to an address; RoCEv2 acknowledgements, requests and read responses of a
queue pair; pause frames; the replies of R818, PTP and recovery datagrams. -/
inductive EthOut where
  | pitch (dst m : List Byte)
  | ack (qp : Nat)
  | readResp (qp : Nat) (data : List Byte)
  | nakInvalid (qp : Nat)
  | nakAccess (qp : Nat)
  | rnr (qp us : Nat)
  | request (qp op va key : Nat) (data : List Byte) (len : Nat)
  | cnp (qp : Nat)
  | pause (prio : Nat) (on : Bool)
  | reply (dst m : List Byte)
  /-- A PTP delay request, stamped as it leaves. -/
  | ptpDelayReq (stamp : Nat)
  | recovery (m : List Byte)
  deriving DecidableEq, Repr

/-- What leaves the module. -/
inductive Emit where
  /-- A frame leaves a Haldif port. -/
  | frame (p : Nat) (f : FrameOut)
  /-- A packet has arrived at a cross of this module: the command of its type carries it next where its dst is this
  module (R646), PACKET_ROUTE where it is not. -/
  | deliver (k : Packet)
  /-- A side-channel message has arrived whole at a port: SIDE_CHANNEL_RECEIVE, or the command of its type, carries it
  next (R673). -/
  | scArrived (p : Nat) (m : List Byte)
  /-- An emitted round is handed to the clearing engine of a die: NODE_ROUND carries it next (R670). -/
  | node (d : Nat) (k : Packet)
  | eth (e : Nat) (f : EthOut)
  | uart (m : List Byte)
  | i2c (m : List Byte)
  | jtag (bits : List Bool)
  deriving DecidableEq, Repr

/-- Why an access waits. -/
inductive WaitWhy where
  | bank (d t b : Nat)
  | invalidating (d t : Nat)
  | init (d : Nat)
  | fill (d line : Nat)
  deriving DecidableEq, Repr

/-- An access accepted and waiting. -/
structure Waiting where
  r : Requester
  q : Access
  why : WaitWhy
  deriving DecidableEq, Repr

/-- HBM lines whose contents the manual leaves open after a carve shrank (R1089): the range, the number of the free
value, and the lines of it written since. -/
structure Loose where
  lo : Nat
  hi : Nat
  epoch : Nat
  written : List Nat
  deriving DecidableEq, Repr

/-! ## Tile state -/

/-- Whether a sequencer runs (R399, R400). -/
inductive SeqRun where
  | idle | running | halted
  deriving DecidableEq, Repr

/-- A fetched descriptor: its bytes, none where the fetch returned an access error; ready once it has arrived. -/
structure Fetched where
  bytes : Option Desc
  ready : Bool
  deriving DecidableEq, Repr

/-- An operation in flight on a tile (R355): opcode, issue number, descriptor address, the descriptor as issued,
whether a write of it was refused (R1091). -/
structure OpRec where
  opcode : Nat
  issue : Nat
  addr : Nat
  desc : Desc
  withheld : Bool
  deriving DecidableEq, Repr

/-- The column sums of one vector (R97): sums, exponent, plane count (0 outside stream planes), marked invalid. -/
structure ColSums where
  sums : List Int
  exp : Int
  planes : Nat
  bad : Bool
  deriving DecidableEq, Repr

/-- One vector in the forward array: its number, the window integer of each row (stream planes: the count of 1 bits),
the planes each lane keeps and the elements each lane clips, the lanes that have started it, whether it is marked
invalid, has outliers moved out, has an active sub-block, its window, and the side stall's work on it. -/
structure FwdVec where
  v : Nat
  xs : List Int
  kept : List Nat
  clips : List Nat
  lanes : List Nat
  bad : Bool
  outl : Bool
  live : Bool
  top : Int
  bottom : Int
  sideBad : Bool
  sideDone : Bool
  side : List Int
  deriving DecidableEq, Repr

/-- A forward operation past its first plane cycle: precision mode, adaptive window, effective plane count, vectors
started by each lane, the oldest vector not combined, the vectors in the slots, the side stall's vector and round,
combined sums on their way to the converter, vectors delivered, shakers drawn from. -/
structure FwdS where
  issue : Nat
  mode : Nat
  top : Int
  bottom : Int
  planes : Nat
  starts : List Nat
  oldest : Nat
  vecs : List FwdVec
  sideVec : Nat
  sideRound : Nat
  out : List ColSums
  delivered : Nat
  drew : List Nat
  deriving DecidableEq, Repr

/-- A convert operation that has taken a vector: next input vector, an invalid vector was written, a valid vector was
written, the largest magnitude written (F32), the exact sum and number of quire max-abs values, 16-bit numbers drawn
and not used, shakers drawn from. -/
structure CnvS where
  issue : Nat
  next : Nat
  bad : Bool
  good : Bool
  maxAbs : Nat
  sumNum : Nat
  sumDen : Nat
  quires : Nat
  left : List Nat
  drew : List Nat
  /-- Its push has been made. -/
  pushed : Bool
  deriving DecidableEq, Repr

/-- An accumulator set of the backward array (R136): whose operation and block it computes, operand cycles done, its
4 096 F32 encodings in row order, and the invalid flags of its 64 columns. -/
structure BwdSet where
  issue : Nat
  block : Nat
  cycles : Nat
  acc : List Nat
  flags : List Bool
  deriving DecidableEq, Repr

/-- The drain on a block: its set, the next row, whether the block is bad, whether its rows are written, the values
an accumulator slot takes, and the directory entry it takes. -/
structure BwdDrain where
  set : BwdSet
  row : Nat
  bad : Bool
  writes : Bool
  vals : List Nat
  dirEntry : Option Nat
  deriving DecidableEq, Repr

/-- A backward operation that has reached its first operand cycle: blocks drained, whether its first bad block, tag
refusal and count saturation were met, its largest output magnitude (F32), 16-bit numbers left, shakers drawn from. -/
structure BwdOp where
  issue : Nat
  drained : Nat
  bad : Bool
  tag : Bool
  sat : Bool
  maxOut : Nat
  left : List Nat
  drew : List Nat
  deriving DecidableEq, Repr

/-- The backward array: begun operations, oldest first; the set that computes; finished sets, oldest first; the
drain; the couch's windows of operands A and B (F32 encodings, and whether the element was flushed). -/
structure BwdS where
  ops : List BwdOp
  cur : Option BwdSet
  full : List BwdSet
  drain : Option BwdDrain
  winA : List (Nat × Bool)
  winB : List (Nat × Bool)
  deriving DecidableEq, Repr

/-- A descriptor held in a die engine's queue: its bytes as issued or read, the issue number of the sequencer that
passed it (0 for a warden), its address, and the tile that passed it (255 for a warden). -/
structure QDesc where
  desc : Desc
  issue : Nat
  addr : Nat
  tile : Nat
  deriving DecidableEq, Repr

/-- What the failing access of a copy channel is: a read of the source, a read of the second range of a compare, a
local write, or a remote packet. -/
inductive ChWhat where
  | read | compare | write | packet
  deriving DecidableEq, Repr

/-- A failing access of a copy channel (R542): its address, its cause, the data it writes or compares with, and the
attempts made on it. -/
structure ChFail where
  what : ChWhat
  addr : Nat
  cause : Nat
  data : List Byte
  attempts : Nat
  deriving DecidableEq, Repr

/-- A copy channel's operation (R517 to R551): its descriptor, bursts begun, bytes of the last burst done, the bytes a
remote burst has gathered, paused under fill-level pacing, failing accesses, halted, stopped at a mismatch, a mismatch
found, aborted. -/
structure ChS where
  q : QDesc
  begun : Nat
  pos : Nat
  buf : List Byte
  paused : Bool
  fails : List ChFail
  halted : Bool
  stop : Bool
  diff : Bool
  abort : Bool
  deriving DecidableEq, Repr

/-- The copy channels of a tile or a die, and the channel each request line last served (R533). -/
structure CpyS where
  chs : List (Option ChS)
  served : List (Nat × Nat)
  deriving DecidableEq, Repr

structure TileS where
  run : SeqRun
  gated : Bool
  fetched : List Fetched
  /-- The tally the head's registered wait is on, while no judgement has met it (R385). -/
  waitReg : Option Nat
  /-- The wait was judged met and its report is on its way (R386). -/
  waitJudged : Bool
  /-- The wait of the head descriptor was reported met (R354). -/
  waitMet : Bool
  ops : List OpRec
  /-- Operation counters 0 to 3: value and tag (R989). -/
  opc : List (Nat × Nat)
  /-- A period of the operation counters has begun, and the mark of the descriptor that began it (R990). -/
  opcOpen : Bool
  opcMark : Nat
  /-- Regions with an invalidation running, as bits of MEM_INVALIDATE (R438). -/
  inval : Nat
  /-- Banks 0 to 24 that are waking (R431). -/
  waking : List Nat
  /-- The forward operation past its first plane cycle. -/
  fwd : Option FwdS
  bwd : BwdS
  /-- The converter's input queue (R190). -/
  cnvQ : List ColSums
  /-- The convert operation that has begun. -/
  cnv : Option CnvS
  cp : CpyS
  deriving DecidableEq, Repr

/-- A tile as its power domain comes up. -/
def TileS.reset : TileS :=
  { run := .idle, gated := false, fetched := [], waitReg := none, waitJudged := false, waitMet := false, ops := [],
    opc := [(0, 0), (0, 0), (0, 0), (0, 0)], opcOpen := false, opcMark := 0, inval := 0, waking := [],
    fwd := none,
    bwd := { ops := [], cur := none, full := [], drain := none, winA := [], winB := [] }, cnvQ := [], cnv := none, cp := { chs := [none, none], served := [] } }

/-! ## Die state -/

/-- One operation queued at a tally bank (R382). -/
inductive TallyOp where
  | add (n : Nat) (amount : Int)
  /-- The −1 of a fill-level-paced burst of channel `who` (R538). -/
  | level (n who : Nat)
  | arm (n : Nat) (target : Nat) (autoDec : Bool) (value : Option Nat)
  | disarm (n : Nat)
  | setState (n : Nat) (w : Word)
  | setMode (n : Nat) (w : Word)
  | clear
  deriving DecidableEq, Repr

/-- What awaits the ACK of a tracked packet (R641, R644). -/
inductive Owner where
  | tallyAdd (addr : Nat)
  /-- A write or a push of the convert operation with this issue number. -/
  | cnv (t issue : Nat)
  /-- A mirror write of update descriptor `n`, or its remote add. -/
  | mirror (n : Nat)
  /-- A parity delta of porter table `t`. -/
  | parity (t : Nat)
  /-- A packet of the porter's descriptor, and the number of its attempt. -/
  | porter (n : Nat)
  /-- A remote copy write of die channel `c` at a device address, and the number of the attempt. -/
  | chan (c a n : Nat)
  /-- A packet of the clearing engine's descriptor `n` to its destination `r` (a rank, an entry of a list), and the
  number of the attempt. -/
  | clr (n r att : Nat)
  | warden
  deriving DecidableEq, Repr

/-- A packet sent and not yet acknowledged (R641): its tag, who awaits it, and the always-on time it was sent. -/
structure Track where
  tag : Nat
  owner : Owner
  sent : Nat
  pkt : Packet
  deriving DecidableEq, Repr

/-- The begun update descriptor: its number, parameter block and shard header as read, the F32 encoding of κ, the new
lr_exp once it is known, whether its first lane cycle has come, units written, the F32 encoding of the largest |t|
and whether any unit had a count, events raised, a refused local write, the refused-write record made, and the 16-bit
numbers left of each shaker. -/
structure UpdS where
  q : QDesc
  num : Nat
  parm : List Byte
  hdr : List Byte
  kappa : Nat
  lrExp : Option Int
  lanes : Bool
  next : Nat
  gmax : Nat
  counted : Bool
  nonf : Bool
  scaleBad : Bool
  refused : Bool
  logged : Bool
  left : List (List Nat)
  deriving DecidableEq, Repr

/-- An update mirror (R319 to R323): its descriptor's number and bytes, parameter block, step parity and state-array
count inside them, blocks written locally, blocks sent, stream begun, header written locally, everything sent, a line
refused, the refused-write record made, and no longer in flight. -/
structure MirrorS where
  num : Nat
  q : QDesc
  parm : List Byte
  written : Nat
  sent : Nat
  started : Bool
  hdrDone : Bool
  last : Bool
  bad : Bool
  logged : Bool
  ended : Bool
  deriving DecidableEq, Repr

/-- The update unit beside its queue. -/
structure UpdUnitS where
  /-- The parameter block of the descriptor at the head of the update queue, once read (R286); none inside where its
  read failed. -/
  parm : Option (Option (List Byte))
  /-- The update descriptor that has begun and not written its header. -/
  cur : Option UpdS
  /-- The number of the next update descriptor begun. -/
  num : Nat
  /-- Update descriptors whose header is written and whose completion is due, and whether their add is withheld. -/
  fin : List (QDesc × Bool)
  mirrors : List MirrorS
  deriving DecidableEq, Repr

/-- A failing access of the porter or the clearing engine (R604): the packet, where it is a remote one. -/
structure EngFail where
  write : Bool
  addr : Nat
  cause : Nat
  attempts : Nat
  pkt : Option Packet
  deriving DecidableEq, Repr

/-- The porter's begun descriptor (R565 to R600): entries or rows done, the bag's number, whether the bag has begun, its
F32 sums and counting entries, the bag gradient read (F32 encodings), line pieces still to write, failing accesses,
halted, aborted, and whether the first failed row, the first non-finite bag and the first full ledger were noted. -/
structure PrtS where
  q : QDesc
  next : Nat
  bag : Nat
  opened : Bool
  acc : List Nat
  n : Nat
  g : List Nat
  outs : List (Nat × List Byte)
  fails : List EngFail
  halted : Bool
  abort : Bool
  accNoted : Bool
  invNoted : Bool
  fullNoted : Bool
  deriving DecidableEq, Repr

/-- The combine store of a cross (R662 to R671): contributions held, by entry, oldest first, and contributions that wait
for a piece. -/
structure CombS where
  held : List (Nat × Packet)
  waits : List Packet
  deriving DecidableEq, Repr

/-- A node of a reduction tree (R686 to R711): the tree's rank, the route record, rounds emitted per entry, own
positions sent, positions sent to the parent, emitted rounds that wait for credit with their positions, grants owed to
the children, rounds that earn a grant emitted so far, child inputs declared late, the deadline judged, when the oldest
round became the oldest, since when a credit is waited for, the node's part ended, entries whose flushed round is to be
discarded, positions of blocks not yet whole at the root (position, count, max-abs as F32), blocks written. -/
structure ClrNode where
  r : Nat
  rec' : List Byte
  laps : List Nat
  own : Nat
  up : Nat
  waits : List (Nat × Packet)
  owed : Nat
  elig : Nat
  late : List Nat
  judged : Bool
  oldestAt : Nat
  waitAt : Option Nat
  ended : Bool
  stale : List Nat
  got : List (Nat × Nat × Nat)
  written : Nat
  deriving DecidableEq, Repr

/-- A shard in direct form (R712 to R723), sent to a target or summed as the target: the shard's rank, the route record,
its backup partner serves it, blocks sent, and 0 blocks left, 1 header sent, 2 done. -/
structure ClrSlot where
  r : Nat
  rec' : List Byte
  down : Bool
  next : Nat
  phase : Nat
  deriving DecidableEq, Repr

/-- A clearing descriptor in flight: its number, its descriptor, when it began, its tree nodes, the slots it sends, the
shards it sums as the target, blocks or moves done (GATHER, PLACE, PERMUTE), the wait of a PERMUTE (0 fence, 1 older
REDUCEs, 2 arrival) and when it began, destinations whose arrival add is made, forced to its deadline (R734), events
raised (bits of CLR_EVENTS), completion add made, aborted, largest reduced max-abs (F32). -/
structure ClrOp where
  num : Nat
  q : QDesc
  began : Nat
  nodes : List ClrNode
  slots : List ClrSlot
  targets : List ClrSlot
  next : Nat
  phase : Nat
  since : Nat
  marks : List Nat
  forced : Bool
  noted : List Nat
  added : Bool
  abort : Bool
  gmax : Nat
  deriving DecidableEq, Repr

/-- What a failing access of the clearing engine belongs to: beginning the head descriptor, a packet, the own position of
a node, the write of a root's position, the end of a root's block, a block of a slot, the shards of a target, or the
blocks or moves of GATHER, PLACE and PERMUTE. -/
inductive ClrWhat where
  | begin
  | packet (r : Nat)
  | position (r : Nat)
  | rootPos (r p : Nat) (k : Packet)
  | rootEnd (r i : Nat)
  | slot (r : Nat)
  | target (r : Nat)
  | run
  deriving DecidableEq, Repr

/-- A failing access of the clearing engine: the descriptor's number, what it belongs to, the access. -/
structure ClrFail where
  num : Nat
  what : ClrWhat
  f : EngFail
  deriving DecidableEq, Repr

/-- The clearing engine beside its queue: descriptors in flight, oldest first; the next number; failing accesses; halted;
rounds handed to it while an access fails. -/
structure ClrS where
  ops : List ClrOp
  num : Nat
  fails : List ClrFail
  halted : Bool
  held : List Packet
  deriving DecidableEq, Repr

structure DieS where
  /-- The power domain of the die is on. -/
  power : Bool
  /-- PLLs that run or are starting, by bit: array, fabric, link, HBM, tier-2 (R945). -/
  pllRun : Nat
  /-- The array root is not stopped (R950 to R954). -/
  arrRoot : Bool
  /-- Queued descriptors of the update unit, the porter and the clearing engine (R280, R601, R679). -/
  updQ : List QDesc
  prtQ : List QDesc
  clrQ : List QDesc
  /-- Queued descriptors of die copy channels 0 to 15 (R514). -/
  chQ : List (List QDesc)
  u : UpdUnitS
  cp : CpyS
  prt : Option PrtS
  comb : CombS
  clr : ClrS
  /-- Operations queued at tally banks 0 to 7, oldest first. -/
  banks : List (List TallyOp)
  /-- Records were dropped since the last log record written (R1008). -/
  logDropped : Bool
  /-- R462 has ended on HBM and on tier 2. -/
  initDone : Bool
  /-- An invalidation of the row-cache tags is running (R505). -/
  rcInvalid : Bool
  /-- Address ranges that R324 protects: update descriptor number, first address, end. -/
  guards : List (Nat × Nat × Nat)
  /-- The repair queue, oldest first, up to 64 (R475). -/
  repair : List Nat
  /-- Tally waits of the die engines: unit (64 update, 65 porter, 66 clearing, 67 + c die channel c), tally, met. -/
  engWait : List (Nat × Nat × Bool)
  /-- Bank handovers that are triggered and have not taken effect: MEM block and bank (R415, R417). -/
  trig : List (Nat × Nat)
  /-- Packets sent and not acknowledged, oldest first (R641). -/
  track : List Track
  /-- Packets held while 4 096 are tracked (R641). -/
  heldPkts : List (Owner × Packet)
  /-- The next tracking tag. -/
  nextTag : Nat
  /-- When LNK_HB_KICK was last written (R766). -/
  kickAt : Nat
  deriving DecidableEq, Repr

/-- A die whose power domain is off. -/
def DieS.reset : DieS :=
  { power := false, pllRun := 0, arrRoot := false, updQ := [], prtQ := [], clrQ := [],
    chQ := List.replicate 16 [], u := { parm := none, cur := none, num := 0, fin := [], mirrors := [] }, cp := { chs := List.replicate 16 none, served := [] }, prt := none, comb := { held := [], waits := [] },
    clr := { ops := [], num := 0, fails := [], halted := false, held := [] },
    banks := [[], [], [], [], [], [], [], []], logDropped := false, initDone := false, rcInvalid := false, guards := [], repair := [], engWait := [], trig := [], track := [],
    heldPkts := [], nextTag := 0, kickAt := 0 }

/-! ## Haldif ports -/

/-- Training and time stamps of a port: it has trained before; lanes dead for errors (R629), by bit; lanes marked at
Detect, by bit open and by bit short; when a frame was last accepted; when it went down; when the last
heartbeat with alive 1 arrived, when one was last sent, since when the port is silent. -/
structure LinkS where
  trained : Bool
  errLanes : Nat
  openLanes : Nat
  shortLanes : Nat
  lastRx : Nat
  downAt : Nat
  hbAt : Nat
  hbSent : Nat
  silentAt : Nat
  deriving DecidableEq, Repr

def LinkS.reset : LinkS :=
  { trained := false, errLanes := 0, openLanes := 0, shortLanes := 0, lastRx := 0, downAt := 0, hbAt := 0, hbSent := 0,
    silentAt := 0 }

structure PortS where
  /-- Packets queued for output. -/
  txq : List Packet
  /-- The next sequence number sent (R617). -/
  seq : Nat
  /-- The replay buffer: data frames no ack covers, oldest first (R617). -/
  held : List FrameOut
  /-- The last data frame accepted from the far end (R618). -/
  lastSeq : Nat
  /-- nak was set since a data frame was last accepted (R619). -/
  nakSent : Bool
  /-- Credits spent per VC, modulo 16 384. -/
  spent : List Nat
  /-- Credits the far end has returned per VC, modulo 16 384. -/
  returned : List Nat
  /-- Credits returned to the far end per VC, modulo 16 384. -/
  given : List Nat
  /-- Bytes of a packet not yet whole (R636). -/
  rxbuf : List Byte
  /-- Side-channel messages not yet sent, oldest first, and bytes of one not yet received whole (R673). -/
  scq : List (List Byte)
  scIn : List Byte
  /-- Received side-channel messages queued for the wardens, oldest first (R676). -/
  scRx : List (List Byte)
  /-- The sequence number at which the last replay began, and consecutive replays from it (R621). -/
  replaySeq : Nat
  replays : Nat
  link : LinkS
  deriving DecidableEq, Repr

def PortS.reset : PortS :=
  { txq := [], seq := 0, held := [], lastSeq := 4095, nakSent := false, spent := [0, 0, 0, 0],
    returned := [0, 0, 0, 0], given := [0, 0, 0, 0], rxbuf := [], scq := [], scIn := [], scRx := [], replaySeq := 0,
    replays := 0, link := LinkS.reset }

/-! ## Failure and recovery (chapter 15) -/

/-- An accepted DECLARE (R777): the failed station, the generation, the coordinator's home word, when it was accepted,
whether step 5 of R782 has rewritten the route. -/
structure Decl where
  f : Nat
  gen : Nat
  coord : Nat
  since : Nat
  settled : Bool
  deriving DecidableEq, Repr

/-- What the wardens hold for failure detection and recovery: accepted DECLAREs; floods seen (type, src, gen); SUSPECTs
received (station, src, time) and sent (station, time); READYs (src, step) and DONEs (src, ships, rebuild) at the current
generation; coordinators whose RESUME is held; the replay step once RESTORE has come; when this reserve declared, and the
station it serves; whether its own shards were refreshed; the group reserve was found lost; BRK_CLR_XOR_SHORT of each die
when the rebuild began; neighbours answered with result 0, and the own JOIN answered so; stations taken without a
declaration. -/
structure FaultS where
  decls : List Decl
  seen : List (Nat × Nat × Nat)
  suspects : List (Nat × Nat × Nat)
  sent : List (Nat × Nat)
  readys : List (Nat × Nat)
  dones : List (Nat × Bool × Bool)
  resumes : List Nat
  step : Option Nat
  declaredAt : Option Nat
  serving : Option Nat
  refreshed : Bool
  reserveLost : Bool
  rebuild : Option (Nat × Nat)
  joins : List Nat
  joined : Bool
  scrubbed : Bool
  deriving DecidableEq, Repr

def FaultS.reset : FaultS :=
  { decls := [], seen := [], suspects := [], sent := [], readys := [], dones := [], resumes := [], step := none,
    declaredAt := none, serving := none, refreshed := false, reserveLost := false, rebuild := none, joins := [],
    joined := false, scrubbed := false }

/-! ## Pitches and Ethernet (chapter 16) -/

/-- What the steward holds of the pitch: the address and port of the last OFFER, the last reply sent and the tag of the
message it answered, the last seq sent, the not-after time, the plan generation offered, whether the plan is loaded, the
toll record's flags, when the counters were last written to flash, and the cause of an END that came in Recovery. -/
structure PitchS where
  peer : List Byte
  port : Nat
  reply : List Byte
  tag : List Byte
  sent : Nat
  notAfter : Nat
  planGen : Nat
  loaded : Bool
  served : Bool
  stopped : Bool
  skipped : Bool
  wroteAt : Nat
  endHeld : Option Nat
  deriving DecidableEq, Repr

def PitchS.reset : PitchS :=
  { peer := [], port := 0, reply := [], tag := [], sent := 0, notAfter := 0, planGen := 0, loaded := false,
    served := false, stopped := false, skipped := false, wroteAt := 0,
    endHeld := none }

/-- The open pitch as written to flash (R853): pitch id, its state, open time, the five state counters, energy, the time
of the write, the toll record's flags, the home station word and the station served. -/
structure OpenRec where
  pitch : Nat
  state : Nat
  openAt : Nat
  counts : List Nat
  energy : Nat
  time : Nat
  flags : Nat
  home : Nat
  served : Nat
  deriving DecidableEq, Repr

/-- The flash devices A and B beside the log ring: their bytes by device × 2^27 + offset (unlisted ones are erased, 0xFF),
the toll ring (newest last), the open-pitch record. -/
structure FlashS where
  bytes : List (Nat × Byte)
  tolls : List (List Byte)
  opened : Option OpenRec
  deriving DecidableEq, Repr

/-- An outgoing request of a queue pair that no acknowledgement covers: the number of its send-queue entry, its
operation, tally address, local address, remote address, key, length and data. -/
structure SqReq where
  entry : Nat
  tally : Nat
  loc : Nat
  op : Nat
  va : Nat
  key : Nat
  len : Nat
  data : List Byte
  deriving DecidableEq, Repr

/-- A queue pair: its partner, whether it is in the error state, requests sent and not acknowledged (oldest first), when
the oldest was last sent, resends without progress, its send rate in 65 536ths of line rate, when the rate last changed. -/
structure QpS where
  partner : Conn
  err : Bool
  out : List SqReq
  sentAt : Nat
  resends : Nat
  rate : Nat
  rateAt : Nat
  deriving DecidableEq, Repr

/-- An Ethernet port: open queue pairs by number; bytes in the receive buffer; whether it has sent pause; whether the
partner paused it; the pluggable is held in low power; the neighbour cache of the network (ports 0 and 4 hold it, R818),
newest last: IP and MAC address. -/
structure EthS where
  qps : List (Nat × QpS)
  held : Nat
  pausing : Bool
  paused : Bool
  lowPower : Bool
  nbr : List (List Byte × List Byte)
  deriving DecidableEq, Repr

def EthS.reset : EthS := { qps := [], held := 0, pausing := false, paused := false, lowPower := false, nbr := [] }

/-! ## Start-up, security, firmware (chapters 17 and 21) -/

/-- The furnish the steward holds from the last cold start: the identity part ([] when there is none) and the settings in
force, by number (R859, R871). -/
structure FurnS where
  ident : List Byte
  settings : List Nat
  deriving DecidableEq, Repr

/-- Start-up: a request of R861 waits for phase 6; phase 6 has ended; the warden firmware is loaded; Warm reserve follows
Ready; a start is held until a staging op ends (cold). -/
structure BootS where
  want : Bool
  up : Bool
  loaded : Bool
  warmNext : Bool
  restart : Option Bool
  deriving DecidableEq, Repr

def BootS.reset : BootS := { want := false, up := false, loaded := false, warmNext := false, restart := none }

/-- Security state: fuses that can change (epoch, pw_set, pw_hash); the last staged block programmed; the staging op that
runs and its block; the key block reserved since the start and the next of its indices; EV_SEC_KEY_LOW raised since the
start; the challenge that is not spent, and when it was drawn; when phase 5 ended; recovery mode; the JTAG instruction. -/
structure SecS where
  epoch : Nat
  pwSet : Bool
  pwHash : List Byte
  last : Option Nat
  op : Option (Nat × Nat)
  keyBlk : Option Nat
  keyNext : Nat
  lowSaid : Bool
  chalAt : Option Nat
  phase5 : Nat
  recovery : Bool
  ir : JtagIr
  deriving DecidableEq, Repr

def SecS.reset : SecS :=
  { epoch := 0, pwSet := false, pwHash := [], last := none, op := none, keyBlk := none, keyNext := 0, lowSaid := false,
    chalAt := none, phase5 := 0, recovery := false, ir := .idcode }

/-- A module the image is forwarded to: its port, whether it took FW_START, blocks sent, blocks acknowledged as good,
whether FW_DONE was sent, whether it stopped (R1033). -/
structure FwPeer where
  port : Nat
  started : Bool
  sent : Nat
  acked : Nat
  finished : Bool
  stopped : Bool
  deriving DecidableEq, Repr

/-- Firmware distribution (R1032 to R1034): the port the image comes from, the origin station, dirs, the header digest, the
bytes of the block being received, how many blocks are staged, the staging op that runs for it (1 a block, 3 finish,
4 activate), and the receivers it forwards to. -/
structure DistS where
  src : Option Nat
  origin : Nat
  dirs : Nat
  digest : List Byte
  buf : List Byte
  staged : Nat
  op : Option Nat
  peers : List FwPeer
  deriving DecidableEq, Repr

def DistS.reset : DistS :=
  { src := none, origin := 0, dirs := 0, digest := [], buf := [], staged := 0, op := none, peers := [] }

/-! ## Power, sensors, clocks, time (chapters 18, 19, 23) -/

/-- Power: current-sense offset of each rail; input power samples, newest first (in 10^-4 W, up to 10 000); energy not yet a
whole millijoule (in 10^-9 J); since when k_m stands at 4; droop ratios of die A and B; a rail fault
or failed PLL holds Standby until a cold start; V_in is low; SHUTDOWN_N is low; when each feed's switch opened; feeds
whose switches are open. -/
structure PwrS where
  offs : List Int
  hist : List Nat
  rem : Nat
  floorAt : Option Nat
  kdA : Nat
  kdB : Nat
  hold : Bool
  low : Bool
  shut : Bool
  opens : List (Nat × Nat)
  sw : List Nat
  deriving DecidableEq, Repr

def PwrS.reset : PwrS :=
  { offs := [], hist := [], rem := 0, floorAt := none, kdA := 16, kdB := 16, hold := false, low := false, shut := false,
    opens := [], sw := [] }

/-- Sensors: consecutive bad samples of inlet, outlet and flow, and consecutive good ones (R1067); whether flow, inlet and
outlet stand beyond their limit (1), within it (2) or neither (0), and since when (R1068, R1069); when the cable of a Haldif
port (0 to 15) or the pluggable of a cage (16 to 23) left (R1077). -/
structure SensS where
  bad : List Nat
  good : List Nat
  flow : Nat × Nat
  inlet : Nat × Nat
  outlet : Nat × Nat
  gone : List (Nat × Nat)
  deriving DecidableEq, Repr

def SensS.reset : SensS :=
  { bad := [0, 0, 0], good := [0, 0, 0], flow := (0, 0), inlet := (0, 0), outlet := (0, 0), gone := [] }

/-- Clocks: consecutive frequency windows within ref_ppm, consecutive good oscillator windows, lock losses (die, PLL,
time), and the CLKOUT setting in force. -/
structure ClkS where
  refGood : Nat
  oscGood : Nat
  losses : List (Nat × Nat × Nat)
  clkout : Word
  deriving DecidableEq, Repr

def ClkS.reset : ClkS := { refGood := 0, oscGood := 0, losses := [], clkout := 0 }

/-- The PTP exchange in hand (R821, R822): the master's departure stamp of Sync, the own receipt stamp of it, and the own
departure stamp of the delay request. -/
structure PtpS where
  t1 : Option Nat
  t2 : Option Nat
  t3 : Option Nat
  deriving DecidableEq, Repr

/-- Time: the slew left, in 1/200 ns (R966); the part of the fraction below 2^-32 ns, in 1/25 of it; consecutive
measurements within sync_ns; when one was last accepted; seq of the last TIME_REQ, and when it was sent; the PTP exchange
in hand. -/
structure TimeS where
  slew : Int
  rem : Nat
  run : Nat
  accAt : Nat
  seq : Nat
  sentAt : Nat
  ptp : PtpS
  deriving DecidableEq, Repr

def TimeS.reset : TimeS := { slew := 0, rem := 0, run := 0, accAt := 0, seq := 0, sentAt := 0, ptp := ⟨none, none, none⟩ }

/-! ## Module state -/

/-- The seven module states. -/
inductive ModState where
  | off | standby | warmReserve | ready | running | draining | recovery
  deriving DecidableEq, Repr

structure ModS where
  st : ModState
  /-- The steward's flash ring of log records, newest last (R1010). -/
  flashLog : List (List Word)
  /-- The plan loaded. -/
  plan : PlanS
  fault : FaultS
  pitch : PitchS
  flash : FlashS
  furn : FurnS
  boot : BootS
  sec : SecS
  dist : DistS
  pwr : PwrS
  sens : SensS
  clk : ClkS
  time : TimeS
  /-- Ethernet ports. -/
  eth : List (Nat × EthS)
  deriving DecidableEq, Repr

/-- No plan. -/
def PlanS.none : PlanS :=
  { gen := 0, regs := [], mem := [], tiles := [], tallies := [], restarts := [], perWin := 0, step0 := 0, job := [],
    mirrors := [], rebuilds := [], gathers := [], shards := [], runs := [], partners := [], copies := [] }

def ModS.reset : ModS :=
  { st := .off, flashLog := [], plan := PlanS.none, fault := FaultS.reset, pitch := PitchS.reset,
    flash := { bytes := [], tolls := [], opened := none }, furn := { ident := [], settings := [] }, boot := BootS.reset,
    sec := SecS.reset, dist := DistS.reset, pwr := PwrS.reset, sens := SensS.reset, clk := ClkS.reset,
    time := TimeS.reset, eth := [] }

/-! ## The whole state -/

structure State where
  /-- Every byte of tile SRAM, die pool, HBM and tier 2; unlisted bytes read 0 (DESIGN CHOICE, log entry 7). -/
  mem : List Host.Cell
  /-- Valid bits of on-chip 64-byte lines by line number (R428); unlisted lines are invalid. -/
  valid : List (Nat × Bool)
  /-- Register words by device address; unlisted ones hold their reset value. -/
  regs : List (Nat × Word)
  /-- Error patterns of stored external-memory code words (R447, R453); unlisted ones are clean. -/
  flaws : List (Nat × List Byte)
  loose : List Loose
  tiles : List (Nat × TileS)
  dies : List (Nat × DieS)
  ports : List (Nat × PortS)
  m : ModS
  waiting : List Waiting
  /-- Everything the module sent, newest last (the model's own view: DESIGN CHOICE, log entry 39). -/
  out : List Emit
  reply : Reply
  /-- Counter of the free values drawn (the model's own field; DESIGN CHOICE, log entry 4). -/
  free : Nat
  /-- Commands waiting, first in, first out. -/
  pending : List Instr
  deriving DecidableEq, Repr

/-- The module right after reset: Off, every register at its reset value, nothing listed (DESIGN CHOICE, log entry 8, for
state to which the manual gives no reset value). -/
def State.reset : State :=
  { mem := [], valid := [], regs := [], flaws := [], loose := [], tiles := [], dies := [], ports := [], m := ModS.reset,
    waiting := [], out := [], reply := .none, free := 0, pending := [] }

end Sys2Proof.Machine
end

