-- ==== Sys2Proof/Machine/Regs.lean ====
section
/-! DEFINITION. Named access to the parts of State: registers and their fields, tiles, dies, memory bytes, counters,
emissions, free values. -/

namespace Sys2Proof.Machine

/-- The register word at a device address. -/
def State.rd (s : State) (a : Nat) : Word := SMap.get resetWord s.regs a

/-- Set the register word at a device address. -/
def State.wr (s : State) (a : Nat) (w : Word) : State := { s with regs := SMap.set resetWord s.regs a w }

/-- The value of a register field. -/
def State.g (s : State) (a : Nat) (f : RF) : Nat := fld (s.rd a) f.lo f.w

/-- Set a register field. -/
def State.p (s : State) (a : Nat) (f : RF) (v : Nat) : State := s.wr a (setFld (s.rd a) f.lo f.w v)

/-- Whether a one-bit field is 1. -/
def State.on (s : State) (a : Nat) (f : RF) : Bool := s.g a f == 1

/-- The key of tile `t` of die `d` in State.tiles. -/
def tileKey (d t : Nat) : Nat := d * 64 + t

/-- Tile `t` of die `d`. -/
def State.tile (s : State) (d t : Nat) : TileS := SMap.get (fun _ => TileS.reset) s.tiles (tileKey d t)

/-- Replace tile `t` of die `d`. -/
def State.setTile (s : State) (d t : Nat) (x : TileS) : State :=
  { s with tiles := SMap.set (fun _ => TileS.reset) s.tiles (tileKey d t) x }

/-- Die `d`. -/
def State.die (s : State) (d : Nat) : DieS := SMap.get (fun _ => DieS.reset) s.dies d

/-- Replace die `d`. -/
def State.setDie (s : State) (d : Nat) (x : DieS) : State :=
  { s with dies := SMap.set (fun _ => DieS.reset) s.dies d x }

/-- Haldif port `q` (0 to 15). -/
def State.port (s : State) (q : Nat) : PortS := SMap.get (fun _ => PortS.reset) s.ports q

/-- Replace Haldif port `q`. -/
def State.setPort (s : State) (q : Nat) (x : PortS) : State :=
  { s with ports := SMap.set (fun _ => PortS.reset) s.ports q x }

/-- Replace the module-level part. -/
def State.setM (s : State) (m : ModS) : State := { s with m := m }

/-- One byte of memory. -/
def State.byte (s : State) (a : Nat) : Byte := SMap.get (fun _ => (0 : Byte)) s.mem a

/-- Set one byte of memory. -/
def State.setByte (s : State) (a : Nat) (b : Byte) : State :=
  { s with mem := SMap.set (fun _ => (0 : Byte)) s.mem a b }

/-- `n` bytes of memory from `a`. -/
def State.bytes (s : State) (a n : Nat) : List Byte := (List.range n).map (fun i => s.byte (a + i))

/-- Set consecutive bytes of memory from `a`. -/
def State.setBytes (s : State) (a : Nat) : List Byte → State
  | [] => s
  | b :: bs => (s.setByte a b).setBytes (a + 1) bs

/-- Make every byte that `p` selects read 0 (nothing listed). -/
def State.dropMem (s : State) (p : Nat → Bool) : State := { s with mem := SMap.drop p s.mem }

/-- Make every byte of a range read 0. -/
def State.zeroRange (s : State) (lo hi : Nat) : State := s.dropMem (fun a => decide (lo ≤ a ∧ a < hi))

/-- Put the registers that `p` selects at their reset values. -/
def State.dropRegs (s : State) (p : Nat → Bool) : State := { s with regs := SMap.drop p s.regs }

/-- Put the tiles, dies and ports that `p` selects at their reset values. -/
def State.forgetTiles (s : State) (p : Nat → Bool) : State := { s with tiles := SMap.drop p s.tiles }
def State.forgetDies (s : State) (p : Nat → Bool) : State := { s with dies := SMap.drop p s.dies }
def State.forgetPorts (s : State) (p : Nat → Bool) : State := { s with ports := SMap.drop p s.ports }

/-- Forget the error patterns that `p` selects. -/
def State.dropFlaws (s : State) (p : Nat → Bool) : State := { s with flaws := SMap.drop p s.flaws }

/-- Replace the ranges of open HBM contents, and the waiting accesses. -/
def State.setLoose (s : State) (l : List Loose) : State := { s with loose := l }
def State.setWaiting (s : State) (l : List Waiting) : State := { s with waiting := l }

/-- Whether on-chip line number `l` (address / 64) is valid (R428). -/
def State.lineValid (s : State) (l : Nat) : Bool := SMap.get (fun _ => false) s.valid l

/-- Set the valid bit of an on-chip line. -/
def State.setValid (s : State) (l : Nat) (v : Bool) : State :=
  { s with valid := SMap.set (fun _ => false) s.valid l v }

/-- Invalidate the on-chip lines that `p` selects. -/
def State.dropValid (s : State) (p : Nat → Bool) : State := { s with valid := SMap.drop p s.valid }

/-- Invalidate every on-chip line of an address range: its valid bits clear and its bytes read 0 (R429, R435). -/
def State.invalidate (s : State) (lo hi : Nat) : State :=
  (s.zeroRange lo hi).dropValid (fun l => decide (lo ≤ l * 64 ∧ l * 64 < hi))

/-- The error pattern stored under a code-word key. -/
def State.flaw (s : State) (k : Nat) : List Byte := SMap.get (fun _ => []) s.flaws k

/-- Set the error pattern stored under a code-word key; an all-zero pattern is none. -/
def State.setFlaw (s : State) (k : Nat) (e : List Byte) : State :=
  { s with flaws := SMap.set (fun _ => []) s.flaws k (if e.all (· == 0) then [] else e) }

/-- Send something out of the module. -/
def State.emitAll (s : State) (l : List Emit) : State := { s with out := s.out ++ l }
def State.emit (s : State) (e : Emit) : State := s.emitAll [e]

/-- Answer the requester. -/
def State.answer (s : State) (r : Reply) : State := { s with reply := r }

/-- Draw the next free value. -/
def State.draw (s : State) : Nat × State := (Config.freeNat s.free, { s with free := s.free + 1 })

/-- The largest of a set of magnitudes, kept as the largest of their F32 encodings: a NaN among them, for which the
manual states no order, leaves a free magnitude (DESIGN CHOICE, log entry 26). -/
def State.largest (s : State) (b : Nat) : XV × State :=
  if (f32.dec b).isNan then
    let (n, s1) := s.draw
    (f32.dec (n % 2 ^ 31), s1)
  else (f32.dec b, s)

/-- The time base (R963, R976). -/
def State.now (s : State) : Nat := (s.rd Reg.timeNow).toNat

/-! ## Counters (R983, R984) -/

/-- Add to a 64-bit counter, modulo 2^64 (R983). -/
def State.inc64 (s : State) (a n : Nat) : State := s.wr a (s.rd a + BitVec.ofNat 64 n)

/-- A 32-bit counter word after an increment: it holds at 0xFFFF_FFFF and sets sat (R984). -/
def satWord (w : Word) (n : Nat) : Word :=
  if fld w 0 32 + n ≤ 0xFFFFFFFF then setFld w 0 32 (fld w 0 32 + n)
  else setFld (setFld w 0 32 0xFFFFFFFF) 32 1 1

/-- Add to a 32-bit counter without its event. -/
def State.inc32 (s : State) (a n : Nat) : State := s.wr a (satWord (s.rd a) n)

/-- Whether an increment of a 32-bit counter makes its sat bit rise (R984). -/
def State.satRises (s : State) (a n : Nat) : Bool :=
  decide (fld (s.rd a) 32 1 = 0 ∧ 0xFFFFFFFF < fld (s.rd a) 0 32 + n)

/-- A list with element `i` replaced. -/
def setAt {α : Type} (l : List α) (i : Nat) (x : α) : List α := l.set i x

end Sys2Proof.Machine
end

