-- ==== Sys2Proof/Machine/AddrMap.lean ====
section
/-! DEFINITION. The device address map and the checks an access meets before it is served: R14 to R19, R404 to R413,
R432 to R434, R446 to R453, R478 to R484 and R490 to R493. -/

namespace Sys2Proof.Machine

/-- Where a device address falls (R14, R15). -/
inductive Rgn where
  | hbm (d off : Nat)
  | tr2 (d off : Nat)
  | sram (d t off : Nat)
  | acc (d t off : Nat)
  | wstore (d t off : Nat)
  | trace (d t off : Nat)
  | pool (d off : Nat)
  | reg (l : RegLoc)
  | unmapped
  deriving DecidableEq, Repr

/-- First address of the HBM range of a die (R14). -/
def hbmBase (d : Nat) : Nat := 0x6000000000 * d
/-- First address of the tier-2 range of a die (R14). -/
def tr2Base (d : Nat) : Nat := 0x10000000000 + 0xB400000000 * d
/-- First address of slot `t` of the SRAM span of a die (R15). -/
def slotBase (d t : Nat) : Nat := 0x400000000000 + 0x100000000 * d + 0x1000000 * t
/-- First address of the die pool (R15). -/
def poolBase (d : Nat) : Nat := slotBase d 64

/-- The region of an address of the SRAM span (R15). -/
def sramRgn (d o : Nat) : Rgn :=
  let t := o / 0x1000000
  let x := o % 0x1000000
  if t < 64 then
    if x < 0x300000 then .sram d t x
    else if x < 0x400000 then .acc d t (x - 0x300000)
    else if x < 0x440000 then .wstore d t (x - 0x400000)
    else if x < 0x444000 then .trace d t (x - 0x440000)
    else .unmapped
  else if t < 66 then .pool d (o - 0x1000000 * 64)
  else .unmapped

/-- The region of a device address (R14). -/
def rgnOf (a : Nat) : Rgn :=
  if a < 0xC000000000 then .hbm (a / 0x6000000000) (a % 0x6000000000)
  else if 0x10000000000 ≤ a ∧ a < 0x26800000000 then
    .tr2 ((a - 0x10000000000) / 0xB400000000) ((a - 0x10000000000) % 0xB400000000)
  else if 0x400000000000 ≤ a ∧ a < 0x400200000000 then
    sramRgn ((a - 0x400000000000) / 0x100000000) ((a - 0x400000000000) % 0x100000000)
  else match regLoc a with
    | some l => .reg l
    | none => .unmapped

/-- Whether a register block belongs to the module, not to a die. -/
def Blk.isModule : Blk → Bool
  | .pwr | .eth | .sec | .mgt | .mck | .time => true
  | _ => false

/-- Whether a register block is a tile block. -/
def Blk.isTile : Blk → Bool
  | .fwd | .bwd | .cnv | .wgh | .seq | .mem | .cpy | .obs | .gen => true
  | _ => false

/-- The die a region belongs to; none for module registers and unmapped addresses. -/
def Rgn.die : Rgn → Option Nat
  | .hbm d _ | .tr2 d _ | .pool d _ => some d
  | .sram d _ _ | .acc d _ _ | .wstore d _ _ | .trace d _ _ => some d
  | .reg l => if l.blk.isModule then none else some l.d
  | .unmapped => none

/-- The tile whose SRAM a region is. -/
def Rgn.tile : Rgn → Option (Nat × Nat)
  | .sram d t _ | .acc d t _ | .wstore d t _ | .trace d t _ => some (d, t)
  | _ => none

/-- The die a requester sits on; the module-level ones count as die A. -/
def Requester.die : Requester → Nat
  | .warden d _ | .seq d _ | .tileUnit d _ | .tileChan d _ _ | .dieChan d _ | .porter d | .clearing d | .update d
  | .link d => d.val
  | .roce e => if e.val < 4 then 0 else 1
  | .steward | .jtag => 0

/-- Whether JTAG reaches memory and registers: debug access is open (R16, R1046). -/
def State.jtagOpen (s : State) : Bool := s.on Reg.secStatus Reg.secStatus_dbg_open

/-- Whether R16 gives a requester a region. Register regions are reached by wardens, JTAG when reopened, and the
steward; the other requesters reach registers through tally operations and pushes only. -/
def reaches (s : State) (r : Requester) (g : Rgn) : Bool :=
  match r with
  | .warden _ _ => true
  | .jtag => s.jtagOpen || (match g with
    | .reg l => l.blk == .sec && (decide (0xB0 ≤ l.off ∧ l.off < 0xE0) || decide (0x1000 ≤ l.off ∧ l.off < 0x1C00))
    | _ => false)
  | .steward => match g with
    | .reg l => l.blk.isModule || l.blk == .clk || l.blk == .dob
    | _ => false
  | _ => match g with
    | .reg _ => false
    | _ => true

/-- The power domain of a die is on. -/
def State.dieOn (s : State) (d : Nat) : Bool := (s.die d).power

/-- The power domain of a tile is on (R914): its die is on and its PWR_TILE_ON bit is 1. -/
def State.tileOn (s : State) (d t : Nat) : Bool := s.dieOn d && (s.rd (Reg.pwrTileOn d)).getLsbD t

/-- Whether R19, R432 or R434 refuses an access to a region. -/
def unreachable (s : State) (g : Rgn) : Bool :=
  match g with
  | .reg l =>
      if l.blk.isModule then false
      else !s.dieOn l.d || (l.blk.isTile && l.blk != .mem && l.blk != .obs && !s.tileOn l.d l.t)
  | .unmapped => false
  | .hbm d _ | .tr2 d _ | .pool d _ => !s.dieOn d
  | .sram d t _ | .acc d t _ | .wstore d t _ | .trace d t _ => !s.tileOn d t

/-! ## Region map (R478 to R483) and the row-cache carve (R490 to R493) -/

/-- The attributes of a 2 MiB page. -/
structure PageAttr where
  read : Bool
  write : Bool
  prefetch : Bool
  cls : Nat
  cache : Bool
  deriving DecidableEq, Repr

/-- The attributes of a page that no valid entry covers (R480). -/
def PageAttr.default : PageAttr := ⟨true, true, false, 0, false⟩

/-- The attributes an entry's attribute word spells (R508). -/
def attrOf (w : Word) : PageAttr :=
  ⟨fld w 1 1 == 1, fld w 2 1 == 1, fld w 3 1 == 1, fld w 4 2, fld w 6 1 == 1⟩

/-- Whether entry `n` of a die's region map is valid and covers a page (R478). -/
def covers (s : State) (d n page : Nat) : Bool :=
  s.on (Reg.mapRegionAttr d n) Reg.mapRegionAttr_valid &&
  decide (s.g (Reg.mapRegionRange d n) Reg.mapRegionRange_base_page ≤ page ∧
    page < s.g (Reg.mapRegionRange d n) Reg.mapRegionRange_base_page
      + s.g (Reg.mapRegionRange d n) Reg.mapRegionRange_npages)

/-- The numbers of the entries whose attribute word is listed in State, ascending: no other entry is valid. -/
def listedEntries (s : State) (d : Nat) : List Nat :=
  (s.regs.filter (fun e => decide (Reg.mapRegionAttr d 0 ≤ e.1 ∧ e.1 < Reg.mapRegionAttr d 256) &&
    (e.1 - Reg.mapRegionAttr d 0) % 16 == 0)).map (fun e => (e.1 - Reg.mapRegionAttr d 0) / 16)

/-- The attributes that govern an external-memory address: those of the lowest-numbered valid entry that covers its
page (R479, R480). -/
def pageAttr (s : State) (d a : Nat) : PageAttr :=
  match (listedEntries s d).find? (fun n => covers s d n (a / 0x200000)) with
  | some n => attrOf (s.rd (Reg.mapRegionAttr d n))
  | none => PageAttr.default

/-- Carve size of a die in GiB (R490). -/
def carveGib (s : State) (d : Nat) : Nat := s.g (Reg.mapRcCfg d) Reg.mapRcCfg_rc_gib

/-- First address of a carve of `k` GiB on a die (R490). -/
def carveBase (d k : Nat) : Nat := hbmBase d + 0x6000000000 - 0x40000000 * k

/-- Whether an address lies in its die's carve. -/
def inCarve (s : State) (a : Nat) : Bool :=
  match rgnOf a with
  | .hbm d _ => decide (carveGib s d ≠ 0 ∧ carveBase d (carveGib s d) ≤ a)
  | _ => false

/-- The sets of the row cache (R492). -/
def rcSets (k : Nat) : Nat := 130048 * k
/-- Address of the tag line of a set (R493). -/
def rcTagAddr (d k set : Nat) : Nat := carveBase d k + 64 * set
/-- Address of a way of a set (R493). -/
def rcWayAddr (d k set way : Nat) : Nat := carveBase d k + 0x800000 * k + 512 * (16 * set + way)

/-! ## Bank ownership (R409 to R413) -/

/-- The die, MEM block and bank index (24: die-pool bank) of an owned bank; none elsewhere. -/
def Rgn.bank : Rgn → Option (Nat × Nat × Nat)
  | .sram d t off => some (d, t, off / 0x20000)
  | .pool d off => some (d, off / 0x80000, 24)
  | _ => none

/-- The owner kind and id a requester needs in order to write bank `b` of MEM block `t` of die `d` (R409). -/
def needKind (r : Requester) (d t b : Nat) : Nat × Nat :=
  match r with
  | .warden _ _ | .jtag | .steward => (4, 0)
  | .seq d' t' | .tileUnit d' t' | .tileChan d' t' _ =>
      if b < 24 ∧ d'.val = d ∧ t'.val = t then (1, 0) else (2, d'.val * 64 + t'.val)
  | .update d' => (3, 128 * d'.val)
  | .porter d' => (3, 128 * d'.val + 1)
  | .clearing d' => (3, 128 * d'.val + 2)
  | .dieChan d' _ => (3, 128 * d'.val + 3)
  | .link _ | .roce _ => (5, 0)

/-- Whether a requester owns a bank: a tile's own units also own a bank handed to their tile by number (R409). -/
def owns (r : Requester) (d t b kind id : Nat) : Bool :=
  decide ((kind, id) = needKind r d t b) ||
  match r with
  | .tileUnit d' t' | .tileChan d' t' _ => decide (kind = 2 ∧ id = d'.val * 64 + t'.val)
  | _ => false

/-- Whether R411 or R413 lets a requester write a region; a bank whose handover is triggered takes no write of its
old owner (R417). The accumulator buffer, the weight store and external
memory have no owner. -/
def ownerAllows (s : State) (r : Requester) (g : Rgn) : Bool :=
  match g with
  | .trace _ _ _ => false
  | _ => match g.bank with
    | none => true
    | some (d, t, b) => !(s.die d).trig.contains (t, b) && owns r d t b (s.g (Reg.memBankOwn d t b) Reg.memBankOwn_kind)
        (s.g (Reg.memBankOwn d t b) Reg.memBankOwn_id)

/-- The checks of R484 up to ownership, in its order, on a demand access; none where none refuses. -/
def checkAccess (s : State) (r : Requester) (write : Bool) (a : Nat) : Option AccErr :=
  let g := rgnOf a
  if g = .unmapped then some .unmapped
  else if !reaches s r g then some .denied
  else if unreachable s g then some .unreachable
  else match g with
    | .hbm d _ | .tr2 d _ =>
        if inCarve s a then some .rcReserved
        else if write then (if (pageAttr s d a).write then none else some .mapDenied)
        else if (pageAttr s d a).read then none else some .mapDenied
    | _ => if write && !ownerAllows s r g then some .notOwner else none

end Sys2Proof.Machine
end

