-- ==== Sys2Proof/Machine/Events.lean ====
section
/-! DEFINITION. Events and records: the events registers, the event log, the flash ring, trace records, request-line
counters and saturating counters (R984, R998 to R1011, R529, R530). -/

namespace Sys2Proof.Machine

/-- An event: block id, events register of the block and bit in it (R1004). -/
structure Ev where
  blk : Nat
  idx : Nat
  bit : Nat
  deriving DecidableEq, Repr

/-- The 16-bit code of an event (R1004). -/
def Ev.code (e : Ev) : Nat := 256 * e.blk + e.idx * 64 + e.bit

/-- Where an event is raised. `sub` is a controller or a local port of a die. -/
inductive EvAt where
  | tile (d t : Nat)
  | die (d : Nat)
  | sub (d k : Nat)
  | eth (p : Nat)
  | module
  deriving DecidableEq, Repr

/-- The events register of an event; none for a warden event and for a record without an event. -/
def evReg (e : Ev) (at' : EvAt) : Option Nat :=
  if e.idx = 3 then none else
  match at' with
  | .tile d t => match e.blk with
    | 0x01 => some (Reg.fwdEvents d t) | 0x02 => some (Reg.bwdEvents d t) | 0x03 => some (Reg.cnvEvents d t)
    | 0x04 => some (Reg.wghEvents d t) | 0x05 => some (Reg.seqEvents d t) | 0x06 => some (Reg.memEvents d t)
    | 0x07 => some (Reg.cpyEvents d t) | 0x08 => some (Reg.obsEvents d t) | 0x09 => some (Reg.genEvents d t)
    | _ => none
  | .die d => match e.blk with
    | 0x10 => some (Reg.tlyEvents d) | 0x11 => some (Reg.updEvents d) | 0x14 => some (Reg.mapEvents d)
    | 0x15 => if e.idx = 0 then some (Reg.lnkEvents d) else some (Reg.lnkFltEvents d)
    | 0x16 => some (Reg.clrEvents d) | 0x17 => some (Reg.prtEvents d) | 0x18 => some (Reg.dcpEvents d)
    | 0x19 => some (Reg.clkEvents d) | 0x1A => some (Reg.dobEvents d) | _ => none
  | .sub d k => match e.blk with
    | 0x12 => some (Reg.hbmEvents d k) | 0x13 => some (Reg.tr2Events d k) | 0x15 => some (Reg.lnkPortEvents d k)
    | _ => none
  | .eth p => some (Reg.ethPortEvents p)
  | .module => match e.blk with
    | 0x20 => some Reg.pwrEvents | 0x21 => some Reg.ethEvents | 0x22 => some Reg.secEvents
    | 0x23 => if e.idx = 0 then some Reg.mgtEvents else some Reg.mgtSensEvents
    | 0x24 => some Reg.mckEvents | 0x25 => some Reg.timeEvents | _ => none

/-- The die whose log an event enters (R1006), and the module-wide tile number of a tile event. -/
def EvAt.dieNo : EvAt → Nat
  | .tile d _ | .die d | .sub d _ => d
  | .eth _ | .module => 0

/-- The tile field of a log record (R1005). -/
def EvAt.tileNo : EvAt → Nat
  | .tile d t => d * 64 + t
  | _ => 0xFF

/-- What a record says beside its code (R1005). -/
structure Info where
  source : Nat := 0
  exc : Bool := false
  issue : Nat := 0
  mark : Nat := 0
  layer : Nat := 0
  pass : Nat := 0
  mb : Nat := 0
  detail : List Word := []
  deriving DecidableEq, Repr

/-- The eight words of a log record (R1005). -/
def logWords (s : State) (e : Ev) (at' : EvAt) (i : Info) (dropped : Bool) : List Word :=
  [BitVec.ofNat 64 (e.code + 2 ^ 16 * i.source + (if i.exc then 2 ^ 24 else 0) + (if dropped then 2 ^ 25 else 0)
      + 2 ^ 32 * s.g (Reg.lnkStation at'.dieNo) Reg.lnkStation_station + 2 ^ 48 * at'.tileNo + 2 ^ 56 * at'.dieNo),
   BitVec.ofNat 64 s.now,
   BitVec.ofNat 64 (i.issue % 2 ^ 32 + 2 ^ 32 * (i.mark % 2 ^ 16) + 2 ^ 48 * (i.layer % 2 ^ 16)),
   BitVec.ofNat 64 (i.pass % 2 ^ 48 + 2 ^ 48 * (i.mb % 2 ^ 16))] ++ padTo 0 4 i.detail

/-- The bytes of words, little-endian (R3). -/
def wordsBytes (ws : List Word) : List Byte := ws.flatMap (fun w => leBytes 8 w.toNat)

/-- Set a list of consecutive register words. -/
def State.wrWords (s : State) (a : Nat) : List Word → State
  | [] => s
  | w :: ws => (s.wr a w).wrWords (a + 8) ws

/-- Set a bit of a register word. -/
def State.setBit (s : State) (a i : Nat) : State := s.p a ⟨i, 1⟩ 1

/-- Add one request to a request-line counter; true when it was full and the request is dropped (R529, R530). -/
def State.lineRaw (s : State) (die : Bool) (d t l : Nat) : Bool × State :=
  let a := if die then Reg.dcpReq d (l / 8) else Reg.cpyReq d t (l / 8)
  let f : RF := ⟨8 * (l % 8), 8⟩
  if s.g a f = 255 then (true, s) else (false, s.p a f (s.g a f + 1))

/-- Write a record into a tile or pool or external byte range without any check (the trace logic's and the log's own
writes): lines become valid and uncovered bytes of invalid lines stay zero (R437). -/
def State.rawWrite (s : State) (a : Nat) (bs : List Byte) : State :=
  let s1 := s.setBytes a bs
  match rgnOf a with
  | .sram _ _ _ | .acc _ _ _ | .wstore _ _ _ | .trace _ _ _ | .pool _ _ => s1.setValid (a / 64) true
  | _ => s1

/-- Put one record into a die's log: DOB_LOG_LAST always (R1009); the ring while enabled (R1007), where a full quarter
or a refused write drops it (R1008), and CNT_LOG_DROP may saturate, whose record is dropped too (R984). `fuel` bounds the
record of EV_LOG_LOST itself (DEDUCED, log entry 23). -/
def State.logPut (s : State) (d : Nat) (e : Ev) (at' : EvAt) (i : Info) : Nat → State
  | 0 => s.wrWords (Reg.dobLogLast d 0) (logWords s e at' i false)
  | fuel + 1 =>
    let rec' := logWords s e at' i (s.die d).logDropped
    let s1 := s.wrWords (Reg.dobLogLast d 0) rec'
    if s.on (Reg.dobLogCtl d) Reg.dobLogCtl_en then
      let slot := s.g (Reg.dobLogStat d) Reg.dobLogStat_slot
      let a := s.g (Reg.dobLogCtl d) Reg.dobLogCtl_base + 64 * slot
      if (s.g (Reg.dobLogStat d) Reg.dobLogStat_full).testBit (slot / 64) ||
          (checkAccess s (.warden (Fin.ofNat 2 d) 0) true a).isSome then
        let s2 := (s1.inc32 (Reg.dobCnt32 d 119) 1).setDie d { s1.die d with logDropped := true }
        let s3 := if s1.satRises (Reg.dobCnt32 d 119) 1 then
            (s2.setBit (Reg.dobEvents d) 5).wrWords (Reg.dobLogLast d 0)
              (logWords s2 ⟨0x1A, 0, 5⟩ (.die d) { detail := [BitVec.ofNat 64 (0x1A + 256 * 119)] } true)
          else s2
        if s3.on (Reg.dobEvents d) Reg.dobEvents_log_lost then s3
        else (s3.p (Reg.dobEvents d) Reg.dobEvents_log_lost 1).logPut d ⟨0x1A, 0, 6⟩ (.die d) {} fuel
      else
        let s2 := (s1.rawWrite a (wordsBytes rec')).setDie d { s1.die d with logDropped := false }
        let s3 := s2.p (Reg.dobLogStat d) Reg.dobLogStat_slot ((slot + 1) % 256)
        if slot % 64 = 63 then
          ((s3.setBit (Reg.dobLogStat d) (8 + slot / 64)).lineRaw true d 0 0).2
        else s3
    else s1

/-- The block ids and flags the steward copies into its flash ring of 65 536 records (R1010). -/
def State.flashPut (s : State) (e : Ev) (at' : EvAt) (i : Info) : State :=
  if (0x20 ≤ e.blk ∧ e.blk ≤ 0x30) ∨ i.exc then
    let ring := s.m.flashLog ++ [logWords s e at' i false]
    s.setM { s.m with flashLog := ring.drop (ring.length - 65536) }
  else s

/-- Record an event or exception record: the log of its die while that die is on, and the flash ring (R1006). -/
def State.logRec (s : State) (e : Ev) (at' : EvAt) (i : Info) : State :=
  (if s.dieOn at'.dieNo then s.logPut at'.dieNo e at' i 1 else s).flashPut e at' i

/-- The 32 bytes of a trace record (R998). -/
def traceBytes (s : State) (kind code mark issue v1 v2 : Nat) : List Byte :=
  leBytes 1 kind ++ leBytes 1 code ++ leBytes 2 mark ++ leBytes 4 issue ++ leBytes 8 s.now ++ leBytes 8 v1 ++
    leBytes 8 v2

/-- Write one trace record into its slot (R999 to R1002); true when a record was dropped. -/
def State.tracePut (s : State) (d t kind code mark issue v1 v2 : Nat) : Bool × State :=
  if !(s.g (Reg.obsTraceCtl d t) Reg.obsTraceCtl_kinds).testBit (kind - 1) || !s.tileOn d t then (false, s) else
  let slot := s.g (Reg.obsTraceStat d t) Reg.obsTraceStat_slot
  let full := (s.g (Reg.obsTraceStat d t) Reg.obsTraceStat_full).testBit (slot / 128)
  let s0 := if full then s.inc64 (Reg.obsCnt64 d t 28) 1 else s
  if full && s.on (Reg.obsTraceCtl d t) Reg.obsTraceCtl_stop then (true, s0) else
  let s1 := s0.rawWrite (slotBase d t + 0x440000 + slot * 32) (traceBytes s kind code mark issue v1 v2)
  let s2 := s1.p (Reg.obsTraceStat d t) Reg.obsTraceStat_slot ((slot + 1) % 512)
  let s3 := if slot % 128 = 127 then
      ((s2.setBit (Reg.obsTraceStat d t) (9 + slot / 128)).lineRaw false d t 0).2 else s2
  (full, s3)

/-- Write a trace record; the first drop since trace_lost was last 0 raises EV_TRACE_LOST (R1002). -/
def State.trace (s : State) (d t kind code mark issue v1 v2 : Nat) : State :=
  let (dropped, s1) := s.tracePut d t kind code mark issue v1 v2
  if dropped && !s1.on (Reg.obsEvents d t) Reg.obsEvents_trace_lost then
    (((s1.p (Reg.obsEvents d t) Reg.obsEvents_trace_lost 1).logRec ⟨0x08, 0, 1⟩ (.tile d t) {}).tracePut d t 6 0 0 0
      0x0801 0).2
  else s1

/-- Raise an event: its W1C bit is set, its record enters the log, and a tile event also the trace (R1003, R998). -/
def State.raise (s : State) (e : Ev) (at' : EvAt) (i : Info := {}) : State :=
  let s1 := match evReg e at' with
    | some a => s.setBit a e.bit
    | none => s
  let i' := match at' with
    | .tile d t => { i with pass := s.g (Reg.seqPass d t) Reg.seqPass_pass }
    | _ => i
  let s2 := s1.logRec e at' i'
  match at' with
  | .tile d t => s2.trace d t 6 0 i.mark i.issue e.code 0
  | _ => s2

/-- Write a record to the exception log that belongs to no event (R1004). -/
def State.record (s : State) (e : Ev) (at' : EvAt) (i : Info) : State := s.logRec e at' { i with exc := true }

/-- EV_CNT_SAT of a block: the tile's OBS events, or the die's DOB events for DOB, ETH, PWR and MCK counters. -/
def State.satEvent (s : State) (at' : EvAt) (blkId j : Nat) : State :=
  let i : Info := { detail := [BitVec.ofNat 64 (blkId + 256 * j)] }
  match at' with
  | .tile d t => s.raise ⟨0x08, 0, 0⟩ (.tile d t) i
  | _ => s.raise ⟨0x1A, 0, 5⟩ (.die at'.dieNo) i

/-- Bump the operation counters of a tile that follow counter `i` of group `grp` (0: 64-bit, 1: 32-bit) by `n`
(R989). -/
def State.opcBump (s : State) (d t grp i n : Nat) : State :=
  let x := s.tile d t
  let w := s.rd (Reg.obsOpcCfg d t)
  let opc' := (List.range 4).map (fun k =>
    let (v, tag) := x.opc.getD k (0, 0)
    if fld w (8 * k) 6 = i ∧ fld w (8 * k + 6) 1 = grp ∧ fld w (8 * k + 7) 1 = 1 then ((v + n) % 2 ^ 64, tag)
    else (v, tag))
  if opc' = x.opc then s else s.setTile d t { x with opc := opc' }

/-- Count `n` on 64-bit counter `i` of a tile (R988). -/
def State.cnt (s : State) (d t i n : Nat) : State :=
  if n = 0 then s else (s.inc64 (Reg.obsCnt64 d t i) n).opcBump d t 0 i n

/-- Count `n` on 32-bit counter `j` of a tile (R988, R984). -/
def State.brk (s : State) (d t j n : Nat) : State :=
  if n = 0 then s else
  let a := Reg.obsCnt32 d t j
  let s1 := (s.inc32 a n).opcBump d t 1 j n
  if s.satRises a n then s1.satEvent (.tile d t) 0x08 j else s1

/-- Count `n` on 64-bit counter `i` of a die. -/
def State.dcnt (s : State) (d i n : Nat) : State := if n = 0 then s else s.inc64 (Reg.dobCnt64 d i) n

/-- Count `n` on 32-bit counter `j` of a die. -/
def State.dbrk (s : State) (d j n : Nat) : State :=
  if n = 0 then s else
  let a := Reg.dobCnt32 d j
  let s1 := s.inc32 a n
  if s.satRises a n then s1.satEvent (.die d) 0x1A j else s1

/-- Count `n` on a 32-bit counter of a module block. -/
def State.mbrk (s : State) (a blkId j n : Nat) : State :=
  if n = 0 then s else
  let s1 := s.inc32 a n
  if s.satRises a n then s1.satEvent .module blkId j else s1

/-- A request on request line `l` of a tile, or of a die: counted up to 255, beyond which it is dropped, counted and
raised (R529, R530). -/
def State.request (s : State) (die : Bool) (d t l : Nat) : State :=
  let (ovf, s1) := s.lineRaw die d t l
  if ovf then
    if die then (s1.dbrk d (56 + l) 1).raise ⟨0x18, 0, 3⟩ (.die d) { source := l }
    else (s1.brk d t (22 + l) 1).raise ⟨0x07, 0, 3⟩ (.tile d t) { source := l }
  else s1

end Sys2Proof.Machine
end

