-- ==== Sys2Proof/Machine/ExtMem.lean ====
section
/-! DEFINITION. External memory: address decode into stacks and packages, code words, correctable and uncorrectable
errors, replacement by data class, the repair queue (R446 to R457, R468 to R477). -/

namespace Sys2Proof.Machine

/-- The HBM controller of an offset in a die's HBM range (R446). -/
def hbmStack (off : Nat) : Nat := (off / 256 % 8) ^^^ (off / 2048 % 8)
/-- The address within its stack (R446). -/
def hbmStackAddr (off : Nat) : Nat := 256 * (off / 2048) + off % 256

/-- The tier-2 package of an offset (R450). -/
def tr2Pkg (off : Nat) : Nat := off / 256 % 12
/-- The physical granule of an offset in its package (R450). -/
def tr2Gran (off : Nat) : Nat := 16 * (off / 256 / 12 / 15) + off / 256 / 12 % 15
/-- The physical address of an offset in its package (R450). -/
def tr2Phys (off : Nat) : Nat := 256 * tr2Gran off + off % 256
/-- The number of a data line in its code group (R451). -/
def tr2LineNo (off : Nat) : Nat := 4 * (tr2Gran off % 16) + off % 256 / 64

/-- The device offset of data line `i` of code group `n` of package `p`: the inverse of R450 and R451. -/
def tr2LineOff (p n i : Nat) : Nat := 256 * ((15 * n + i / 4) * 12 + p) + i % 4 * 64

/-- Keys of error patterns: an HBM code word and a tier-2 data line by device address, a tier-2 check line above the
device address space by die, package, group and line. -/
def chkKey (d p n k : Nat) : Nat := 2 ^ 48 + ((2 ^ 24 * (d * 12 + p) + n) * 4 + k)

/-- The replacement of a 64-byte line by data class (R471, R472). -/
def replacement (cls a : Nat) : List Byte :=
  match cls with
  | 1 => (List.range 64).map (fun i => if i % 4 = 2 then 0xC0 else if i % 4 = 3 then 0x7F else 0)
  | 2 => List.replicate 64 (if a % 0x200000 / 64 < 32760 ∧ a % 0x200000 / 64 % 9 = 0 then 0xFF else 0)
  | _ => List.replicate 64 0

/-- Place an uncorrectable line's address in the repair queue of 64 entries (R475, R476). -/
def State.repairPush (s : State) (d a : Nat) : State :=
  let x := s.die d
  if x.repair.length < 64 then s.setDie d { x with repair := x.repair ++ [a] }
  else (s.p (Reg.mapRepairStat d) Reg.mapRepairStat_overflow 1).raise ⟨0x14, 0, 3⟩ (.die d)

/-- Count and log `n` uncorrectable code words of a line (R474): `tier2`, controller, class and source. -/
def State.ueReport (s : State) (tier2 : Bool) (d ctl a cls src : Nat) : Nat → State
  | 0 => s
  | n + 1 =>
    let w : Word := BitVec.ofNat 64 (a % 2 ^ 48 + 2 ^ 48 * cls + 2 ^ 50 * src)
    let i : Info := { source := ctl, exc := true, detail := [w] }
    let s1 := if tier2 then (((s.dbrk d 11 1).wr (Reg.tr2UeLast d ctl) w).raise ⟨0x13, 0, 0⟩ (.sub d ctl) i)
      else (((s.dbrk d 10 1).wr (Reg.hbmUeLast d ctl) w).raise ⟨0x12, 0, 0⟩ (.sub d ctl) i)
    s1.ueReport tier2 d ctl a cls src n

/-- Apply physical upsets: error patterns XORed onto stored code words. -/
def State.upsets (s : State) : List Upset → State
  | [] => s
  | u :: us =>
    let a := u.addr.toNat
    let add (k : Nat) (n : Nat) : State :=
      s.setFlaw k ((List.range n).map (fun i => (s.flaw k).getD i 0 ^^^ u.pattern.getD i 0))
    (match rgnOf a with
      | .hbm _ _ => add (a - a % 32) 36
      | .tr2 d off =>
          if u.check then add (chkKey d (tr2Pkg off) (tr2Gran off / 16) (tr2LineNo off / 15)) 64
          else add (a - a % 64) 64
      | _ => s).upsets us

/-- XOR an error pattern into stored bytes: what an undetected or rebuilt error leaves as data. -/
def State.burn (s : State) (a : Nat) (e : List Byte) : State :=
  if e.all (· == 0) then s else s.setBytes a (xorBytes (s.bytes a e.length) e)

/-- How one code word read: its bytes as delivered, whether it was corrected, whether it is uncorrectable. -/
structure WordRead where
  bad : Bool
  fixed : Bool
  data : List Byte
  deriving DecidableEq, Repr

/-- Read one 32-byte HBM code word. A corrected word is written back unless `wb` is false (R468, R469). -/
def State.readHbmWord (s : State) (a : Nat) (wb : Bool) : WordRead × State :=
  let raw := s.bytes a 32
  match eccDecode 36 (s.flaw a) with
  | .clean e => (⟨false, false, xorBytes raw (e.take 32)⟩, s)
  | .corrected e =>
      (⟨false, true, xorBytes raw (e.take 32)⟩, if wb then (s.burn a (e.take 32)).setFlaw a [] else s)
  | .uncorrectable => (⟨true, false, xorBytes raw ((padTo 0 36 (s.flaw a)).take 32)⟩, s)

/-- Rebuild a tier-2 check line from its 15 data lines as they stand (R456): their errors become data. -/
def State.rebuildCheck (s : State) (d p n k : Nat) : Nat → State
  | 0 => s.setFlaw (chkKey d p n k) []
  | m + 1 =>
    let a := tr2Base d + tr2LineOff p n (15 * k + m)
    ((s.burn a (padTo 0 64 (s.flaw a))).setFlaw a []).rebuildCheck d p n k m

/-- Judge a tier-2 check line read: corrected and written back, or rebuilt (R456, R468); true when it was rebuilt. -/
def State.readCheck (s : State) (d p n k : Nat) (wb : Bool) : Bool × State :=
  match eccDecode 64 (s.flaw (chkKey d p n k)) with
  | .clean _ => (false, s)
  | .corrected e => (false, (if wb then s.setFlaw (chkKey d p n k) e else s).dbrk d 9 1)
  | .uncorrectable =>
      (true, (((s.rebuildCheck d p n k 15).dbrk d 11 1).dbrk d 12 1).raise ⟨0x13, 0, 1⟩ (.sub d p)
        { source := p })

/-- Read one tier-2 data line with its check bytes (R452, R453, R457). -/
def State.readTr2Word (s : State) (d off : Nat) (wb : Bool) : WordRead × State :=
  let a := tr2Base d + off
  let p := tr2Pkg off
  let n := tr2Gran off / 16
  let i := tr2LineNo off
  let pre := xorBytes (s.bytes a 64) (padTo 0 64 (s.flaw a))
  let (rebuilt, s1) := s.readCheck d p n (i / 15) true
  if rebuilt then (⟨false, false, pre⟩, s1)
  else
    let chk := ((padTo 0 64 (s1.flaw (chkKey d p n (i / 15)))).drop (4 * (i % 15))).take 4
    match eccDecode 68 (padTo 0 64 (s1.flaw a) ++ chk) with
    | .clean e => (⟨false, false, xorBytes (s1.bytes a 64) (e.take 64)⟩, s1)
    | .corrected e =>
        (⟨false, true, xorBytes (s1.bytes a 64) (e.take 64)⟩,
          if wb then ((s1.burn a (e.take 64)).setFlaw a []) else s1)
    | .uncorrectable => (⟨true, false, pre⟩, s1)

/-- Whether an HBM line's contents are ones the manual leaves open (R506, R1089). -/
def State.looseAt (s : State) (a : Nat) : Option Nat :=
  (s.loose.reverse.find? (fun l => decide (l.lo ≤ a ∧ a < l.hi) && !l.written.contains (a / 64))).map (·.epoch)

/-- Note that a line was written: its contents are no longer open. -/
def State.tighten (s : State) (a : Nat) : State :=
  if s.loose = [] then s
  else s.setLoose (s.loose.map (fun l =>
    if l.lo ≤ a ∧ a < l.hi ∧ !l.written.contains (a / 64) then { l with written := (a / 64) :: l.written } else l))

/-- The contents of an HBM line the manual leaves open: a free value until it is written. R1089 bounds it to zeros, a
copy of a tier-2 line of the die as it once stood, or a tag line; the model does not use the bound (DEDUCED, log entry 12). -/
def looseLine (a epoch : Nat) : List Byte := leBytes 64 (Config.freeNat (2 ^ 64 + 2 ^ 48 * epoch + a))

/-- Read one 64-byte line of external memory as a controller does, for a source of R507 (0 demand, 1 patrol,
2 run-ahead, 3 row-cache fill): the bytes as stored and corrected, and whether an uncorrectable code word lies in it.
Errors are counted and logged (R468, R474). -/
def State.readExt (s : State) (a cls src : Nat) (wb : Bool) (linkBad : Bool) : (Bool × List Byte) × State :=
  match rgnOf a with
  | .hbm d off =>
      match s.looseAt a with
      | some ep => ((false, looseLine a ep), s)
      | none =>
        let (w0, s1) := s.readHbmWord a wb
        let (w1, s2) := s1.readHbmWord (a + 32) wb
        let s3 := s2.dbrk d 8 (w0.fixed.toNat + w1.fixed.toNat)
        let n := w0.bad.toNat + w1.bad.toNat
        ((decide (0 < n), w0.data ++ w1.data),
          (s3.dcnt d 8 64).ueReport false d (hbmStack off) a cls src n)
  | .tr2 d off =>
      let (w, s1) := s.readTr2Word d off wb
      let s2 := (s1.dbrk d 9 w.fixed.toNat).dcnt d 10 64
      let bad := w.bad || linkBad
      ((bad, w.data), s2.ueReport true d (tr2Pkg off) a cls src bad.toNat)
  | _ => ((false, s.bytes a 64), s)

/-- Drop the first `n` and keep `m`: bytes `n` to `n + m - 1`. -/
def slice {α : Type} (l : List α) (n m : Nat) : List α := (l.drop n).take m

/-- Overwrite bytes of a list from position `i`. -/
def overlay (base : List Byte) (i : Nat) (bs : List Byte) : List Byte :=
  base.take i ++ bs ++ base.drop (i + bs.length)

end Sys2Proof.Machine
end

