-- ==== Sys2Proof/Machine/RowCache.lean ====
section
/-! DEFINITION. The row cache: tag lines, ways, ages, hits, fills and write-through (R492 to R503). -/

namespace Sys2Proof.Machine

/-- The 512-byte line number of a tier-2 offset, its set and its tag, for a carve of `k` GiB (R492). -/
def rcLine (off : Nat) : Nat := off / 512
def rcSet (k line : Nat) : Nat := line % rcSets k
def rcTag (k line : Nat) : Nat := line / rcSets k

/-- Read an HBM line of the carve without the report of R474: uncorrectable, bytes. -/
def State.readQuiet (s : State) (d a : Nat) : (Bool × List Byte) × State :=
  let (w0, s1) := s.readHbmWord a true
  let (w1, s2) := s1.readHbmWord (a + 32) true
  ((w0.bad || w1.bad, w0.data ++ w1.data), s2.dbrk d 8 (w0.fixed.toNat + w1.fixed.toNat))

/-- Write whole HBM lines of the carve with fresh check bytes. -/
def State.writeQuiet (s : State) (a : Nat) : List (List Byte) → State
  | [] => s
  | l :: ls =>
    (((((s.setBytes a l).setFlaw a []).setFlaw (a + 32) []).tighten a).writeQuiet (a + 64) ls)

/-- The tag entries of a set: an uncorrectable tag line is written as zero and counted (R503). -/
def State.rcTags (s : State) (d k set : Nat) : List Nat × State :=
  let a := rcTagAddr d k set
  let ((bad, bs), s1) := s.readQuiet d a
  if bad then (List.replicate 16 0, (s1.writeQuiet a [List.replicate 64 0]).dbrk d 13 1)
  else ((List.range 16).map (fun w => leAt bs (4 * w) 4), s1)

/-- Write the tag entries of a set. -/
def State.setRcTags (s : State) (d k set : Nat) (tags : List Nat) : State :=
  s.writeQuiet (rcTagAddr d k set) [tags.flatMap (leBytes 4)]

/-- The valid way that holds a tag. -/
def rcFind (tags : List Nat) (tag : Nat) : Option Nat :=
  (List.range 16).find? (fun w => nbit (tags.getD w 0) 27 && nfld (tags.getD w 0) 0 27 == tag)

/-- The way a fill installs into: the lowest invalid one, else the one of age 15 (R496). -/
def rcVictim (tags : List Nat) : Nat :=
  match (List.range 16).find? (fun w => !nbit (tags.getD w 0) 27) with
  | some w => w
  | none => ((List.range 16).find? (fun w => nfld (tags.getD w 0) 28 4 == 15)).getD 0

/-- A tag entry. -/
def rcEntry (tag age : Nat) : Nat := tag % 2 ^ 27 + 2 ^ 27 + 2 ^ 28 * age

/-- The tags after way `w` is hit or installed with `tag` (R497): its age becomes 0, and every other valid way whose
age was below its old age, or every other valid way on an install, ages by one up to 15. -/
def rcTouch (tags : List Nat) (w tag : Nat) (install : Bool) : List Nat :=
  let old := nfld (tags.getD w 0) 28 4
  (List.range 16).map (fun i =>
    let e := tags.getD i 0
    if i = w then rcEntry tag 0
    else if nbit e 27 && (install || decide (nfld e 28 4 < old)) then rcEntry (nfld e 0 27) (min 15 (nfld e 28 4 + 1))
    else e)

/-- Read the eight lines of a 512-byte tier-2 line for a fill (R496, R501): whether any was uncorrectable, the bytes
with replacements, as source `src`; `linkBad` says that link ECC failed twice on the first (R454). -/
def State.rcRead8 (s : State) (a cls src : Nat) (linkBad : Bool) : Nat → (Bool × List (List Byte)) × State
  | 0 => ((false, []), s)
  | n + 1 =>
    let ((bad, bs), s1) := s.readExt a cls src true linkBad
    let s2 := if bad && cls == 3 && src != 2 then
        (match rgnOf a with | .tr2 d _ => s1.repairPush d a | _ => s1) else s1
    let ((bad', rest), s3) := s2.rcRead8 (a + 64) cls src false n
    ((bad || bad', (if bad then replacement cls a else bs) :: rest), s3)

/-- Fill a 512-byte line from tier 2 and install it; an uncorrectable read installs nothing (R489, R496, R501). -/
def State.rcFill (s : State) (d line src : Nat) (linkBad : Bool := false) : List Byte × State :=
  let k := carveGib s d
  let a := tr2Base d + 512 * line
  let ((bad, ls), s1) := s.rcRead8 a (pageAttr s d a).cls src linkBad 8
  if bad || k == 0 then (ls.flatten, s1)
  else
    let set := rcSet k line
    let (tags, s2) := s1.rcTags d k set
    let w := rcVictim tags
    (ls.flatten, (s2.writeQuiet (rcWayAddr d k set w) ls).setRcTags d k set (rcTouch tags w (rcTag k line) true))

/-- Read the eight lines of a way: uncorrectable, bytes. -/
def State.rcReadWay (s : State) (d a : Nat) : Nat → (Bool × List Byte) × State
  | 0 => ((false, []), s)
  | n + 1 =>
    let ((bad, bs), s1) := s.readQuiet d a
    let ((bad', rest), s2) := s1.rcReadWay d (a + 64) n
    ((bad || bad', bs ++ rest), s2)

/-- Look a 512-byte line up: on a hit its bytes, with the ages touched; a way that reads uncorrectable is marked
invalid and counted, and does not hit (R495, R497, R502). -/
def State.rcLookup (s : State) (d line : Nat) : Option (List Byte) × State :=
  let k := carveGib s d
  if k = 0 then (none, s) else
  let set := rcSet k line
  let (tags, s1) := s.rcTags d k set
  match rcFind tags (rcTag k line) with
  | none => (none, s1)
  | some w =>
    let ((bad, bs), s2) := s1.rcReadWay d (rcWayAddr d k set w) 8
    if bad then (none, (s2.setRcTags d k set (tags.set w 0)).dbrk d 13 1)
    else (some bs, s2.setRcTags d k set (rcTouch tags w (rcTag k line) false))

/-- Whether a line is present, without touching its age. -/
def State.rcHas (s : State) (d line : Nat) : Option Nat :=
  let k := carveGib s d
  if k = 0 then none else rcFind (s.rcTags d k (rcSet k line)).1 (rcTag k line)

/-- A write to a cached page also writes the way when the line is present (R498, R499). -/
def State.rcWrite (s : State) (d off : Nat) (bs : List Byte) : State :=
  match s.rcHas d (rcLine off) with
  | none => s
  | some w =>
    let k := carveGib s d
    let wa := rcWayAddr d k (rcSet k (rcLine off)) w + off % 512
    let l := wa - wa % 64
    let ((_, old), s1) := s.readQuiet d l
    s1.writeQuiet l [overlay old (wa % 64) bs]

end Sys2Proof.Machine
end

