-- ==== Sys2Proof/Machine/Ops.lean ====
section
/-! DEFINITION. The memory operations every unit uses: a line read or written by a requester with every check,
refusal, wake, invalid line and error the specification gives it (R16 to R20, R395 to R438, R471 to R484). -/

namespace Sys2Proof.Machine

/-! ## Halting and ungating a sequencer -/

/-- Halt a sequencer: every fetched descriptor is discarded and the registered wait withdrawn (R350, R402). -/
def State.seqHalt (s : State) (d t cause : Nat) : State :=
  let x := s.tile d t
  ((s.setTile d t { x with run := .halted, fetched := [], waitReg := none, waitJudged := false, waitMet := false }).p
    (Reg.seqStatus d t) Reg.seqStatus_halt_cause cause)

/-- The comparison of R397: halt with cause 4 on a stale generation (R398). -/
def State.genCheck (s : State) (d t : Nat) : State :=
  if s.g (Reg.seqGen d t) Reg.seqGen_gen = s.g (Reg.tlyPlanGen d) Reg.tlyPlanGen_gen then s
  else (s.seqHalt d t 4).raise ⟨0x05, 0, 1⟩ (.tile d t)

/-- A wake cause on a die whose array root is stopped: the array PLL starts if it is stopped, and the root runs once
the PLL is locked (R945, R954). -/
def State.arrayWake (s : State) (d : Nat) : State :=
  let x := s.die d
  if x.arrRoot || !x.power then s else
  (s.setDie d { x with arrRoot := true, pllRun := x.pllRun ||| 1 }).p (Reg.clkStatus d) Reg.clkStatus_arr_running
    (s.g (Reg.clkStatus d) ⟨0, 1⟩)

/-- Ungate a tile: its clocks run, and a running sequencer rechecks its generation (R395, R397). -/
def State.ungate (s : State) (d t : Nat) : State :=
  let x := s.tile d t
  if x.gated then
    let s1 := (s.arrayWake d).setTile d t { x with gated := false }
    if x.run = .running then s1.genCheck d t else s1
  else s

/-- The array clock of a die runs (R950). -/
def State.arrClk (s : State) (d : Nat) : Bool := s.on (Reg.clkStatus d) Reg.clkStatus_arr_running

/-- The fabric clock of a die runs: the die is on and its fabric PLL is locked (R950). -/
def State.fabClk (s : State) (d : Nat) : Bool := s.dieOn d && (s.rd (Reg.clkStatus d)).getLsbD 1

/-- The clocks of a tile run: its power domain is on, the array root runs and it is not gated (R950). -/
def State.tileClk (s : State) (d t : Nat) : Bool := s.tileOn d t && s.arrClk d && !(s.tile d t).gated

/-! ## Refusals -/

/-- The die whose DOB block takes an address event: the die that decodes the address, die A for module registers,
the requester's die for an unmapped address (DEDUCED, log entry 13). -/
def errDie (r : Requester) (g : Rgn) : Nat :=
  match g with
  | .unmapped => r.die
  | g => g.die.getD 0

/-- What a refused access leaves behind: the counter, the last-refused registers and the event of the rule that
refuses it (R17 to R19, R411, R413, R482, R483, R491). -/
def State.refuse (s : State) (r : Requester) (a : Nat) (write : Bool) (e : AccErr) : State :=
  let g := rgnOf a
  let d := errDie r g
  match e with
  | .regAccess => s.raise ⟨0x1A, 0, 0⟩ (.die d)
  | .value => s.raise ⟨0x1A, 0, 1⟩ (.die d)
  | .unmapped => s.raise ⟨0x1A, 0, 2⟩ (.die d)
  | .denied => s.raise ⟨0x1A, 0, 3⟩ (.die d)
  | .unreachable => s.raise ⟨0x1A, 0, 4⟩ (.die d)
  | .rcReserved => s.raise ⟨0x14, 0, 2⟩ (.die d)
  | .mapDenied =>
      (((s.dbrk d 14 1).p (Reg.mapDeniedLast d) Reg.mapDeniedLast_addr a).p (Reg.mapDeniedLast d)
        Reg.mapDeniedLast_write write.toNat).raise ⟨0x14, 0, 0⟩ (.die d)
  | .notOwner =>
      match g.bank, g with
      | some (d, t, b), _ =>
          let (k, i) := needKind r d t b
          (((s.brk d t 17 1).wr (Reg.memLastRefused d t) (BitVec.ofNat 64 (a + 2 ^ 48 * k + 2 ^ 51 * i)))).raise
            ⟨0x06, 0, 0⟩ (.tile d t)
      | none, .trace d t _ =>
          ((s.brk d t 17 1).wr (Reg.memLastRefused d t) (BitVec.ofNat 64 a)).raise ⟨0x06, 0, 0⟩ (.tile d t)
      | none, _ => s
  | .busy =>
      match g with
      | .wstore d t _ => s.raise ⟨0x01, 0, 4⟩ (.tile d t)
      | .acc d t _ | .sram d t _ => s.raise ⟨0x02, 0, 4⟩ (.tile d t)
      | _ => s.raise ⟨0x11, 0, 5⟩ (.die d)
  | .handBusy => s

/-- Whether a requester is a tile's own unit or copy channel, or its sequencer. -/
def Requester.ofTile (r : Requester) (d t : Nat) : Bool :=
  match r with
  | .tileUnit d' t' | .tileChan d' t' _ | .seq d' t' => decide (d'.val = d ∧ t'.val = t)
  | _ => false

/-- The busy rules of R484 for a write of a line: R84, R173 and R324. -/
def busyErr (s : State) (r : Requester) (a n : Nat) : Bool :=
  let guarded := match rgnOf a with
    | .hbm d _ | .tr2 d _ | .pool d _ | .sram d _ _ | .acc d _ _ =>
        (match r with | .update d' => d'.val != d | _ => true) &&
          ((s.die 0).guards ++ (s.die 1).guards).any (fun x => decide (x.2.1 < a + n ∧ a < x.2.2))
    | _ => false
  guarded ||
  match rgnOf a with
  | .wstore d t off => (s.tile d t).ops.any (fun o => o.opcode == 1 && nfld (byteAt o.desc 33) 5 2 == off / 0x10000)
  | .acc d t _ => r != .tileUnit (Fin.ofNat 2 d) (Fin.ofNat 64 t) &&
      (s.tile d t).ops.any (fun o => o.opcode == 2 && nbit (byteAt o.desc 48) 4)
  | .sram d t off => r != .tileUnit (Fin.ofNat 2 d) (Fin.ofNat 64 t) &&
      (let lo := s.g (Reg.bwdCtl d t) Reg.bwdCtl_acc_dir_line * 64
       decide (lo < off + n ∧ off < lo + 512)) &&
      (s.tile d t).ops.any (fun o => o.opcode == 2 && nbit (byteAt o.desc 48) 4)
  | _ => false

/-- Every check of R484 on a line of `n` bytes. -/
def fullCheck (s : State) (r : Requester) (write : Bool) (a n : Nat) : Option AccErr :=
  match checkAccess s r write a with
  | some e => some e
  | none => if write && busyErr s r a n then some .busy else none

/-! ## Power states of banks -/

/-- The power field of a bank (R425). -/
def bankPwr (s : State) (d t b : Nat) : Nat :=
  if b < 24 then s.g (Reg.memBankPwr d t) (Reg.memBankPwr_state b)
  else s.g (Reg.memPoolPwr d t) Reg.memPoolPwr_state

/-- Set the power field of a bank. -/
def State.setBankPwr (s : State) (d t b v : Nat) : State :=
  if b < 24 then s.p (Reg.memBankPwr d t) (Reg.memBankPwr_state b) v
  else s.p (Reg.memPoolPwr d t) Reg.memPoolPwr_state v

/-- The address range of a bank: general SRAM bank, or die-pool bank `t` for index 24. -/
def bankRange (d t b : Nat) : Nat × Nat :=
  if b < 24 then (slotBase d t + 0x20000 * b, slotBase d t + 0x20000 * (b + 1))
  else (poolBase d + 0x80000 * t, poolBase d + 0x80000 * (t + 1))

/-- The address range of a region named by a bit of MEM_INVALIDATE. -/
def invalRange (d t bit : Nat) : Nat × Nat :=
  match bit with
  | 24 => (slotBase d t + 0x300000, slotBase d t + 0x400000)
  | 25 => (slotBase d t + 0x400000, slotBase d t + 0x440000)
  | 26 => (slotBase d t + 0x440000, slotBase d t + 0x444000)
  | 27 => bankRange d t 24
  | b => bankRange d t b

/-- An access finds its bank on: one in retention or off wakes first (R431), and a gated tile ungates (R20). -/
def State.wakeFor (s : State) (r : Requester) (g : Rgn) : State :=
  let s1 := match g.bank with
    | some (d, t, b) => if bankPwr s d t b = 0 then s else s.setBankPwr d t b 0
    | none => s
  match g.tile with
  | some (d, t) => if r.ofTile d t then s1 else s1.ungate d t
  | none => s1

/-! ## Lines -/

/-- A served read of an on-chip line: an invalid line reads zero and is counted on its bank's tile (R435, R436). -/
def State.readChip (s : State) (g : Rgn) (a : Nat) : List Byte × State :=
  if s.lineValid (a / 64) then (s.bytes a 64, s)
  else
    let (d, t) := match g.bank, g.tile with
      | some (d, t, _), _ => (d, t)
      | none, some x => x
      | none, none => (0, 0)
    let first := !s.on (Reg.memEvents d t) Reg.memEvents_invalid_read
    let s1 := s.brk d t 18 1
    (List.replicate 64 0, if first then s1.raise ⟨0x06, 0, 1⟩ (.tile d t) else s1)

/-- A served demand read of an external line that the row cache does not serve (R471 to R475). -/
def State.readPlain (s : State) (d a : Nat) (linkBad : Bool) : List Byte × State :=
  let cls := (pageAttr s d a).cls
  let ((bad, bs), s1) := s.readExt a cls 0 true linkBad
  if bad then (replacement cls a, if cls = 3 then s1.repairPush d a else s1) else (bs, s1)

/-- A served demand read of a cached tier-2 line: from the way on a hit, by a fill on a miss (R494 to R496, R502). -/
def State.readCached (s : State) (d off : Nat) (linkBad : Bool := false) : List Byte × State :=
  match s.rcLookup d (rcLine off) with
  | (some bs, s1) => (slice bs (off % 512) 64, s1.dcnt d 14 1)
  | (none, s1) =>
    let (bs, s2) := (s1.dcnt d 15 1).rcFill d (rcLine off) 3 linkBad
    (slice bs (off % 512) 64, s2)

/-- One 64-byte line read by a requester: its bytes, or none with the refusal's effects. `a` is line-aligned; a sleeping
bank wakes at once (DESIGN CHOICE, log entry 9). -/
def State.readLine (s : State) (r : Requester) (a : Nat) (linkBad : Bool := false) : Option (List Byte) × State :=
  match fullCheck s r false a 64 with
  | some e => (none, s.refuse r a false e)
  | none =>
    let g := rgnOf a
    match g with
    | .hbm d _ => let (bs, s1) := s.readPlain d a linkBad; (some bs, s1)
    | .tr2 d off =>
        if (pageAttr s d a).cache then let (bs, s1) := s.readCached d off linkBad; (some bs, s1)
        else let (bs, s1) := s.readPlain d a linkBad; (some bs, s1)
    | .reg _ | .unmapped => (none, s)
    | _ => let (bs, s1) := (s.wakeFor r g).readChip g a; (some bs, s1)

/-- `k` consecutive lines read by a requester, byte by byte; none for the bytes of a refused line. Link ECC fails twice
on the first where `linkBad` says so (R454). -/
def State.readLines (s : State) (r : Requester) (a : Nat) (linkBad : Bool := false) : Nat → List (Option Byte) × State
  | 0 => ([], s)
  | k + 1 =>
    let (x, s1) := s.readLine r a linkBad
    let (rest, s2) := s1.readLines r (a + 64) false k
    ((match x with | some bs => bs.map some | none => List.replicate 64 none) ++ rest, s2)

/-- `n` bytes read by a requester from any address. -/
def State.readSpan (s : State) (r : Requester) (a n : Nat) (linkBad : Bool := false) : List (Option Byte) × State :=
  let (l, s1) := s.readLines r (a - a % 64) linkBad ((n + 63 + a % 64) / 64)
  (slice l (a % 64) n, s1)

/-- All bytes of a read, or none when any line of it was refused. -/
def whole : List (Option Byte) → Option (List Byte)
  | [] => some []
  | none :: _ => none
  | some b :: bs => (whole bs).map (b :: ·)

/-- Merge a partial write of an external code word with what is stored (R477): true when the merge read is
uncorrectable. `cw` is the code word's length, `n` the written bytes from offset `i` of the line. -/
def mergeBad (s : State) (a i n : Nat) : Bool × Nat :=
  match rgnOf a with
  | .hbm _ _ =>
      let part (w : Nat) : Bool := decide (i < w + 32 ∧ w < i + n) && !decide (i ≤ w ∧ w + 32 ≤ i + n)
      let bad (w : Nat) : Bool := part w && decide (eccDecode 36 (s.flaw (a + w)) = .uncorrectable)
      (bad 0 || bad 32, (bad 0).toNat + (bad 32).toNat)
  | .tr2 _ off =>
      let chk := ((padTo 0 64 (s.flaw (chkKey (match rgnOf a with | .tr2 d _ => d | _ => 0) (tr2Pkg off)
        (tr2Gran off / 16) (tr2LineNo off / 15)))).drop (4 * (tr2LineNo off % 15))).take 4
      let bad := decide (n < 64) && decide (eccDecode 68 (padTo 0 64 (s.flaw a) ++ chk) = .uncorrectable)
      (bad, bad.toNat)
  | _ => (false, 0)

/-- A served write of bytes into an external line (R455, R477, R498): partial code words merge with what is stored,
an uncorrectable merge fills the rest of the line from the class replacement, and fresh check bytes are written. -/
def State.writeExt (s : State) (d a i : Nat) (bs : List Byte) : State :=
  let at' := pageAttr s d a
  let (bad, n) := mergeBad s a i bs.length
  let ctl := match rgnOf a with | .hbm _ off => hbmStack off | .tr2 _ off => tr2Pkg off | _ => 0
  let tier2 := match rgnOf a with | .tr2 _ _ => true | _ => false
  let s1 := if bad then
      (let s' := s.ueReport tier2 d ctl a at'.cls 0 n
       if at'.cls = 3 then s'.repairPush d a else s')
    else s
  let ((_, old), s2) := if bad then ((false, replacement at'.cls a), s1)
    else if tier2 then
      (let (w, s') := s1.readTr2Word d (a - tr2Base d) false
       ((w.bad, w.data), s'))
    else match s1.looseAt a with
      | some ep => ((false, looseLine a ep), s1)
      | none =>
        (let (w0, s') := s1.readHbmWord a false
         let (w1, s'') := s'.readHbmWord (a + 32) false
         ((false, w0.data ++ w1.data), s''))
  let line := overlay old i bs
  let s3 := ((((s2.setBytes a line).setFlaw a []).setFlaw (a + 32) []).tighten a).dcnt d (if tier2 then 11 else 9)
    bs.length
  if tier2 && at'.cache then s3.rcWrite d (a - tr2Base d + i) bs else s3

/-- Bytes written into one line by a requester, from offset `i` of the line-aligned address `a`; the error of a
refusal, which writes nothing. -/
def State.writeLine (s : State) (r : Requester) (a i : Nat) (bs : List Byte) : Option AccErr × State :=
  match fullCheck s r true (a + i) bs.length with
  | some e => (some e, s.refuse r (a + i) true e)
  | none =>
    let g := rgnOf a
    match g with
    | .hbm d _ | .tr2 d _ => (none, s.writeExt d a i bs)
    | .reg _ | .unmapped => (some .denied, s)
    | _ => (none, ((s.wakeFor r g).setBytes (a + i) bs).setValid (a / 64) true)

/-- Bytes written by a requester from any address, line by line: the first error, and the address of its line.
`k` bounds the lines. -/
def State.writeLines (s : State) (r : Requester) (a : Nat) (bs : List Byte) : Nat → Option (AccErr × Nat) × State
  | 0 => (none, s)
  | k + 1 =>
    if bs = [] then (none, s) else
    let n := 64 - a % 64
    let (e, s1) := s.writeLine r (a - a % 64) (a % 64) (bs.take n)
    let (e', s2) := s1.writeLines r (a + n) (bs.drop n) k
    ((match e with | some x => some (x, a) | none => e'), s2)

/-- Bytes written by a requester from any address. -/
def State.writeSpan (s : State) (r : Requester) (a : Nat) (bs : List Byte) : Option (AccErr × Nat) × State :=
  s.writeLines r a bs ((bs.length + 63 + a % 64) / 64)

/-- A write whose transfer failed its link ECC twice leaves an uncorrectable tier-2 line (R454; DEDUCED, log entry 30): it is
counted and logged, and its stored code word takes an error of two bytes. -/
def State.linkLost (s : State) (a : Nat) : State :=
  match rgnOf a with
  | .tr2 d off =>
      let l := a - a % 64
      let cls := (pageAttr s d a).cls
      let s1 := (s.setFlaw l (padTo 0 64 [1, 1])).ueReport true d (tr2Pkg off) l cls 0 1
      if cls = 3 then s1.repairPush d l else s1
  | _ => s

/-- The halt cause of a refused access (R543). -/
def AccErr.cause : AccErr → Nat
  | .unmapped => 1
  | .denied | .regAccess | .value | .handBusy => 2
  | .unreachable => 3
  | .notOwner => 4
  | .mapDenied => 5
  | .rcReserved => 6
  | .busy => 7

end Sys2Proof.Machine
end

