-- ==== Sys2Proof/Machine/MemAccess.lean ====
section
/-! DEFINITION. Memory accesses as commands: the checks in order, waits, service, and the completion of waiting
accesses; row-cache fills, XOR line writes, patrol reads, bank handover and invalidation, the region map, the repair
queue and the row-cache size (chapters 08 and 09). -/

namespace Sys2Proof.Machine

/-- The number of bytes an access covers. -/
def Access.bytes (q : Access) : Nat := if q.write then q.data.length else q.len

/-- The first refusal over the lines an access touches (R484). `k` bounds the lines. -/
def firstErr (s : State) (r : Requester) (write : Bool) (a n : Nat) : Nat → Option (AccErr × Nat)
  | 0 => none
  | k + 1 =>
    let m := min n (64 - a % 64)
    match fullCheck s r write a m with
    | some e => some (e, a)
    | none => if n ≤ m then none else firstErr s r write (a + m) (n - m) k

/-- The bit of MEM_INVALIDATE that names a region of a tile. -/
def Rgn.invalBit : Rgn → Option (Nat × Nat × Nat)
  | .sram d t off => some (d, t, off / 0x20000)
  | .acc d t _ => some (d, t, 24)
  | .wstore d t _ => some (d, t, 25)
  | .trace d t _ => some (d, t, 26)
  | .pool d off => some (d, off / 0x80000, 27)
  | _ => none

/-- What an accepted access waits for, if anything: initialisation (R463), an invalidation (R438), a sleeping bank
(R431), or a row-cache fill (R496, R500). A wide access is judged on its first line (DESIGN CHOICE, log entry 9). -/
def mustWait (s : State) (q : Access) : Option WaitWhy :=
  let g := rgnOf q.addr.toNat
  match g with
  | .hbm d _ => if (s.die d).initDone then none else some (.init d)
  | .tr2 d off =>
      if !(s.die d).initDone then some (.init d)
      else if (pageAttr s d q.addr.toNat).cache then
        if s.waiting.any (fun w => w.why == .fill d (rcLine off)) then some (.fill d (rcLine off))
        else if q.write then none
        else match (s.rcLookup d (rcLine off)).1 with
          | some _ => none
          | none => if carveGib s d = 0 then none else some (.fill d (rcLine off))
      else none
  | _ =>
    match g.invalBit with
    | some (d, t, b) =>
        if nbit (s.tile d t).inval b then some (.invalidating d t)
        else match g.bank with
          | some (d, t, b) => if bankPwr s d t b = 0 then none else some (.bank d t b)
          | none => none
    | none => none

/-- Serve an access that no check refuses and that need not wait. -/
def State.serve (s : State) (r : Requester) (q : Access) : State :=
  let a := q.addr.toNat
  if q.write then
    match s.writeSpan r a q.data with
    | (none, s1) => (if 2 ≤ q.linkErr then s1.linkLost a else s1).answer .ack
    | (some (e, _), s1) => s1.answer (.error e)
  else
    match s.readSpan r a q.len (decide (2 ≤ q.linkErr)) with
    | (l, s1) => match whole l with
      | some bs => s1.answer (.data bs)
      | none => s1.answer (.error .denied)

/-- Note that an access waits, and start the wake of a sleeping bank or count the miss of a cached line. -/
def State.park (s : State) (r : Requester) (q : Access) (w : WaitWhy) : State :=
  let s1 := s.setWaiting (s.waiting ++ [Waiting.mk r q w])
  (match w with
    | .bank d t b =>
        let x := s1.tile d t
        if x.waking.contains b then s1 else s1.setTile d t { x with waking := x.waking ++ [b] }
    | .fill d l => if s.waiting.any (fun x => x.why == WaitWhy.fill d l) then s1 else s1.dcnt d 15 1
    | _ => s1).answer .waiting

/-- A memory access: the checks of R484, then a wait or the service. -/
def State.memAccess (s : State) (r : Requester) (q : Access) : State :=
  let a := q.addr.toNat
  match firstErr s r q.write a q.bytes ((q.bytes + 63 + a % 64) / 64) with
  | some (e, b) => (s.refuse r b q.write e).answer (.error e)
  | none =>
    let s0 := s.upsets q.upset
    match mustWait s0 q with
    | some w => s0.park r q w
    | none => s0.serve r q

/-- Run again, in order, a list of accesses that waited. -/
def State.rerun (s : State) : List Waiting → State
  | [] => s
  | w :: ws => (s.memAccess w.r { w.q with upset := [] }).rerun ws

/-- Release every access that waits for a reason. -/
def State.release (s : State) (p : WaitWhy → Bool) : State :=
  let ready := s.waiting.filter (fun w => p w.why)
  (s.setWaiting (s.waiting.filter (fun w => !p w.why))).rerun ready

/-- The port of a dual-port bank that serves a requester (R422). -/
def portOf (r : Requester) (d t : Nat) : Nat :=
  match r with
  | .tileUnit d' t' | .seq d' t' => if d'.val = d ∧ t'.val = t then 0 else 1
  | .tileChan d' t' c => if d'.val = d ∧ t'.val = t ∧ c.val = 0 then 0 else 1
  | _ => 1

/-- The bytes two writes have in common, given their addresses and lengths. -/
def common (a n b m : Nat) : Nat := min (a + n) (b + m) - max a b

/-- Two accesses on the two ports of a dual-port bank in one cycle, to the same line (R423, R424): port 0's access
`q0`, port 1's `q1`. A refused write takes no part. -/
def State.dualAccess (s : State) (r0 r1 : Requester) (q0 q1 : Access) (d t : Nat) : State :=
  let ok (r : Requester) (q : Access) : Bool := (fullCheck s r q.write q.addr.toNat q.bytes).isNone
  let bytes (r : Requester) (q : Access) : List Byte :=
    if q.write then [] else ((whole (s.readSpan r q.addr.toNat q.len).1).getD [])
  let s2 := if q0.write then (s.memAccess r1 q1).memAccess r0 q0 else (s.memAccess r0 q0).memAccess r1 q1
  let c := common q0.addr.toNat q0.data.length q1.addr.toNat q1.data.length
  let s3 := if q0.write && q1.write && ok r0 q0 && ok r1 q1 && decide (0 < c)
    then (s2.brk d t 19 1).raise ⟨0x06, 0, 2⟩ (.tile d t) else s2
  if ok r0 q0 && ok r1 q1 then s3.answer (.pair (bytes r0 q0) (bytes r1 q1)) else s3

/-- Two accesses touch one 64-byte line. -/
def shareLine (q q' : Access) : Bool :=
  decide (q.addr.toNat / 64 ≤ (q'.addr.toNat + q'.bytes - 1) / 64 ∧ q'.addr.toNat / 64 ≤ (q.addr.toNat + q.bytes - 1) / 64)

/-- A memory access that may meet another on the other port of a dual-port bank in the same cycle. -/
def State.memAccess2 (s : State) (r : Requester) (q : Access) (peer : Option (Requester × Access)) : State :=
  match peer with
  | none => s.memAccess r q
  | some (r', q') =>
    match (rgnOf q.addr.toNat).bank, (rgnOf q'.addr.toNat).bank with
    | some (d, t, b), some (d', t', b') =>
      if d = d' ∧ t = t' ∧ b = b' ∧ (b = 22 ∨ b = 23) ∧ shareLine q q' ∧ portOf r d t ≠ portOf r' d t then
        if portOf r d t = 0 then s.dualAccess r r' q q' d t else s.dualAccess r' r q' q d t
      else (s.memAccess r q).memAccess r' q'
    | _, _ => (s.memAccess r q).memAccess r' q'

/-! ## Row-cache fill, bank wake, XOR line write, patrol -/

/-- Whether a run-ahead fetch of a line may proceed: in the page that set it going it needs read, in any other page
read and prefetch, and never the carve or an unmapped address (R486 to R488). -/
def runAheadOk (s : State) (a page : Nat) : Bool :=
  match rgnOf a with
  | .hbm d _ | .tr2 d _ =>
      !inCarve s a && (pageAttr s d a).read && (decide (a / 0x200000 = page) || (pageAttr s d a).prefetch)
  | .unmapped => false
  | _ => true

/-- Serve the first access that waits for a fill from the filled bytes, and run the others again (R496, R500). -/
def State.fillServe (s : State) (d line : Nat) (bs : List Byte) : State :=
  let mine := s.waiting.filter (fun w => w.why == .fill d line)
  let s1 := s.setWaiting (s.waiting.filter (fun w => !(w.why == .fill d line)))
  match mine with
  | [] => s1
  | w :: ws =>
    let s2 := if w.q.write || decide (512 < (w.q.addr.toNat - tr2Base d) % 512 + w.q.len) then s1.serve w.r w.q
      else s1.answer (.data (slice bs ((w.q.addr.toNat - tr2Base d) % 512) w.q.len))
    s2.rerun ws

/-- The transfer that a fill repeats failed its link ECC twice (R454). -/
def fillLinkBad (s : State) (d line : Nat) : Bool :=
  s.waiting.any (fun w => w.why == .fill d line && decide (2 ≤ w.q.linkErr))

/-- RC_FILL (R496, R500, R501; R486 to R489 for a run-ahead fill). -/
def execRcFill (d : Die) (a : Addr) (src : FillSource) (s : State) : Host.Outcome State Fault Refusal :=
  match rgnOf a.toNat with
  | .tr2 d' off =>
    if d' ≠ d.val ∨ carveGib s d' = 0 ∨ !(pageAttr s d' a.toNat).cache then .next s else
    match src with
    | .demand =>
      if s.waiting.any (fun w => w.why == .fill d' (rcLine off)) then
        let (bs, s1) := s.rcFill d' (rcLine off) 3 (fillLinkBad s d' (rcLine off))
        .next (s1.fillServe d' (rcLine off) bs)
      else .next s
    | .runAhead page =>
      if runAheadOk s a.toNat page then
        (if (s.rcHas d' (rcLine off)).isSome then .next s else .next (s.rcFill d' (rcLine off) 2).2)
      else .next (s.dbrk d' 15 1)
  | _ => match src with
    | .demand => .next s
    | .runAhead page => if runAheadOk s a.toNat page then .next s else .next (s.dbrk d.val 15 1)

/-- BANK_WAKE (R431): the bank's field becomes on and the accesses that wait for it complete. -/
def execBankWake (d : Die) (t : Tile) (b : BankIx) (s : State) : Host.Outcome State Fault Refusal :=
  let x := s.tile d t
  if x.waking.contains b.val then
    .next (((s.setTile d t { x with waking := x.waking.filter (· != b.val) }).setBankPwr d t b 0).release
      (· == .bank d t b))
  else .next s

/-- Replace one line with its old contents XOR the payload (R595); a way that holds the line is invalidated (R596). -/
def State.xorLine (s : State) (r : Requester) (a : Nat) (bs : List Byte) : Option AccErr × State :=
  match fullCheck s r true a 64 with
  | some e => (some e, s.refuse r a true e)
  | none =>
    match rgnOf a with
    | .hbm d _ => let (old, s1) := s.readPlain d a false; (none, s1.writeExt d a 0 (xorBytes old bs))
    | .tr2 d off =>
      let (old, s1) := s.readPlain d a false
      let s2 := match s1.rcHas d (rcLine off) with
        | some w =>
          let k := carveGib s1 d
          let (tags, s') := s1.rcTags d k (rcSet k (rcLine off))
          s'.setRcTags d k (rcSet k (rcLine off)) (tags.set w 0)
        | none => s1
      (none, s2.writeExt d a 0 (xorBytes old bs))
    | .reg _ | .unmapped => (some .denied, s)
    | g =>
      let (old, s1) := (s.wakeFor r g).readChip g a
      (none, (s1.setBytes a (xorBytes old bs)).setValid (a / 64) true)

/-- XOR_LINE_WRITE (R595, R596). -/
def execXorLineWrite (r : Requester) (a : Addr) (bs : List Byte) (s : State) : Host.Outcome State Fault Refusal :=
  if a.toNat % 64 ≠ 0 ∨ bs.length ≠ 64 then .next s else
  match s.xorLine r a.toNat bs with
  | (none, s1) => .next (s1.answer .ack)
  | (some e, s1) => .next (s1.answer (.error e))

/-- The lines of an HBM stack and of a tier-2 package. -/
def ctlLines : ExtCtl → Nat
  | .hbm _ => 805306368
  | .tr2 _ => 1073741824

/-- The register of a controller's patrol position. -/
def scrubPos (d : Nat) : ExtCtl → Nat
  | .hbm c => Reg.hbmScrubPos d c.val
  | .tr2 c => Reg.tr2ScrubPos d c.val

/-- The device address of physical line `l` of HBM stack `c` of die `d`: the inverse of R446. -/
def hbmLineAddr (d c l : Nat) : Nat :=
  let row := l * 64 / 256
  hbmBase d + 2048 * row + 256 * (c ^^^ row % 8) + l * 64 % 256

/-- Read one physical line on patrol (R467 to R470): data lines of either tier, and tier-2 check lines. -/
def State.patrol (s : State) (d : Nat) (c : ExtCtl) (l : Nat) (overwritten : Bool) : State :=
  match c with
  | .hbm k =>
    let a := hbmLineAddr d k.val l
    (s.readExt a (pageAttr s d a).cls 1 (!overwritten) false).2
  | .tr2 p =>
    if l / 4 % 16 = 15 then (s.readCheck d p.val (l / 64) (l % 4) (!overwritten)).2
    else
      let a := tr2Base d + tr2LineOff p.val (l / 64) (4 * (l / 4 % 16) + l % 4)
      (s.readExt a (pageAttr s d a).cls 1 (!overwritten) false).2

/-- PATROL_READ (R467 to R470): the next line of a controller's device, then the position advances. -/
def execPatrolRead (d : Die) (c : ExtCtl) (upset : List Upset) (overwritten : Bool) (s : State) :
    Host.Outcome State Fault Refusal :=
  if !s.on (Reg.mapCtl d) Reg.mapCtl_scrub_en ∨ !s.dieOn d ∨ !(s.die d).initDone then .next s else
  let pos := s.g (scrubPos d c) ⟨0, 36⟩
  .next (((s.upsets upset).patrol d c pos overwritten).p (scrubPos d c) ⟨0, 36⟩ ((pos + 1) % ctlLines c))

end Sys2Proof.Machine
end

