-- ==== Sys2Proof/Machine/Desc.lean ====
section
/-! DEFINITION. Descriptors: the common fields (R339), the indexed form that the sequencer issues (R340 to R342), and
validity with the byte offset of each offending field (R29, R131, R186, R192, R273, R345, R365 to R374, R512). -/

namespace Sys2Proof.Machine

/-- Byte `i` of a descriptor. -/
def Desc.b (x : Desc) (i : Nat) : Nat := byteAt x i
/-- `n` bytes from byte `i` of a descriptor, little-endian. -/
def Desc.le (x : Desc) (i n : Nat) : Nat := leAt x i n

def Desc.opcode (x : Desc) : Nat := x.b 0
def Desc.roundMode (x : Desc) : Nat := nfld (x.b 1) 0 2
def Desc.shaker (x : Desc) : Nat := nfld (x.b 1) 2 3
def Desc.waitEn (x : Desc) : Bool := nbit (x.b 1) 5
def Desc.doneEn (x : Desc) : Bool := nbit (x.b 1) 6
def Desc.fence (x : Desc) : Bool := nbit (x.b 1) 7
def Desc.waitTally (x : Desc) : Nat := nfld (x.le 2 2) 0 14
def Desc.doneTally (x : Desc) : Nat := x.le 4 4
def Desc.doneAmount (x : Desc) : Int := sgn 16 (x.le 8 2)
def Desc.idxLoop (x : Desc) : Nat := nfld (x.b 10) 0 2
def Desc.idx16Off (x : Desc) : Nat := nfld (x.b 11) 0 6
def Desc.gen (x : Desc) : Nat := x.le 12 4
def Desc.addrStep (x : Desc) : Int := sgn 24 (x.le 56 3)
def Desc.idx16Step (x : Desc) : Int := sgn 16 (x.le 59 2)
def Desc.mark (x : Desc) : Nat := x.le 62 2

/-- The byte offsets of the 48-bit address fields of an opcode. -/
def addrFields : Nat → List Nat
  | 1 => [16, 26]
  | 2 => [16, 22, 28]
  | 3 => [16, 26, 32]
  | 4 | 5 | 7 => [16, 22]
  | 6 | 8 | 9 => [16, 22, 28]
  | 0x19 => [16]
  | _ => []

/-- An address field as issued under R340, as an exact integer: `i` is the loop counter. -/
def issuedAddr (x : Desc) (off i : Nat) : Int :=
  let v := x.le off 6
  if nbit v 47 then (v - 2 ^ 47 : Nat) + (i : Int) * x.addrStep * 64 else v

/-- Replace `n` bytes of a descriptor from byte `i`. -/
def Desc.setLe (x : Desc) (i n v : Nat) : Desc := overlay x i (leBytes n v)

/-- The form in which the sequencer issues a descriptor (R340, R341): `i` is loop counter idx_loop. -/
def issued (x : Desc) (i : Nat) : Desc :=
  let y := (addrFields x.opcode).foldl (fun y off => y.setLe off 6 (encS 48 (issuedAddr x off i))) x
  let o := x.idx16Off
  if o = 0 then y else y.setLe o 2 (encS 16 ((x.le o 2 : Nat) + (i : Int) * x.idx16Step))

/-! ## Validity: lists of (byte offset, offending) -/

/-- One rule of validity: the byte offset of the field it judges, and whether that field offends. -/
abbrev Check := Nat × Bool

/-- Whether any check offends. -/
def anyBad (cs : List Check) : Bool := cs.any (·.2)

/-- The lowest byte offset of an offending field; 0xFF when none is a field (R402). -/
def lowestOff (cs : List Check) : Nat := ((cs.filter (·.2)).map (·.1)).foldl min 0xFF

/-- Bytes `lo` to `hi` must be 0. -/
def zeroBytes (x : Desc) (lo hi : Nat) : List Check :=
  (List.range (hi + 1 - lo)).map (fun k => (lo + k, x.b (lo + k) != 0))

/-- The reserved fields of bytes 0 to 15 and 56 to 63 and the common rules of R345. -/
def commonChecks (x : Desc) (i : Nat) : List Check :=
  let op := x.opcode
  let o := x.idx16Off
  [(0, !([0, 1, 2, 3, 4, 5, 6, 7, 8, 9, 0x10, 0x11, 0x18, 0x19, 0x1A, 0x1F].contains op)),
   (1, x.roundMode == 3),
   (2, decide (x.le 2 2 / 2 ^ 14 ≠ 0)),
   (4, !nbit x.doneTally 31 && decide (nfld x.doneTally 15 16 ≠ 0)),
   (10, decide (x.b 10 / 4 ≠ 0)),
   (11, decide (x.b 11 / 64 ≠ 0) || (o != 0 && (o % 2 == 1 || decide (o < 16) || decide (54 < o)))),
   (61, x.b 61 != 0)] ++
  (addrFields op).map (fun f => (f, nbit (x.le f 6) 47 &&
    (decide (issuedAddr x f i < 0) || decide ((2 : Int) ^ 48 ≤ issuedAddr x f i)))) ++
  (addrFields op).map (fun f => (min o f, o != 0 && nbit (x.le f 6) 47 && decide (f < o + 2 ∧ o < f + 6)))

/-- The precision mode of a forward descriptor (R87): 1 fixed, 2 adaptive, 3 stream planes. -/
def fwdMode (x : Desc) (defaultPrec : Nat) : Nat :=
  if nfld (x.b 34) 0 2 = 0 then 1 + defaultPrec else nfld (x.b 34) 0 2

/-- The number of 1 bits of a byte. -/
def popcount8 (n : Nat) : Nat := ((List.range 8).filter (nbit n)).length

/-- R29 and R131: forward descriptors, in the issued form. -/
def fwdChecks (x : Desc) (defaultPrec : Nat) : List Check :=
  let mode := fwdMode x defaultPrec
  let inFmt := nfld (x.b 32) 0 4
  let wFmt := nfld (x.b 33) 0 4
  [(16, x.le 16 6 % 64 != 0),
   (22, decide (x.le 22 2 < (if inFmt = 5 then 18 else 9))),
   (24, x.le 24 2 == 0),
   (26, x.le 26 6 % 64 != 0),
   (32, !(3 ≤ inFmt && inFmt ≤ 5) || decide (x.b 32 / 32 ≠ 0) || (mode == 3 && (inFmt != 4 || nbit (x.b 32) 4))),
   (33, !(wFmt ≤ 2) || nbit (x.b 33) 7),
   (34, decide (x.b 34 / 16 ≠ 0) || (mode == 3 && nbit (x.b 34) 3)),
   (35, nfld (x.b 35) 0 4 == 0 || (mode == 2 && (nfld (x.b 35) 4 4 == 0 || decide (nfld (x.b 35) 0 4 < nfld (x.b 35) 4 4)))),
   (39, decide (x.b 39 / 64 ≠ 0)),
   (40, mode == 3 && !([1, 2, 4, 8].contains (popcount8 (x.b 40)))),
   (41, decide (x.b 41 / 64 ≠ 0))] ++ zeroBytes x 42 55

/-- Bytes per value of a plain format; 0 for quire formats. -/
def fmtSize : Nat → Nat
  | 7 | 8 => 1
  | 9 | 10 => 2
  | 11 => 4
  | _ => 0

/-- The checks of one backward operand (R29, R131, R139, R146, R148, R186): `x0` elements across, `k` positions. -/
def operandBad (fmt stride layout x0 k : Nat) : Bool :=
  if 3 ≤ fmt ∧ fmt ≤ 5 then
    decide (stride < (if fmt = 5 then 18 else 9)) || decide (512 < (if layout = 0 then k else x0))
  else if 7 ≤ fmt ∧ fmt ≤ 10 then
    decide (stride * 64 < (if layout = 0 then k else x0) * fmtSize fmt)
  else true

/-- The slot a block goes to (R163, R164). -/
def accSlot (x : Desc) (mb nb : Nat) : Nat :=
  nfld (x.b 50) 0 6 + (if nbit (x.b 48) 6 then nb * nfld (x.b 51) 0 6 + mb else mb * nfld (x.b 51) 0 6 + nb)

/-- R186: backward descriptors, in the issued form. -/
def bwdChecks (x : Desc) : List Check :=
  let mB := nfld (x.b 49) 0 4 + 1
  let nB := nfld (x.b 49) 4 4 + 1
  let k := x.le 44 2
  let aFmt := nfld (x.b 46) 0 4
  let bFmt := nfld (x.b 47) 0 4
  let outFmt := nfld (x.b 48) 0 4
  let dest := nbit (x.b 48) 4
  let deriv := nbit (x.b 48) 7
  let trans := nbit (x.b 48) 6
  let step := nfld (x.b 51) 0 6
  let okFmt (f : Nat) : Bool := (3 ≤ f && f ≤ 5) || (7 ≤ f && f ≤ 10)
  [(16, x.le 16 6 % 64 != 0), (22, x.le 22 6 % 64 != 0), (28, x.le 28 6 % 64 != 0),
   (34, deriv && decide (49152 * 64 < x.le 34 2 * 64 + mB * 64 * 9 * 64 / 2)),
   (36, dest && x.b 36 != 0),
   (37, dest && x.b 37 == 0),
   (38, okFmt aFmt && operandBad aFmt (x.le 38 2) (x.b 46 / 32 % 2) (mB * 64) k),
   (40, okFmt bFmt && operandBad bFmt (x.le 40 2) (x.b 47 / 32 % 2) (nB * 64) k),
   (42, !dest && decide (x.le 42 2 * 64 < nB * 64 * fmtSize outFmt)),
   (44, k == 0),
   (46, !okFmt aFmt || decide (x.b 46 / 64 ≠ 0)),
   (47, !okFmt bFmt || decide (x.b 47 / 64 ≠ 0)),
   (48, !(7 ≤ outFmt && outFmt ≤ 11) || (dest && outFmt != 11) || (dest && deriv)),
   (49, deriv && decide (8 < nB)),
   (50, dest && decide (63 < accSlot x (mB - 1) (nB - 1))),
   (51, dest && decide (step < (if trans then mB else nB)) && decide (1 < (if trans then nB else mB)))]

/-- R192: convert descriptors, in the issued form. `fwdMask` is the OR of the shaker masks of in-flight forward
operations. -/
def cnvChecks (x : Desc) (fwdMask : Nat) : List Check :=
  let outFmt := nfld (x.b 46) 0 4
  let w := nfld (x.le 42 2) 0 11
  let sm := nfld (x.b 47) 0 2
  let src := nbit (x.b 47) 5
  [(1, x.roundMode == 2 && nbit fwdMask x.shaker),
   (16, x.le 16 6 % 64 != 0),
   (22, decide (x.le 22 2 < (if outFmt = 5 then 18 else 9))),
   (24, x.le 24 2 == 0),
   (26, nbit (x.b 46) 5 && x.le 26 6 % 64 != 0),
   (32, x.le 32 6 % 64 != 0),
   (42, w == 0 || decide (1024 < w) || decide (x.le 42 2 / 2 ^ 11 ≠ 0)),
   (44, decide (49152 * 64 < x.le 44 2 * 64 + w * 8)),
   (46, !(3 ≤ outFmt && outFmt ≤ 5) || (nbit (x.b 46) 5 && !nbit (x.b 47) 4) ||
     (nbit (x.b 46) 6 && (src || outFmt == 5))),
   (47, sm == 3),
   (48, (src && !(9 ≤ nfld (x.b 48) 0 4 && nfld (x.b 48) 0 4 ≤ 11)) || nbit (x.b 48) 7 ||
     decide (12 ≤ nfld (x.b 48) 0 4)),
   (49, decide (x.b 49 / 64 ≠ 0)), (50, nbit (x.b 50) 7), (51, sm == 2 && x.b 51 == 0xFF)]

/-- The extent of a copy's source or destination (R511): first byte and end. -/
def extent (a : Nat) (rows : Nat) (stride : Int) (rowBytes : Nat) : Int × Int :=
  let last := (a : Int) + ((rows : Int) - 1) * stride
  (min (a : Int) last, max (a : Int) last + rowBytes)

/-- R512: copy descriptors, in the issued form; `op` is 4, 5 or 7. -/
def cpyChecks (x : Desc) (op : Nat) : List Check :=
  let kind := nfld (x.b 42) 0 2
  let pace := nfld (x.b 42) 2 2
  let rows := x.le 32 2
  let rb := x.le 28 4
  let (sLo, sHi) := extent (x.le 16 6) rows (sgn 32 (x.le 34 4)) rb
  let (dLo, dHi) := extent (x.le 22 6) rows (sgn 32 (x.le 38 4)) rb
  let out (lo hi : Int) : Bool := decide (lo < 0) || decide ((2 : Int) ^ 48 < hi)
  let line := nfld (x.b 43) 0 6
  let remote := nbit (x.b 53) 5
  [(1, x.roundMode != 0),
   (16, (kind == 1 && x.le 16 6 != 0) || (kind != 1 && kind != 3 && out sLo sHi) ||
     (kind == 0 && !remote && decide (sLo < dHi ∧ dLo < sHi))),
   (22, out dLo dHi),
   (28, rb == 0), (32, rows == 0),
   (42, kind == 3 || pace == 3 || decide (x.b 42 / 64 ≠ 0)),
   (43, decide (x.b 43 / 64 ≠ 0) || (pace == 1 && decide ((if op = 7 then 10 else 2) ≤ line))),
   (48, decide (x.le 48 2 / 2 ^ 14 ≠ 0)),
   (50, pace == 2 && x.b 50 == 0), (51, pace == 2 && decide (x.b 50 ≤ x.b 51)),
   (52, decide (x.b 52 / 64 ≠ 0)),
   (53, decide (x.b 53 / 64 ≠ 0) || (op != 7 && nfld (x.b 53) 0 5 != 0) || decide (16 < nfld (x.b 53) 0 5) ||
     (remote && (op != 7 || kind == 2))),
   (54, !remote && x.le 54 2 != 0)]

/-- R365: TADD; all three addresses are judged (DEDUCED, log entry 36). -/
def taddChecks (x : Desc) : List Check :=
  let bad (i : Nat) : Bool := !nbit (x.le i 4) 31 && decide (nfld (x.le i 4) 15 16 ≠ 0)
  [(16, bad 16), (24, bad 24), (32, bad 32), (40, nfld (x.b 40) 0 2 == 0 || decide (x.b 40 / 4 ≠ 0))] ++
    zeroBytes x 41 55

/-- R366, R368: TARM. -/
def tarmChecks (x : Desc) : List Check :=
  let disarm := nbit (x.b 18) 2
  [(16, nbit (x.le 16 2) 15),
   (18, decide (x.b 18 / 8 ≠ 0) || (disarm && x.b 18 % 4 != 0)),
   (19, x.b 19 != 0),
   (20, (!disarm && x.le 20 4 == 0) || (disarm && x.le 20 4 != 0)),
   (24, disarm && x.le 24 4 != 0)] ++ zeroBytes x 28 55

/-- R370, R372: LOOP at address `pc`. -/
def loopChecks (x : Desc) (pc : Nat) : List Check :=
  [(16, x.le 16 4 == 0), (20, decide (x.b 20 / 4 ≠ 0)), (21, x.b 21 != 0),
   (22, x.le 22 2 == 0 || decide (4096 < x.le 22 2) || decide (pc < x.le 22 2 * 64))] ++ zeroBytes x 24 55

/-- R373: JUMP, in the issued form. -/
def jumpChecks (x : Desc) : List Check := (16, x.le 16 6 % 64 != 0) :: zeroBytes x 22 55

/-- R374: PASS. -/
def passChecks (x : Desc) : List Check := (22, decide (x.b 22 / 2 ≠ 0)) :: zeroBytes x 23 55

/-- Every check of R345 on a descriptor as fetched: `i` its loop counter, `pc` its address, `defaultPrec` of the tile,
`fwdMask` the shaker masks of in-flight forward operations. Units judge the issued form (R342). -/
def checks (x : Desc) (i pc defaultPrec fwdMask : Nat) : List Check :=
  let y := issued x i
  commonChecks x i ++
  match x.opcode with
  | 0 | 0x1F => zeroBytes x 16 55
  | 1 => fwdChecks y defaultPrec ++
      [(1, fwdMode y defaultPrec == 3 && x.roundMode == 2 && nbit (y.b 40) x.shaker)]
  | 2 => bwdChecks y
  | 3 => cnvChecks y fwdMask
  | 4 => cpyChecks y 4
  | 5 => cpyChecks y 5
  | 0x10 => taddChecks x
  | 0x11 => tarmChecks x
  | 0x18 => loopChecks x pc
  | 0x19 => jumpChecks y
  | 0x1A => passChecks x
  | _ => []

/-- The shakers an operation names (R343): its stochastic-rounding shaker, and a stream-plane forward operation's
mask. -/
def shakersOf (x : Desc) (defaultPrec : Nat) : Nat :=
  (if x.roundMode = 2 then 2 ^ x.shaker else 0) |||
    (if x.opcode = 1 ∧ fwdMode x defaultPrec = 3 then x.b 40 else 0)

end Sys2Proof.Machine
end

