-- ==== Sys2Proof/Machine/Cross.lean ====
section
/-! DEFINITION. Sending packets: the packet bytes, routing, output queues, credits, frames, tracking (R617, R636 to
R661, R1097, R1098). -/

namespace Sys2Proof.Machine

/-- The bytes of a packet: 24 header bytes and the payload padded to a multiple of 8 (R636, R638). -/
def Packet.bytes (k : Packet) : List Byte :=
  [k.typ, BitVec.ofNat 8 (k.vc.toNat + 4 * k.ttl.toNat)] ++ leBytes 2 k.dst.toNat ++ leBytes 2 k.src.toNat ++
    [k.unit, k.rsv] ++ leBytes 6 k.addr.toNat ++ leBytes 2 k.len.toNat ++ leBytes 4 k.tag.toNat ++
    leBytes 4 k.ext.toNat ++ padTo 0 ((k.payload.length + 7) / 8 * 8) k.payload

/-- The credits a packet costs: 64 bytes each, header included, rounded up (R658). -/
def Packet.credits (k : Packet) : Nat := (k.bytes.length + 63) / 64

/-- The packet a stream of bytes begins with, and its length in the stream (R636). -/
def parsePacket (bs : List Byte) : Packet :=
  let n := leAt bs 14 2
  { typ := bs.getD 0 0, vc := BitVec.ofNat 2 (byteAt bs 1), ttl := BitVec.ofNat 6 (byteAt bs 1 / 4),
    dst := BitVec.ofNat 16 (leAt bs 2 2), src := BitVec.ofNat 16 (leAt bs 4 2), unit := bs.getD 6 0,
    rsv := bs.getD 7 0, addr := BitVec.ofNat 48 (leAt bs 8 6), len := BitVec.ofNat 16 n,
    tag := BitVec.ofNat 32 (leAt bs 16 4), ext := BitVec.ofNat 32 (leAt bs 20 4), payload := slice bs 24 n }

/-- The acknowledged types of R1097. -/
def Packet.acked (k : Packet) : Bool := [1, 3, 4, 5].contains k.typ.toNat

/-- The register block offset of a port: local port `q % 8` of die `q / 8` (R678). -/
def portDie (q : Nat) : Nat := q / 8
def portLoc (q : Nat) : Nat := q % 8

/-- The training state of a port (LNK_PORT_STATUS.state). -/
def State.portState (s : State) (q : Nat) : Nat :=
  s.g (Reg.lnkPortStatus (portDie q) (portLoc q)) Reg.lnkPortStatus_state

/-! ## The module reference (R935 to R939, R943) -/

/-- The reference port is in state 5. -/
def refUp (s : State) : Bool := s.portState (s.g Reg.mckRefCfg Reg.mckRefCfg_ref_port) == 5

/-- The recovered reference is to be the module reference (R935, R936, R943). -/
def wantRecovered (s : State) : Bool :=
  if s.on Reg.mckStatus Reg.mckStatus_osc_ok then
    !s.on Reg.mckRefCfg Reg.mckRefCfg_root && !s.on Reg.mckRefCfg Reg.mckRefCfg_force_local &&
      s.on Reg.mckStatus Reg.mckStatus_qualified
  else refUp s

/-- The module reference follows its rules: qualification falls with the port (R938), and a change of source is counted
and raised (R939). -/
def State.refUpdate (s : State) : State :=
  let s1 := if refUp s then s else
    (s.p Reg.mckStatus Reg.mckStatus_qualified 0).setM { s.m with clk := { s.m.clk with refGood := 0 } }
  let w := wantRecovered s1
  if w == s1.on Reg.mckStatus Reg.mckStatus_ref_src then s1
  else ((s1.p Reg.mckStatus Reg.mckStatus_ref_src w.toNat).mbrk (Reg.mckCnt32 0) 0x24 0 1).raise ⟨0x24, 0, 0⟩ .module

/-- Set the state of a port; the reference follows. -/
def State.setPortState (s : State) (q v : Nat) : State :=
  (s.p (Reg.lnkPortStatus (portDie q) (portLoc q)) Reg.lnkPortStatus_state v).refUpdate

/-- Credits a transmitter starts with on a VC (R658). -/
def vcCredits (v : Nat) : Nat := if v < 2 then 1536 else 512

/-- Credits a transmitter holds on a VC. -/
def PortS.avail (x : PortS) (v : Nat) : Nat :=
  vcCredits v - (x.spent.getD v 0 + 16384 - x.returned.getD v 0) % 16384

/-- The credit fields of the next frame: two VCs, in turn by sequence number (DESIGN CHOICE, log entry 15). -/
def PortS.crFields (x : PortS) : List (Nat × Nat) :=
  if x.seq % 2 = 0 then [(0, x.given.getD 0 0), (1, x.given.getD 1 0)] else [(2, x.given.getD 2 0), (3, x.given.getD 3 0)]

/-- The data frames that carry the bytes of one packet, from sequence number `seq` on: 626 bytes each, the rest of the
last one fill (R612, R637). -/
def framesOf (x : PortS) (seq : Nat) : List (List Byte) → List FrameOut
  | [] => []
  | p :: ps =>
    ⟨true, seq % 4096, false, x.lastSeq, x.crFields, [], padTo 0 626 p⟩ :: framesOf x (seq + 1) ps

/-- The next packet an output port sends: VCs 2 and 3 before VCs 0 and 1, oldest first, with its credits held
(R655, R659). -/
def PortS.pick (x : PortS) : Option Packet :=
  let ok (k : Packet) : Bool := decide (k.credits ≤ x.avail k.vc.toNat)
  match x.txq.find? (fun k => decide (2 ≤ k.vc.toNat) && ok k) with
  | some k => some k
  | none => x.txq.find? (fun k => decide (k.vc.toNat < 2) && ok k)

/-- Send queued packets of a port while it is up, holds credits, and its replay buffer has room. -/
def State.pump (s : State) (q : Nat) : Nat → State
  | 0 => s
  | n + 1 =>
    let x := s.port q
    if s.portState q ≠ 5 then s else
    match x.pick with
    | none => s
    | some k =>
      let fs := framesOf x x.seq (chunks 8 626 k.bytes)
      if 512 < x.held.length + fs.length then s else
      let v := k.vc.toNat
      let x' := { x with txq := x.txq.erase k, seq := (x.seq + fs.length) % 4096, held := x.held ++ fs,
                         spent := x.spent.set v ((x.spent.getD v 0 + k.credits) % 16384) }
      (((s.setPort q x').emitAll (fs.map (Emit.frame q))).dcnt (portDie q) (80 + 5 * portLoc q)
        k.payload.length).pump q n

/-- Queue a packet for output on a port and send what can be sent. -/
def State.enqueue (s : State) (q : Nat) (k : Packet) : State :=
  let x := s.port q
  (s.setPort q { x with txq := x.txq ++ [k] }).pump q (x.txq.length + 1)

/-- Whether a station word is this module's (R646). -/
def isOwn (s : State) (d st : Nat) : Bool :=
  st == s.g (Reg.lnkStation d) Reg.lnkStation_station || st == s.g (Reg.lnkStation d) Reg.lnkStation_home

/-- The ACK of a packet: status, and the cause of a refusal (R640, R1097). -/
def ackOf (s : State) (d : Nat) (k : Packet) (status cause : Nat) : Packet :=
  { typ := 2, vc := 2, ttl := BitVec.ofNat 6 (s.g (Reg.lnkCfg d) Reg.lnkCfg_ttl_init), dst := k.src,
    src := BitVec.ofNat 16 (s.g (Reg.lnkStation d) Reg.lnkStation_station), unit := k.unit, rsv := 0, addr := k.addr,
    len := 0, tag := k.tag, ext := BitVec.ofNat 32 (status % 16 + cause % 16 * 16), payload := [] }

/-- The route entry of a destination station (R645). -/
def routeEntry (s : State) (d dst : Nat) : Nat := fld (s.rd (Reg.lnkRoute d (dst / 4))) (16 * (dst % 4)) 16

/-- The port a packet leaves by and whether it moves to the odd VC; none where no port qualifies (R648 to R651). -/
def routePort (s : State) (d : Nat) (k : Packet) : Option (Nat × Bool) :=
  let e := routeEntry s d k.dst.toNat
  let a := (nfld e 0 4, nbit e 10)
  let b := (nfld e 4 4, nbit e 11)
  let up (x : Nat × Bool) : Bool := s.portState x.1 == 5
  let f := (k.src.toNat % 256) ^^^ (k.src.toNat / 256) ^^^ (k.dst.toNat % 256) ^^^ k.unit.toNat
  let (x, y) := if nfld e 8 2 = 2 ∧ popcount8 f % 2 = 1 then (b, a) else (a, b)
  if nfld e 8 2 = 0 then none else if up x then some x else if up y then some y else none

/-- Send a packet by the route entry of its dst (R647 to R652): on a port, or discarded, with an ACK to route for the
acknowledged types. -/
def State.forward (s : State) (d : Nat) (k : Packet) : Option Packet × State :=
  match routePort s d k with
  | none =>
    let s1 := (s.dbrk d 113 1).raise ⟨0x15, 0, 0⟩ (.die d)
    (if k.acked then some (ackOf s1 d k 2 0) else none, s1)
  | some (q, odd) =>
    if k.ttl.toNat ≤ 1 then
      let s1 := (s.dbrk d 114 1).raise ⟨0x15, 0, 1⟩ (.die d)
      (if k.acked then some (ackOf s1 d k 3 0) else none, s1)
    else (none, s.enqueue q { k with ttl := k.ttl - 1, vc := if odd then k.vc ||| 1 else k.vc })

/-- Route a packet in the cross of a die (R646 to R652): delivered on this module, or sent on. `fuel` 0 discards silently,
as an ACK that cannot be delivered is. -/
def State.route (s : State) (d : Nat) (k : Packet) : Nat → State
  | 0 => s
  | fuel + 1 =>
    if isOwn s d k.dst.toNat then s.emit (.deliver k)
    else match s.forward d k with
      | (none, s1) => s1
      | (some a, s1) => s1.route d a fuel

/-- Send a packet of a unit of die `d`: an acknowledged type is tracked, or held while 4 096 are (R641). -/
def State.sendPkt (s : State) (d : Nat) (o : Owner) (k : Packet) : State :=
  let x := s.die d
  if !k.acked then s.route d k 2
  else if 4096 ≤ x.track.length then s.setDie d { x with heldPkts := x.heldPkts ++ [(o, k)] }
  else
    let k' := { k with tag := BitVec.ofNat 32 x.nextTag }
    (s.setDie d { x with track := x.track ++ [Track.mk x.nextTag o s.now k'],
                         nextTag := (x.nextTag + 1) % 2 ^ 32 }).route d k' 2

/-- A packet of a unit of die `d`: type, destination station, source unit, address, ext and payload. -/
def mkPkt (s : State) (d typ dst unit addr ext : Nat) (payload : List Byte) : Packet :=
  { typ := BitVec.ofNat 8 typ, vc := 0, ttl := BitVec.ofNat 6 (s.g (Reg.lnkCfg d) Reg.lnkCfg_ttl_init),
    dst := BitVec.ofNat 16 dst, src := BitVec.ofNat 16 (s.g (Reg.lnkStation d) Reg.lnkStation_station),
    unit := BitVec.ofNat 8 (d + unit * 2), rsv := 0, addr := BitVec.ofNat 48 addr,
    len := BitVec.ofNat 16 payload.length, tag := 0, ext := BitVec.ofNat 32 ext, payload := payload }

/-- Send bytes to a station in WRITE packets of up to 4 096 bytes. -/
def State.sendWrites (s : State) (d : Nat) (o : Nat → Owner) (dst unit : Nat) (a : Nat) : List (List Byte) → State
  | [] => s
  | p :: ps => (s.sendPkt d (o a) (mkPkt s d 1 dst unit a 0 p)).sendWrites d o dst unit (a + p.length) ps

end Sys2Proof.Machine
end

