-- ==== Sys2Proof/Machine/Tally.lean ====
section
/-! DEFINITION. The tally file: values, adds, arms, judging of waits, the banks' queues, remote adds, and the stages a
sequencer's head descriptor has passed (R350 to R354, R376 to R393, R418, R419). -/

namespace Sys2Proof.Machine

/-- The value of a tally. -/
def tVal (s : State) (d n : Nat) : Nat := s.g (Reg.tlyState d n) Reg.tlyState_value
/-- The target of a tally. -/
def tTarget (s : State) (d n : Nat) : Nat := s.g (Reg.tlyState d n) Reg.tlyState_target
/-- Whether a tally is armed. -/
def tArmed (s : State) (d n : Nat) : Bool := s.on (Reg.tlyStateMode d n) Reg.tlyStateMode_armed
/-- Whether a tally subtracts its target when a wait on it is met. -/
def tAuto (s : State) (d n : Nat) : Bool := s.on (Reg.tlyStateMode d n) Reg.tlyStateMode_auto_dec

/-- A wait on a tally is met: armed, and its value at least its target (R377). -/
def tMet (s : State) (d n : Nat) : Bool := tArmed s d n && decide (tTarget s d n ≤ tVal s d n)

/-- What judging a wait met does to the tally: auto_dec subtracts the target (R380). -/
def State.tConsume (s : State) (d n : Nat) : State :=
  if tAuto s d n then s.p (Reg.tlyState d n) Reg.tlyState_value (tVal s d n - tTarget s d n) else s

/-- Judge the registered waits of the tiles listed, in the order given (R384). -/
def State.judgeTiles (s : State) (d n : Nat) : List Nat → State
  | [] => s
  | t :: ts =>
    let x := s.tile d t
    if x.waitReg = some n ∧ tMet s d n then
      ((s.setTile d t { x with waitReg := none, waitJudged := true }).tConsume d n).judgeTiles d n ts
    else s.judgeTiles d n ts

/-- Judge the registered waits of die engines, in ascending unit number (R360; DEDUCED, log entry 16). -/
def State.judgeEngines (s : State) (d n : Nat) : List (Nat × Nat × Bool) → State
  | [] => s
  | (u, m, met) :: ws =>
    if m = n ∧ !met ∧ tMet s d n then
      let x := s.die d
      ((s.setDie d { x with engWait := x.engWait.map (fun w => if w.1 = u then (u, m, true) else w) }).tConsume d
        n).judgeEngines d n ws
    else s.judgeEngines d n ws

/-- Whether a bank's handover waits on a tally (R418). -/
def handWaits (s : State) (d t b n : Nat) : Bool :=
  let a := Reg.memBankHand d t b
  s.on a Reg.memBankHand_pending && s.g a Reg.memBankHand_mode == 2 && s.g a Reg.memBankHand_hand_tally == n &&
    !(s.die d).trig.contains (t, b)

/-- Judge the handover waits of the banks listed, in the order given (R419). -/
def State.judgeHands (s : State) (d n : Nat) : List (Nat × Nat) → State
  | [] => s
  | (t, b) :: bs =>
    if handWaits s d t b n ∧ tMet s d n then
      let x := s.die d
      ((s.setDie d { x with trig := x.trig ++ [(t, b)] }).tConsume d n).judgeHands d n bs
    else s.judgeHands d n bs

/-- The tiles of a die that State lists, ascending: no other tile has a registered wait. -/
def listedTiles (s : State) (d : Nat) : List Nat :=
  (s.tiles.filter (fun e => e.1 / 64 == d)).map (fun e => e.1 % 64)

/-- The bank registers of a die that State lists: tile banks before die-pool banks, each ascending (R419). -/
def listedHands (s : State) (d : Nat) : List (Nat × Nat) :=
  let all := s.regs.filterMap (fun e =>
    match regLoc e.1 with
    | some l => if l.blk == .mem && l.d == d && decide (0x200 ≤ l.off ∧ l.off ≤ 0x2C0)
        then some (l.t, (l.off - 0x200) / 8) else none
    | none => none)
  all.filter (fun x => decide (x.2 < 24)) ++ all.filter (fun x => x.2 == 24)

/-- Judge every wait on a tally: tiles, then die engines, then handovers (R383, R384, R419). -/
def State.judge (s : State) (d n : Nat) : State :=
  let s1 := s.judgeTiles d n (listedTiles s d)
  let s2 := s1.judgeEngines d n ((s1.die d).engWait)
  s2.judgeHands d n (listedHands s2 d)

/-- The value of a tally after an add, and whether it was clamped (R378). -/
def clampAdd (v : Nat) (amount : Int) : Nat × Bool :=
  let x := (v : Int) + amount
  if x < 0 then (0, true) else if (0xFFFFFFFF : Int) < x then (0xFFFFFFFF, true) else (x.toNat, false)

/-- One add at a tally (R378). -/
def State.tallyDoAdd (s : State) (d n : Nat) (amount : Int) : State :=
  let (v, out) := clampAdd (tVal s d n) amount
  let s1 := s.p (Reg.tlyState d n) Reg.tlyState_value v
  if out then s1.raise ⟨0x10, 0, 0⟩ (.die d) else s1

/-- What one operation does to the tallies of its bank, before waits are judged (R367 to R369, R378, R1095). -/
def State.tallyDo (s : State) (d bank : Nat) : TallyOp → State
  | .add n amount => s.tallyDoAdd d n amount
  | .level n _ => s.tallyDoAdd d n (-1)
  | .arm n target autoDec value =>
    let s1 := (s.p (Reg.tlyState d n) Reg.tlyState_target target).p (Reg.tlyStateMode d n) Reg.tlyStateMode_auto_dec
      autoDec.toNat
    let s2 := match value with
      | some v => s1.p (Reg.tlyState d n) Reg.tlyState_value v
      | none => s1
    s2.p (Reg.tlyStateMode d n) Reg.tlyStateMode_armed 1
  | .disarm n => s.p (Reg.tlyStateMode d n) Reg.tlyStateMode_armed 0
  | .setState n w => s.wr (Reg.tlyState d n) w
  | .setMode n w => s.wr (Reg.tlyStateMode d n) (BitVec.ofNat 64 (w.toNat % 4))
  | .clear =>
    s.dropRegs (fun a => decide (Reg.tlyState d 0 ≤ a ∧ a < Reg.tlyState d 16384) &&
        (a - Reg.tlyState d 0) / 16 % 8 == bank)

/-- The tally an operation names. -/
def TallyOp.tally : TallyOp → Option Nat
  | .add n _ | .level n _ | .arm n _ _ _ | .disarm n | .setState n _ | .setMode n _ => some n
  | .clear => none

/-- Perform one operation of a bank, count it and judge its tally's waits (R381, R383). -/
def State.tallyPerform (s : State) (d bank : Nat) (o : TallyOp) : State :=
  let s1 := (s.tallyDo d bank o).dcnt d 5 1
  match o.tally with
  | some n => s1.judge d n
  | none => s1

/-- Queue an operation at the bank of its tally (R381, R382). -/
def State.tallyQueue (s : State) (d n : Nat) (o : TallyOp) : State :=
  let x := s.die d
  s.setDie d { x with banks := x.banks.set (n % 8) (x.banks.getD (n % 8) [] ++ [o]) }

/-- Record a remote add that cannot be delivered (R393). -/
def State.remoteLost (s : State) (d addr : Nat) : State :=
  let a := Reg.tlyRemoteLost d
  ((s.p a Reg.tlyRemoteLost_addr addr).p a Reg.tlyRemoteLost_lost
    (satAdd 0xFFFFFFFF (s.g a Reg.tlyRemoteLost_lost) 1)).raise ⟨0x10, 0, 1⟩ (.die d)

/-- One add to a tally address in the form of R339: local, or a TALLY_ADD packet to its station (R392, R638). `unit` is
the source unit of die `d`. -/
def State.addTally (s : State) (d unit addr : Nat) (amount : Int) : State :=
  if nbit addr 31 && !isOwn s d (nfld addr 15 16) then
    s.sendPkt d (.tallyAdd (addr % 2 ^ 31)) (mkPkt s d 4 (nfld addr 15 16) unit (addr % 2 ^ 31) (encS 32 amount) [])
  else s.tallyQueue (nfld addr 14 1) (nfld addr 0 14) (.add (nfld addr 0 14) amount)

/-- The completion add of a descriptor (R358). -/
def State.doneAdd (s : State) (d unit : Nat) (x : Desc) : State :=
  if x.doneEn then s.addTally d unit x.doneTally x.doneAmount else s

/-- Register the wait of a die engine's head descriptor, judged at once (R360, R385). -/
def State.engRegister (s : State) (d u n : Nat) : State :=
  let x := s.die d
  (s.setDie d { x with engWait := x.engWait.filter (·.1 != u) ++ [(u, n, false)] }).judge d n

/-- Whether an engine's wait has been met. -/
def engMet (s : State) (d u : Nat) : Bool := (s.die d).engWait.any (fun w => w.1 == u && w.2.2)

/-- Forget an engine's wait. -/
def State.engClear (s : State) (d u : Nat) : State :=
  let x := s.die d
  s.setDie d { x with engWait := x.engWait.filter (·.1 != u) }

/-! ## The head of a sequencer -/

/-- The loop counter a descriptor is indexed with (R340). -/
def loopCtr (s : State) (d t k : Nat) : Nat := fld (s.rd (Reg.seqLoop d t (k / 2))) (32 * (k % 2)) 32

/-- Set a loop counter. -/
def State.setLoop (s : State) (d t k v : Nat) : State := s.p (Reg.seqLoop d t (k / 2)) ⟨32 * (k % 2), 32⟩ v

/-- The address of the head descriptor. -/
def seqPcOf (s : State) (d t : Nat) : Nat := s.g (Reg.seqPc d t) Reg.seqPc_pc

/-- The OR of the shaker masks that in-flight forward operations of a tile name. -/
def fwdMask (s : State) (d t : Nat) : Nat :=
  ((s.tile d t).ops.filter (·.opcode == 1)).foldl (fun m o => m ||| byteAt o.desc 40) 0

/-- The validity checks of a head descriptor (R345). -/
def headChecks (s : State) (d t : Nat) (x : Desc) : List Check :=
  checks x (loopCtr s d t x.idxLoop) (seqPcOf s d t) (s.g (Reg.fwdCtl d t) Reg.fwdCtl_default_prec) (fwdMask s d t)

/-- The head descriptor, when it has arrived and its fetch did not fail. -/
def headDesc (s : State) (d t : Nat) : Option Desc :=
  match (s.tile d t).fetched with
  | f :: _ => if f.ready then f.bytes else none
  | [] => none

/-- Stages 1 to 3 of R352 for a head descriptor: ready, valid and of this generation, and past its fence. -/
def pastFence (s : State) (d t : Nat) (x : Desc) : Bool :=
  !anyBad (headChecks s d t x) && x.gen == s.g (Reg.seqGen d t) Reg.seqGen_gen &&
    !((x.fence || x.opcode == 0x1F) && (s.tile d t).ops != [])

/-- Whether an opcode's wait belongs to a die engine (R359, R360). -/
def engineOp (op : Nat) : Bool := 6 ≤ op && op ≤ 9

/-- A sequencer that works: running, and its tile's clocks run. -/
def seqActive (s : State) (d t : Nat) : Bool := (s.tile d t).run == .running && s.tileClk d t

/-- The head reaching its place: a failed fetch halts (R335); a descriptor reaching stage 4 registers its wait, judged
at once (R385). -/
def State.advance (s : State) (d t : Nat) : State :=
  let x := s.tile d t
  if !seqActive s d t then s else
  match x.fetched with
  | ⟨none, true⟩ :: _ => (s.seqHalt d t 6).raise ⟨0x05, 0, 3⟩ (.tile d t)
  | ⟨some h, true⟩ :: _ =>
    if h.waitEn && !engineOp h.opcode && x.waitReg.isNone && !x.waitJudged && !x.waitMet && pastFence s d t h then
      (s.setTile d t { x with waitReg := some h.waitTally }).judge d h.waitTally
    else s
  | _ => s

end Sys2Proof.Machine
end

