-- ==== Sys2Proof/Machine/RegOp.lean ====
section
/-! DEFINITION. Writes of one register by a requester: the checks of R484, the ungate of R20, the answer, and the
access errors a register write itself returns (R5 to R10, R16 to R20). -/

namespace Sys2Proof.Machine

/-- An access reaches a register: a gated tile whose register it is ungates (R20, R954). -/
def State.touch (s : State) (a : Nat) : State :=
  match rgnOf a with
  | .reg l => if l.blk.isTile then s.ungate l.d l.t else s
  | _ => s

/-- A write returns an access error to its writer. -/
def State.fail (s : State) (e : AccErr) : State := s.answer (.error e)

/-- A module without identity accepts only the flash writes of R883 and the restart writes of R866 (R881). -/
def notFurnished (s : State) (a : Nat) : Bool :=
  s.on Reg.mgtStatus Reg.mgtStatus_alert &&
    !(a == Reg.mgtCtl || a == Reg.mgtFlashCmd || decide (Reg.mgtFlashData 0 ≤ a ∧ a < Reg.mgtFlashData 32))

/-- A write of a register by a requester: refused by the first check that refuses, else acknowledged after `f`. -/
def State.regWr (s : State) (r : Requester) (a : Nat) (f : State → State) : State :=
  match checkAccess s r true a with
  | some e => (s.refuse r a true e).answer (.error e)
  | none => if notFurnished s a then s.fail .busy else f ((s.touch a).answer .ack)

/-- The event of R10 for a register of a die. -/
def State.reserved (s : State) (d : Nat) : State := s.raise ⟨0x1A, 0, 1⟩ (.die d)

/-! ## Die-engine queues -/

/-- The queue of a die engine: 64 update unit, 65 porter, 66 clearing engine, 67 + c die copy channel c. -/
def DieS.queue (x : DieS) (u : Nat) : List QDesc :=
  if u = 64 then x.updQ else if u = 65 then x.prtQ else if u = 66 then x.clrQ else x.chQ.getD (u - 67) []

/-- Replace the queue of a die engine. -/
def DieS.setQueue (x : DieS) (u : Nat) (q : List QDesc) : DieS :=
  if u = 64 then { x with updQ := q } else if u = 65 then { x with prtQ := q }
  else if u = 66 then { x with clrQ := q } else { x with chQ := x.chQ.set (u - 67) q }

/-- How many descriptors a queue holds at most (R280, R514, R601, R679). -/
def queueCap (u : Nat) : Nat := if u < 67 then 32 else 8

/-- The channel a die copy descriptor joins (R514): dchan below 16, else the shortest queue, the lowest on a tie. -/
def dcpRoute (x : DieS) (desc : Desc) : Nat :=
  let n := nfld (desc.b 53) 0 5
  if n < 16 then n
  else
    let len (c : Nat) : Nat := (x.chQ.getD c []).length
    (List.range 16).foldl (fun best c => if len c < len best then c else best) 0

/-- Register the wait of the descriptor at the front of a queue, when it has one (R360; DEDUCED, log entry 16). -/
def State.engHead (s : State) (d u : Nat) : State :=
  match (s.die d).queue u with
  | x :: _ => if x.desc.waitEn then s.engRegister d u x.desc.waitTally else s.engClear d u
  | [] => s.engClear d u

/-- The wait of a queued descriptor is met, or it has none. -/
def engReady (s : State) (d u : Nat) (x : QDesc) : Bool := !x.desc.waitEn || engMet s d u

/-- The event a full queue raises (R281, R515, R601, R679). -/
def fullEvent (u : Nat) : Ev :=
  if u = 64 then ⟨0x11, 0, 0⟩ else if u = 65 then ⟨0x17, 0, 5⟩ else if u = 66 then ⟨0x16, 0, 0⟩ else ⟨0x18, 0, 4⟩

/-- A descriptor arrives at an engine: true when its queue was full and it was dropped (R281, R515). A descriptor
reaching the update unit wakes the array root (R954). -/
def State.engPush (s : State) (d u : Nat) (x : QDesc) : Bool × State :=
  let y := s.die d
  let q := y.queue u
  if queueCap u ≤ q.length then
    (true, s.raise (fullEvent u) (.die d)
      { source := if u < 67 then 0 else u - 67, issue := x.issue, mark := x.desc.mark })
  else
    let s1 := s.setDie d (y.setQueue u (q ++ [x]))
    let s2 := if u = 64 then s1.arrayWake d else s1
    (false, if q = [] then s2.engHead d u else s2)

/-- Remove the front descriptor of a queue and register the next one's wait. -/
def State.engPop (s : State) (d u : Nat) : State :=
  let y := s.die d
  (s.setDie d (y.setQueue u (y.queue u).tail)).engHead d u

/-- Discard every queued descriptor of an engine. -/
def State.engFlush (s : State) (d u : Nat) : State := (s.setDie d ((s.die d).setQueue u [])).engHead d u

/-- The requester of an engine. -/
def engReq (d u : Nat) : Requester :=
  let dd : Die := Fin.ofNat 2 d
  if u = 64 then .update dd else if u = 65 then .porter dd else if u = 66 then .clearing dd
  else .dieChan dd (Fin.ofNat 16 (u - 67))

/-- A warden's write of a submit register (R1093, R281, R515): the engine reads the descriptor, and queues it. -/
def State.submit (s : State) (r : Requester) (d u a v : Nat) : State :=
  s.regWr r a (fun s1 =>
    let addr := v % 2 ^ 48
    if addr % 64 ≠ 0 then (s1.reserved d).fail .value
    else match s1.readLine (engReq d u) addr with
      | (none, s2) => s2.fail .denied
      | (some bs, s2) =>
        let ch := if u = 67 then 67 + dcpRoute (s2.die d) bs else u
        match s2.engPush d ch ⟨bs, 0, addr, 255⟩ with
        | (true, s3) => s3.fail .busy
        | (false, s3) => s3)

end Sys2Proof.Machine
end

