-- ==== Sys2Proof/Machine/Seq.lean ====
section
/-! DEFINITION. The tile sequencer: start and halt, fetch, issue of every opcode, waits, sleep and wake, and the
tally file's commands (R334 to R400, R990 to R992, R1095). -/

namespace Sys2Proof.Machine

/-! ## Start-up numerics (R252 to R256) -/

/-- Whether start-up numerics runs on a tile (R252). -/
def startupOn (s : State) (d t : Nat) : Bool :=
  decide (s.g (Reg.seqPass d t) Reg.seqPass_pass < s.g (Reg.wghStartup d t) Reg.wghStartup_end_pass)

/-- The event of a change of WGH_STATUS.startup from `before` (R255, R256). -/
def State.startupEdge (s : State) (d t : Nat) (before : Bool) : State :=
  if startupOn s d t = before then s
  else if before then s.raise ⟨0x04, 0, 5⟩ (.tile d t) else s.raise ⟨0x04, 0, 4⟩ (.tile d t)

/-- Set the pass number of a tile (R374). -/
def State.setPass (s : State) (d t v : Nat) : State :=
  (s.p (Reg.seqPass d t) Reg.seqPass_pass v).startupEdge d t (startupOn s d t)

/-! ## Start, halt, fetch -/

/-- Start an idle or halted sequencer: halt_cause clears, and it runs once the generations agree (R397 to R399). -/
def State.seqStart (s : State) (d t : Nat) : State :=
  let x := s.tile d t
  if x.run = .running then s
  else
    let y : TileS :=
      { x with run := .running, fetched := [], waitReg := none, waitJudged := false, waitMet := false }
    ((s.p (Reg.seqStatus d t) Reg.seqStatus_halt_cause 0).setTile d t y).genCheck d t

/-- SEQ_START (R399): the write of SEQ_CTL.start. -/
def execSeqStart (r : Requester) (d : Die) (t : Tile) (s : State) : Host.Outcome State Fault Refusal :=
  .next (s.regWr r (Reg.seqCtl d t) (fun s1 => s1.seqStart d t))

/-- SEQ_HALT (R400): the write of SEQ_CTL.halt halts at once, and ungates a gated tile (R395). -/
def execSeqHalt (r : Requester) (d : Die) (t : Tile) (s : State) : Host.Outcome State Fault Refusal :=
  match checkAccess s r true (Reg.seqCtl d t) with
  | some e => .next ((s.refuse r (Reg.seqCtl d t) true e).answer (.error e))
  | none => if notFurnished s (Reg.seqCtl d t) then .next (s.fail .busy)
    else .next (((s.seqHalt d t 7).touch (Reg.seqCtl d t)).answer .ack)

/-- Whether a sequencer may fetch another descriptor: running, fewer than 8 held, none failed, and none of LOOP, JUMP
and END held (R335, R336). -/
def mayFetch (s : State) (d t : Nat) : Bool :=
  seqActive s d t && decide ((s.tile d t).fetched.length < 8) &&
    (s.tile d t).fetched.all (fun f => match f.bytes with
      | none => false
      | some b => !([0x18, 0x19, 0x1F].contains (Desc.opcode b)))

/-- DESC_FETCH (R334 to R337): the next descriptor after those held is read. -/
def execDescFetch (d : Die) (t : Tile) (s : State) : Host.Outcome State Fault Refusal :=
  if mayFetch s d t then
    let (bs, s1) := s.readLine (.seq d t) (seqPcOf s d t + 64 * (s.tile d t).fetched.length)
    let x := s1.tile d t
    .next (s1.setTile d t { x with fetched := x.fetched ++ [⟨bs, false⟩] })
  else .next s

/-- Mark the oldest descriptor that has not arrived as ready. -/
def markReady : List Fetched → List Fetched
  | [] => []
  | f :: fs => if f.ready then f :: markReady fs else { f with ready := true } :: fs

/-- FETCH_RETURN (R338, R335, R385): the oldest outstanding fetch arrives; a head that thereby reaches stage 4
registers its wait, and a failed head halts. -/
def execFetchReturn (d : Die) (t : Tile) (s : State) : Host.Outcome State Fault Refusal :=
  let x := s.tile d t
  .next ((s.setTile d t { x with fetched := markReady x.fetched }).advance d t)

/-! ## Issue -/

/-- Whether stage 5 of R352 holds a descriptor of opcodes 0x01 to 0x05 (R353, R272). -/
def resourcesFree (s : State) (d t : Nat) (x : Desc) : Bool :=
  let ops := (s.tile d t).ops
  let n (op : Nat) : Nat := (ops.filter (fun o => o.opcode == op)).length
  let prec := s.g (Reg.fwdCtl d t) Reg.fwdCtl_default_prec
  let mine := shakersOf x prec
  (match x.opcode with
    | 1 => decide (ops.length < 4) && n 1 == 0 && n 2 == 0
    | 2 => decide (ops.length < 4) && decide (n 2 < 2) && n 1 == 0
    | 3 => decide (ops.length < 4) && n 3 == 0
    | 4 => decide (ops.length < 4) && n 4 == 0
    | 5 => decide (ops.length < 4) && n 5 == 0
    | _ => true) && ops.all (fun o => shakersOf o.desc prec &&& mine == 0)

/-- Halt on a refused head: cause, SEQ_HALT_INFO and EV_SEQ_REFUSED (R346, R347). -/
def State.seqRefuse (s : State) (d t cause off : Nat) (x : Desc) : State :=
  let a := Reg.seqHaltInfo d t
  ((((s.p a Reg.seqHaltInfo_pc (seqPcOf s d t)).p a Reg.seqHaltInfo_opcode x.opcode).p a Reg.seqHaltInfo_byte_off
    off).seqHalt d t cause).raise ⟨0x05, 0, 0⟩ (.tile d t) { mark := x.mark }

/-- Whether an opcode belongs to the class of OBS_OPC_CFG.class (R990). -/
def inClass (cls op : Nat) : Bool := (cls < 5 && op == cls + 1) || (cls == 5 && 1 ≤ op && op ≤ 5)

/-- The issue of a descriptor of the chosen class: the open period of the operation counters ends and a new one begins
(R990 to R992). -/
def State.opcPeriod (s : State) (d t op mark issue : Nat) : State :=
  let x := s.tile d t
  if !inClass (s.g (Reg.obsOpcCfg d t) Reg.obsOpcCfg_class) op then s else
  let c (k : Nat) : Nat × Nat := x.opc.getD k (0, 0)
  let put (s : State) (k : Nat) : State :=
    (s.wr (Reg.obsOpcLast d t k) (BitVec.ofNat 64 (c k).1)).p (Reg.obsOpcLastTag d t k) Reg.obsOpcLastTag_tag (c k).2
  let s1 := if x.opcOpen then
      (((put (put (put (put s 0) 1) 2) 3).trace d t 3 0 x.opcMark (c 0).2 (c 0).1 (c 1).1).trace d t 4 0 x.opcMark
        (c 2).2 (c 2).1 (c 3).1)
    else s
  s1.setTile d t { s1.tile d t with opc := List.replicate 4 (0, issue), opcOpen := true, opcMark := mark }

/-- The common effects of an issue: the issue number, the counter, the trace record, and the operation counters'
period (R356, R990, R998). -/
def State.issueMark (s : State) (d t : Nat) (x : Desc) : State :=
  let n := (s.g (Reg.seqIssued d t) Reg.seqIssued_issued + 1) % 2 ^ 32
  let s1 := ((s.p (Reg.seqIssued d t) Reg.seqIssued_issued n).cnt d t 16 1).trace d t 1 x.opcode x.mark n
    (seqPcOf s d t) (s.g (Reg.seqPass d t) Reg.seqPass_pass)
  s1.opcPeriod d t x.opcode x.mark n

/-- The head leaves the sequencer, SEQ_PC moves to `pc`, and the next head takes its place. -/
def State.popTo (s : State) (d t pc : Nat) : State :=
  let x := s.tile d t
  ((s.setTile d t { x with fetched := x.fetched.tail, waitReg := none, waitJudged := false, waitMet := false }).p
    (Reg.seqPc d t) Reg.seqPc_pc pc).advance d t

/-- Whether an opcode is reserved (R344). -/
def reservedOp (op : Nat) : Bool :=
  !([0, 1, 2, 3, 4, 5, 6, 7, 8, 9, 0x10, 0x11, 0x18, 0x19, 0x1A, 0x1F].contains op)

/-- The issue of the head descriptor, when it is of opcode `op` and has passed the stages of R352, as `act` says; an
invalid head, or one of another generation, halts the sequencer instead (R346, R347). A head of a reserved opcode is
refused by whichever issue command meets it. `act` gets the descriptor as fetched. -/
def State.issue (s : State) (d t op : Nat) (act : Desc → State → State) : State :=
  match headDesc s d t with
  | none => s
  | some x =>
    let bad := headChecks s d t x
    if !seqActive s d t then s
    else if x.opcode ≠ op ∧ !reservedOp x.opcode then s
    else if anyBad bad then s.seqRefuse d t 2 (lowestOff bad) x
    else if x.gen ≠ s.g (Reg.seqGen d t) Reg.seqGen_gen then s.seqRefuse d t 3 0xFF x
    else if engineOp op then act x s
    else if !pastFence s d t x || (x.waitEn && !(s.tile d t).waitMet) || !resourcesFree s d t x then s
    else act x s

/-- Issue to a unit of the tile: the operation enters flight (R355). A forward operation keeps the precision mode it
issued with (R87). -/
def State.issueUnit (s : State) (d t op : Nat) : State :=
  s.issue d t op (fun x s =>
    let pc := seqPcOf s d t
    let y := issued x (loopCtr s d t x.idxLoop)
    let y' := if op = 1 then y.setLe 34 1 (y.b 34 - y.b 34 % 4 + fwdMode y (s.g (Reg.fwdCtl d t)
      Reg.fwdCtl_default_prec)) else y
    let s1 := s.issueMark d t x
    let tl := s1.tile d t
    (s1.setTile d t { tl with ops := tl.ops ++
      [OpRec.mk op (s1.g (Reg.seqIssued d t) Reg.seqIssued_issued) pc y' false] }).popTo d t (pc + 64))

/-- Issue of a descriptor the sequencer performs itself: `act` is its effect, `pc` where SEQ_PC goes (R357, R358). -/
def State.issueOwn (s : State) (d t op : Nat) (act : Desc → State → State) (pc : State → Desc → Nat) : State :=
  s.issue d t op (fun x s =>
    let go := pc s x
    (((act x (s.issueMark d t x)).doneAdd d t x)).popTo d t go)

/-- Issue of a die-engine descriptor: the whole descriptor, as issued, joins the queue of its engine (R359 to R362). -/
def State.issueEngine (s : State) (d t op : Nat) (unit : DieS → Desc → Nat) : State :=
  s.issue d t op (fun x s =>
    let pc := seqPcOf s d t
    let y := issued x (loopCtr s d t x.idxLoop)
    let n := (s.g (Reg.seqIssued d t) Reg.seqIssued_issued + 1) % 2 ^ 32
    match s.engPush d (unit (s.die d) y) ⟨y, n, pc, t⟩ with
    | (true, s1) => (s1.seqHalt d t 5).raise ⟨0x05, 0, 2⟩ (.tile d t) { mark := x.mark }
    | (false, s1) => (s1.issueMark d t x).popTo d t (pc + 64))

/-- The address after the head. -/
def nextPc (d t : Nat) (s : State) (_ : Desc) : Nat := seqPcOf s d t + 64

/-- NOP (R344, R357). -/
def execNopOp (d : Die) (t : Tile) (s : State) : Host.Outcome State Fault Refusal :=
  .next (s.issueOwn d t 0 (fun _ s => s) (nextPc d t))

/-- FWD (R129, R353). -/
def execFwd (d : Die) (t : Tile) (s : State) : Host.Outcome State Fault Refusal := .next (s.issueUnit d t 1)

/-- BWD (R185, R353). -/
def execBwd (d : Die) (t : Tile) (s : State) : Host.Outcome State Fault Refusal := .next (s.issueUnit d t 2)

/-- CNV (R191, R353). -/
def execCnv (d : Die) (t : Tile) (s : State) : Host.Outcome State Fault Refusal := .next (s.issueUnit d t 3)

/-- CPY0 (R511, R353). -/
def execCpy0 (d : Die) (t : Tile) (s : State) : Host.Outcome State Fault Refusal := .next (s.issueUnit d t 4)

/-- CPY1 (R511, R353). -/
def execCpy1 (d : Die) (t : Tile) (s : State) : Host.Outcome State Fault Refusal := .next (s.issueUnit d t 5)

/-- UPD (R359). -/
def execUpd (d : Die) (t : Tile) (s : State) : Host.Outcome State Fault Refusal :=
  .next (s.issueEngine d t 6 (fun _ _ => 64))

/-- DCP (R359, R514). -/
def execDcp (d : Die) (t : Tile) (s : State) : Host.Outcome State Fault Refusal :=
  .next (s.issueEngine d t 7 (fun x y => 67 + dcpRoute x y))

/-- PRT (R359). -/
def execPrt (d : Die) (t : Tile) (s : State) : Host.Outcome State Fault Refusal :=
  .next (s.issueEngine d t 8 (fun _ _ => 65))

/-- CLR (R359). -/
def execClr (d : Die) (t : Tile) (s : State) : Host.Outcome State Fault Refusal :=
  .next (s.issueEngine d t 9 (fun _ _ => 66))

/-- The adds of a TADD, in order (R364). -/
def State.tadds (s : State) (d t : Nat) (x : Desc) : List Nat → State
  | [] => s
  | i :: is => (s.addTally d t (x.le i 4) (sgn 32 (x.le (i + 4) 4))).tadds d t x is

/-- TADD (R363, R364). -/
def execTadd (d : Die) (t : Tile) (s : State) : Host.Outcome State Fault Refusal :=
  .next (s.issueOwn d t 0x10 (fun x s => s.tadds d t x ([16, 24, 32].take (x.b 40 % 4))) (nextPc d t))

/-- The operation a TARM makes at its tally (R366, R367, R369). -/
def tarmOp (x : Desc) : TallyOp :=
  let n := x.le 16 2 % 2 ^ 14
  if nbit (x.b 18) 2 then .disarm n
  else .arm n (x.le 20 4) (nbit (x.b 18) 0) (if nbit (x.b 18) 1 then some (x.le 24 4) else none)

/-- TARM (R366 to R369). -/
def execTarm (d : Die) (t : Tile) (s : State) : Host.Outcome State Fault Refusal :=
  .next (s.issueOwn d t 0x11 (fun x s => s.tallyQueue (nfld (x.le 16 2) 14 1) (x.le 16 2 % 2 ^ 14) (tarmOp x))
    (nextPc d t))

/-- LOOP (R371). -/
def execLoopOp (d : Die) (t : Tile) (s : State) : Host.Outcome State Fault Refusal :=
  let again (s : State) (x : Desc) : Bool := decide ((loopCtr s d t (x.b 20) + 1) % 2 ^ 32 < x.le 16 4)
  .next (s.issueOwn d t 0x18
    (fun x s => s.setLoop d t (x.b 20) (if again s x then loopCtr s d t (x.b 20) + 1 else 0))
    (fun s x => if again s x then seqPcOf s d t - x.le 22 2 * 64 else seqPcOf s d t + 64))

/-- JUMP (R373). -/
def execJumpOp (d : Die) (t : Tile) (s : State) : Host.Outcome State Fault Refusal :=
  .next (s.issueOwn d t 0x19 (fun _ s => s) (fun s x => (issued x (loopCtr s d t x.idxLoop)).le 16 6))

/-- PASS (R374). -/
def execPassOp (d : Die) (t : Tile) (s : State) : Host.Outcome State Fault Refusal :=
  .next (s.issueOwn d t 0x1A
    (fun x s => s.setPass d t (if nbit (x.b 22) 0
      then (s.g (Reg.seqPass d t) Reg.seqPass_pass + x.le 16 6) % 2 ^ 48 else x.le 16 6)) (nextPc d t))

/-- END (R375): with nothing in flight, the completion add and a halt with cause 1; SEQ_PC stays at the END. -/
def execEndOp (d : Die) (t : Tile) (s : State) : Host.Outcome State Fault Refusal :=
  .next (s.issue d t 0x1F (fun x s => ((s.issueMark d t x).doneAdd d t x).seqHalt d t 1))

/-! ## Completion of an operation -/

/-- An operation of a tile completes (R355, R358, R1091): it leaves flight, its completion add is made unless a refused
write withheld it, its trace record is written, and the head may move on. -/
def State.opDone (s : State) (d t issue : Nat) : State :=
  let x := s.tile d t
  match x.ops.find? (fun o => o.issue == issue) with
  | none => s
  | some o =>
    let s1 := s.setTile d t { x with ops := x.ops.filter (fun o => o.issue != issue) }
    let s2 := if o.withheld then s1 else s1.doneAdd d t o.desc
    (s2.trace d t 2 o.opcode o.desc.mark issue o.addr (s.g (Reg.seqPass d t) Reg.seqPass_pass)).advance d t

/-- Note that a write of an operation was refused: its completion add is withheld, and the first refusal is recorded
in the exception log with code `idx 3, bit 1` of the unit (R1091). -/
def State.withhold (s : State) (d t issue blk addr cause : Nat) : State :=
  let x := s.tile d t
  match x.ops.find? (fun o => o.issue == issue) with
  | none => s
  | some o =>
    if o.withheld then s
    else
      let ops' := x.ops.map (fun o => if o.issue = issue then { o with withheld := true } else o)
      (s.setTile d t { x with ops := ops' }).record ⟨blk, 3, 1⟩ (.tile d t)
      { issue := issue, mark := o.desc.mark, pass := s.g (Reg.seqPass d t) Reg.seqPass_pass,
        detail := [BitVec.ofNat 64 (addr % 2 ^ 48 + 2 ^ 48 + 2 ^ 49 * cause)] }

/-! ## Waits, sleep and wake -/

/-- WAIT_MET_REPORT (R354, R385, R386, R954): the report of a judged wait reaches the sequencer; a gated tile ungates
first, and a stopped array root is started. -/
def execWaitMetReport (d : Die) (t : Tile) (s : State) : Host.Outcome State Fault Refusal :=
  if (s.tile d t).waitJudged then
    let s1 := s.arrayWake d
    if !s1.arrClk d then .next s1 else
    let s2 := s1.ungate d t
    let x := s2.tile d t
    if x.waitJudged then .next (s2.setTile d t { x with waitJudged := false, waitMet := true }) else .next s2
  else .next s

/-- TILE_GATE (R394): the head waits at stage 4 with nothing in flight. -/
def execTileGate (d : Die) (t : Tile) (s : State) : Host.Outcome State Fault Refusal :=
  let x := s.tile d t
  if seqActive s d t && x.waitReg.isSome && x.ops == [] then .next (s.setTile d t { x with gated := true })
  else .next s

/-- TILE_UNGATE (R395, R397): a gated tile whose wait was judged met finishes its ungate. -/
def execTileUngate (d : Die) (t : Tile) (s : State) : Host.Outcome State Fault Refusal :=
  if (s.tile d t).gated && (s.tile d t).waitJudged && (s.arrayWake d).arrClk d then .next (s.ungate d t) else .next s

/-! ## Tally commands -/

/-- TLY_ADD (R378): a write of TLY_ADD queues a signed add. -/
def execTlyAdd (r : Requester) (d : Die) (n : TallyIx) (v : Word) (s : State) : Host.Outcome State Fault Refusal :=
  .next (s.regWr r (Reg.tlyAdd d n.toNat) (fun s1 => s1.tallyQueue d n.toNat (.add n.toNat (sgn 32 (fld v 0 32)))))

/-- TALLY_BANK_OP (R381 to R386): a bank performs its oldest queued operation and judges the waits on its tally. -/
def execTallyBankOp (d : Die) (bank : Fin 8) (s : State) : Host.Outcome State Fault Refusal :=
  let x := s.die d
  match x.banks.getD bank.val [] with
  | [] => .next s
  | o :: os => .next ((s.setDie d { x with banks := x.banks.set bank.val os }).tallyPerform d bank.val o)

/-- Queue the clear at every bank of a die (R1095). -/
def State.tallyClear (s : State) (d : Nat) : State :=
  let x := s.die d
  s.setDie d { x with banks := x.banks.map (· ++ [.clear]) }

/-- TLY_CLEAR_ALL (R1095). -/
def execTlyClearAll (r : Requester) (d : Die) (s : State) : Host.Outcome State Fault Refusal :=
  .next (s.regWr r (Reg.tlyCtl d) (fun s1 => s1.tallyClear d))

end Sys2Proof.Machine
end

