-- ==== Sys2Proof/Machine/Banks.lean ====
section
/-! DEFINITION. Bank handover and invalidation, the region map, the repair queue and the row-cache size (R409 to R421,
R438, R475 to R481, R490, R504 to R506, R1089). -/

namespace Sys2Proof.Machine

/-! ## Handover -/

/-- Write the owner fields of a MEM_BANK_HAND: a reserved next_kind keeps its field (R10, R410, R444). -/
def State.handFields (s : State) (d t b : Nat) (v : Word) : State :=
  let a := Reg.memBankHand d t b
  let k := fld v 2 3
  let bad := decide (5 < k) || (b == 24 && k == 1)
  let s1 := ((if bad then s else s.p a Reg.memBankHand_next_kind k).p a Reg.memBankHand_next_id (fld v 5 8)).p a
    Reg.memBankHand_hand_tally (fld v 13 14)
  if bad then s1.reserved d else s1

/-- A handover write while one is pending is refused (R421). -/
def State.handBusy (s : State) (d t : Nat) : State := (s.raise ⟨0x06, 0, 3⟩ (.tile d t)).fail .handBusy

/-- A handover write of mode `mode` (R415, R421). -/
def State.handWrite (s : State) (d t b mode : Nat) (v : Word) : State :=
  let a := Reg.memBankHand d t b
  if s.on a Reg.memBankHand_pending then s.handBusy d t
  else
    let s1 := ((s.handFields d t b v).p a Reg.memBankHand_mode mode).p a Reg.memBankHand_pending 1
    if mode = 1 then s1.setDie d { s1.die d with trig := (s1.die d).trig ++ [(t, b)] }
    else s1.judge d (fld v 13 14)

/-- Cancel a pending handover (R420): the owner fields of the write take effect, mode and pending clear. -/
def State.handCancel (s : State) (d t b : Nat) (v : Word) : State :=
  let a := Reg.memBankHand d t b
  let s1 := ((s.handFields d t b v).p a Reg.memBankHand_mode 0).p a Reg.memBankHand_pending 0
  s1.setDie d { s1.die d with trig := (s1.die d).trig.filter (· != (t, b)) }

/-- BANK_HAND_NOW (R415): a MEM_BANK_HAND write of mode 0b01. -/
def execBankHandNow (r : Requester) (d : Die) (t : Tile) (b : BankIx) (v : Word) (s : State) :
    Host.Outcome State Fault Refusal :=
  .next (s.regWr r (Reg.memBankHand d t b) (fun s1 => s1.handWrite d t b 1 v))

/-- BANK_HAND_ON_TALLY (R415, R418): a MEM_BANK_HAND write of mode 0b10 registers a wait. -/
def execBankHandOnTally (r : Requester) (d : Die) (t : Tile) (b : BankIx) (v : Word) (s : State) :
    Host.Outcome State Fault Refusal :=
  .next (s.regWr r (Reg.memBankHand d t b) (fun s1 => s1.handWrite d t b 2 v))

/-- BANK_HAND_CANCEL (R420): a MEM_BANK_HAND write of mode 0b11, the register's other fields written as they stand. -/
def execBankHandCancel (r : Requester) (d : Die) (t : Tile) (b : BankIx) (s : State) :
    Host.Outcome State Fault Refusal :=
  .next (s.regWr r (Reg.memBankHand d t b) (fun s1 => s1.handCancel d t b (s1.rd (Reg.memBankHand d t b))))

/-- HANDOVER (R416): a triggered handover takes effect. -/
def execHandover (d : Die) (t : Tile) (b : BankIx) (s : State) : Host.Outcome State Fault Refusal :=
  if (s.die d).trig.contains (t.val, b.val) then
    let a := Reg.memBankHand d t b
    let o := Reg.memBankOwn d t b
    let s1 := (s.p o Reg.memBankOwn_kind (s.g a Reg.memBankHand_next_kind)).p o Reg.memBankOwn_id
      (s.g a Reg.memBankHand_next_id)
    let s2 := (s1.p a Reg.memBankHand_mode 0).p a Reg.memBankHand_pending 0
    .next (s2.setDie d { s2.die d with trig := (s2.die d).trig.filter (· != (t.val, b.val)) })
  else .next s

/-! ## Invalidation -/

/-- The regions whose bits are set in a MEM_INVALIDATE word. -/
def invalBits (v : Nat) : List Nat := (List.range 28).filter (nbit v)

/-- Start an invalidation (R438). -/
def State.invalStart (s : State) (d t v : Nat) : State :=
  let x := s.tile d t
  s.setTile d t { x with inval := x.inval ||| v % 2 ^ 28 }

/-- MEM_INVALIDATE (R438). -/
def execMemInvalidate (r : Requester) (d : Die) (t : Tile) (v : Word) (s : State) : Host.Outcome State Fault Refusal :=
  .next (s.regWr r (Reg.memInvalidate d t) (fun s1 => s1.invalStart d t v.toNat))

/-- Invalidate the regions of a list of bits. -/
def State.invalRegions (s : State) (d t : Nat) : List Nat → State
  | [] => s
  | b :: bs => (s.invalidate (invalRange d t b).1 (invalRange d t b).2).invalRegions d t bs

/-- INVALIDATE_DONE (R438): every line of the named regions becomes invalid, and the accesses that waited go on. -/
def execInvalidateDone (d : Die) (t : Tile) (v : Word) (s : State) : Host.Outcome State Fault Refusal :=
  let x := s.tile d t
  let n := x.inval &&& v.toNat
  if n = 0 then .next s
  else
    let s1 := (s.setTile d t { x with inval := x.inval ^^^ n }).invalRegions d t (invalBits n)
    .next (s1.release (· == .invalidating d t))

/-! ## Region map, repair queue, row-cache size -/

/-- Whether a region entry is one that R481 refuses to make valid: it covers no page, pages outside one tier of its
die, or sets cache outside tier 2. -/
def regionBad (d base n : Nat) (cache : Bool) : Bool :=
  let inside (lo hi : Nat) : Bool := decide (lo / 0x200000 ≤ base ∧ base + n ≤ hi / 0x200000)
  let hbm := inside (hbmBase d) (hbmBase d + 0x6000000000)
  let tr2 := inside (tr2Base d) (tr2Base d + 0xB400000000)
  n == 0 || !(hbm || tr2) || (cache && !tr2)

/-- Write one word of a region entry (R478, R481). -/
def State.regionWrite (s : State) (d n : Nat) (attr : Bool) (v : Word) : State :=
  if attr then
    let r := Reg.mapRegionRange d n
    let bad := fld v 0 1 == 1 && regionBad d (s.g r Reg.mapRegionRange_base_page) (s.g r Reg.mapRegionRange_npages)
      (fld v 6 1 == 1)
    let s1 := s.wr (Reg.mapRegionAttr d n) (setFld (BitVec.ofNat 64 (fld v 0 7)) 0 1 (if bad then 0 else fld v 0 1))
    if bad then s1.raise ⟨0x14, 0, 1⟩ (.die d) else s1
  else
    (s.p (Reg.mapRegionRange d n) Reg.mapRegionRange_base_page (fld v 0 27)).p (Reg.mapRegionRange d n)
      Reg.mapRegionRange_npages (fld v 32 20)

/-- MAP_REGION_WRITE (R478, R481). -/
def execMapRegionWrite (r : Requester) (d : Die) (n : Fin 256) (attr : Bool) (v : Word) (s : State) :
    Host.Outcome State Fault Refusal :=
  .next (s.regWr r (if attr then Reg.mapRegionAttr d n else Reg.mapRegionRange d n)
    (fun s1 => s1.regionWrite d n attr v))

/-- Remove the oldest entry of a die's repair queue (R508). -/
def State.repairPop (s : State) (d : Nat) : State :=
  let x := s.die d
  s.setDie d { x with repair := x.repair.tail }

/-- MAP_REPAIR_POP (R508): the write of MAP_REPAIR_STAT.pop. -/
def execMapRepairPop (r : Requester) (d : Die) (s : State) : Host.Outcome State Fault Refusal :=
  .next (s.regWr r (Reg.mapRepairStat d) (fun s1 => s1.repairPop d))

/-- Write every tag entry of a die's carve invalid (R462, R505). -/
def State.rcTagsClear (s : State) (d : Nat) : State :=
  let k := carveGib s d
  let lo := carveBase d k
  let hi := lo + 64 * rcSets k
  if k = 0 then s
  else (s.zeroRange lo hi).dropFlaws (fun a => decide (lo ≤ a ∧ a < hi))

/-- Write MAP_RC_CFG (R490, R505, R506, R1089): the carve takes its new size, its tags are being invalidated, and HBM
that leaves the carve holds contents the manual leaves open. -/
def State.rcResize (s : State) (d : Nat) (v : Word) : State :=
  let old := carveGib s d
  let k := fld v 0 8
  let s1 := if 192 < k then s.reserved d else s.p (Reg.mapRcCfg d) Reg.mapRcCfg_rc_gib k
  let new := carveGib s1 d
  let s2 := if new < old
    then s1.draw.2.setLoose (s1.loose ++ [⟨carveBase d old, carveBase d new, s1.free, []⟩]) else s1
  (s2.setDie d { s2.die d with rcInvalid := true }).rcTagsClear d

/-- MAP_RC_CFG_WRITE (R490, R505). -/
def execMapRcCfgWrite (r : Requester) (d : Die) (v : Word) (s : State) : Host.Outcome State Fault Refusal :=
  .next (s.regWr r (Reg.mapRcCfg d) (fun s1 => s1.rcResize d v))

/-- RC_INVALIDATE_DONE (R505): every tag of the die is invalid and rc_ready returns. -/
def execRcInvalidateDone (d : Die) (s : State) : Host.Outcome State Fault Refusal :=
  let x := s.die d
  if x.rcInvalid then .next (s.setDie d { x with rcInvalid := false }) else .next s

end Sys2Proof.Machine
end

