-- ==== Sys2Proof/Machine/Quire.lean ====
section
/-! DEFINITION. Quires and reams: integer readings, packing, headers, reading a quire (R26 to R35, R58 to R76). -/

namespace Sys2Proof.Machine

/-- Bits per value of a quire format (R26). -/
def qBits : Nat → Nat
  | 0 => 1 | 1 | 2 => 2 | 3 | 6 => 4 | 4 => 8 | _ => 16

/-- Values per quire (R30). -/
def qVals (f : Nat) : Nat := 512 / qBits f

/-- The integer reading of a code (R30). -/
def reading (f : Nat) (signed : Bool) (c : Nat) : Int :=
  match f with
  | 0 => if signed then 2 * (c % 2 : Nat) - 1 else (c % 2 : Nat)
  | 2 => if c % 4 = 1 then 1 else if c % 4 = 3 then -1 else 0
  | 6 => (c % 16 : Nat)
  | _ => if signed then sgn (qBits f) c else (c % 2 ^ qBits f : Nat)

/-- Element `j` of packed bytes at `b` bits each (R34, R35). -/
def packedAt (bs : List Byte) (b j : Nat) : Nat :=
  if b = 16 then leAt bs (2 * j) 2 else nfld (byteAt bs (j * b / 8)) (j * b % 8) b

/-- All elements of packed bytes. -/
def unpack (bs : List Byte) (b : Nat) : List Nat :=
  if b = 16 then (List.range (bs.length / 2)).map (fun j => leAt bs (2 * j) 2)
  else bs.flatMap (fun x => (List.range (8 / b)).map (fun i => nfld x.toNat (i * b) b))

/-- Pack elements of `b` bits into bytes (R34, R35): the first element of a byte in its lowest bits. -/
def pack (b : Nat) (es : List Nat) : List Byte :=
  leBytes (es.length * b / 8) (es.foldr (fun e acc => e % 2 ^ b + 2 ^ b * acc) 0)

/-- What a quire reads as. -/
inductive QStatus where
  | ok | invalid | badHeader
  /-- A read it needed was refused (R1090): as invalid, without an event. -/
  | failed
  deriving DecidableEq, Repr

/-- A quire as read: its status, its element integers, the exponent and activity of each element's sub-block, and
whether outlier channels were moved out. -/
structure QuireR where
  status : QStatus
  vals : List Int
  ks : List Int
  act : List Bool
  outl : Bool
  /-- W2T values read as 0b10 (R31). -/
  rsv : Nat
  deriving DecidableEq, Repr

/-- A quire that reads as zero. -/
def QuireR.zeros (f : Nat) (st : QStatus) : QuireR :=
  ⟨st, List.replicate (qVals f) 0, List.replicate (qVals f) 0, List.replicate (qVals f) false, false, 0⟩

/-- Shift s_i of a header (R58). -/
def hdrShift (h : List Byte) (i : Nat) : Nat := nfld (byteAt h (2 + i / 2)) (4 * (i % 2)) 4

/-- Read a quire against the operand's format and signed bit (R63 to R69). -/
def readQuire (f : Nat) (signed : Bool) (h pay : List Byte) : QuireR :=
  let b0 := byteAt h 0
  let outl := nbit b0 5
  let signUsed := f != 2 && f != 6
  if b0 % 16 ≠ f ∨ 64 ≤ b0 ∨ (signUsed && nbit b0 4 != signed) = true ∨ (outl && (f == 2 || f == 6 || f == 5)) = true
  then { QuireR.zeros f .badHeader with outl := outl }
  else if byteAt h 1 = 0xFF then { QuireR.zeros f .invalid with outl := outl }
  else
    let b := qBits f
    let zero (j : Nat) : Bool := nbit (byteAt h 6) (j * b / 64)
    let codes := unpack pay b
    let idx := List.range (qVals f)
    { status := .ok
      vals := (idx.zip codes).map (fun (j, c) => if zero j then 0 else reading f signed c)
      ks := idx.map (fun j => (byteAt h 1 : Int) - 127 - hdrShift h (j * b / 64))
      act := idx.map (fun j => !zero j)
      outl := outl
      rsv := if f = 2 then ((idx.zip codes).filter (fun (j, c) => c == 2 && !zero j)).length else 0 }

/-- Read quire `q` of a ream whose bytes were read as `bs` (none for bytes of a refused read) (R71, R1090). -/
def quireOf (f : Nat) (signed : Bool) (bs : List (Option Byte)) (q : Nat) : QuireR :=
  match whole (slice bs (8 * q) 8), whole (slice bs (64 * (1 + q)) 64) with
  | some h, some p => readQuire f signed h p
  | _, _ => QuireR.zeros f .failed

/-- A quire header's eight bytes (R58). -/
def quireHdr (f : Nat) (signed outl : Bool) (e : Nat) (sh : List Nat) (zs sats : Nat) : List Byte :=
  leBytes 1 (f + (if signed then 16 else 0) + (if outl then 32 else 0)) ++ leBytes 1 e ++
    leBytes 4 (sh.foldr (fun x acc => x % 16 + 16 * acc) 0) ++ leBytes 1 zs ++ leBytes 1 sats

/-- A number from a list of flags, bit i the i-th. -/
def flagBits : List Bool → Nat
  | [] => 0
  | b :: bs => b.toNat + 2 * flagBits bs

/-- A quire written invalid (R66): header and payload. -/
def quireInvalid (f : Nat) (signed : Bool) : List Byte × List Byte :=
  (quireHdr f signed false 0xFF [] 0 0, List.replicate 64 0)

/-- A quire beyond the end of a tensor slice (R76). -/
def quireEmpty (f : Nat) (signed : Bool) : List Byte × List Byte :=
  (quireHdr f signed false 0x7F [] 0xFF 0, List.replicate 64 0)

/-- The nine lines of a ream from its eight quires (R71). -/
def reamBytes (qs : List (List Byte × List Byte)) : List Byte := qs.flatMap (·.1) ++ qs.flatMap (·.2)

end Sys2Proof.Machine
end

