-- ==== Sys2Proof/Machine/Shaker.lean ====
section
/-! DEFINITION. The noise generators: sequence, words and 16-bit draws (R257 to R262, R275). -/

namespace Sys2Proof.Machine

/-- The next word of a 127-bit shaker state, and the state after it (R257, R258). -/
def shakerNext (st : Nat) : Nat × Nat :=
  let fresh := (st ^^^ (st / 2)) % 2 ^ 64
  (st % 2 ^ 64, st / 2 ^ 64 + 2 ^ 63 * fresh)

/-- One 64-bit word of the shaker whose state registers are `lo` and `hi` (R258, R259). -/
def State.shakerWord (s : State) (lo hi : Nat) : Nat × State :=
  let (w, st) := shakerNext (fld (s.rd lo) 0 64 + 2 ^ 64 * fld (s.rd hi) 0 63)
  (w, (s.wr lo (BitVec.ofNat 64 st)).wr hi (BitVec.ofNat 64 (st / 2 ^ 64 % 2 ^ 63)))

/-- `n` 16-bit numbers, taken first from those left of the last word (R261): the numbers, and what is left. -/
def State.draw16 (s : State) (lo hi : Nat) (left : List Nat) : Nat → List Nat × List Nat × State
  | 0 => ([], left, s)
  | n + 1 =>
    match left with
    | x :: xs =>
      let (r, l, s1) := s.draw16 lo hi xs n
      (x :: r, l, s1)
    | [] =>
      let (w, s1) := s.shakerWord lo hi
      let (r, l, s2) := s1.draw16 lo hi [nfld w 16 16, nfld w 32 16, nfld w 48 16] n
      (nfld w 0 16 :: r, l, s2)

/-- An operation of a tile draws from shaker `g` for the first time: a shared stream counts one (R275). -/
def State.genDrawn (s : State) (d t g : Nat) (drew : List Nat) : State :=
  if drew.contains g then s
  else if (s.rd (Reg.genCtl d t)).getLsbD g then s.brk d t 16 1 else s

/-- Write the state of a shaker: an all-zero state sets bit 0 (R260). -/
def State.shakerWrite (s : State) (lo hi : Nat) (isHi : Bool) (v : Word) : State :=
  let s1 := if isHi then s.wr hi (BitVec.ofNat 64 (v.toNat % 2 ^ 63)) else s.wr lo v
  if s1.rd lo = 0 ∧ fld (s1.rd hi) 0 63 = 0 then s1.wr lo 1 else s1

end Sys2Proof.Machine
end

