-- ==== Sys2Proof/Machine/Fwd.lean ====
section
/-! DEFINITION. The forward array: windows, lanes, side stall, combine, delivery (R78 to R132). -/

namespace Sys2Proof.Machine

/-- The in-flight forward operation of a tile. -/
def fwdOp (s : State) (d t : Nat) : Option OpRec := (s.tile d t).ops.find? (fun o => o.opcode == 1)

/-- Replace the forward state of a tile. -/
def State.setFwd (s : State) (d t : Nat) (f : Option FwdS) : State := s.setTile d t { s.tile d t with fwd := f }

/-! ## Weights -/

/-- The bytes of row `r` of weight set `k` (R81). -/
def wrow (s : State) (d t k r : Nat) : List Byte := s.bytes (slotBase d t + 0x400000 + 0x10000 * k + 128 * r) 128

/-- The column weights of row `r` (R79, R80, R82). -/
def weights (s : State) (d t : Nat) (x : Desc) (r : Nat) : List Int :=
  let wf := nfld (x.b 33) 0 4
  (unpack (wrow s d t (nfld (x.b 33) 5 2) r) (qBits wf)).map (reading wf (nbit (x.b 33) 4))

/-- Columns per vector (R79, R80). -/
def fwdCols (x : Desc) : Nat := if nfld (x.b 33) 0 4 = 0 then 1024 else 512

/-- The cells of a weight set that hold 0b10 (R83). -/
def badCells (s : State) (d t k : Nat) : Nat :=
  (List.range 512).foldl (fun n r => n + ((unpack (wrow s d t k r) 2).filter (· == 2)).length) 0

/-- Column sums of row values against the weights (R97, R116). -/
def columnSums (s : State) (d t : Nat) (x : Desc) (xs : List Int) : List Int :=
  ((List.range 512).zip xs).foldl (fun acc (r, a) =>
    if a = 0 then acc else (acc.zip (weights s d t x r)).map (fun (p, w) => p + a * w)) (List.replicate (fwdCols x) 0)

/-! ## First plane cycle -/

/-- Effective plane count and floor under start-up numerics (R91). -/
def effPlanes (startup : Bool) (p : Nat) : Nat := if startup then min 16 (p + 2) else p

/-- The adaptive window (R89): top and bottom planes, for max-abs magnitude `m`. -/
def adaptiveWindow (x : Desc) (p floor : Nat) (m : XV) : Int × Int :=
  let res := sgn 16 (x.le 36 2)
  let t : Int := match m with
    | .fin _ n d => if n = 0 then res + floor - 1 else XV.floorLog2 n d + (if nbit (x.b 32) 4 then 1 else 0)
    | _ => 0
  let u := if (p : Int) < t - res + 1 then t - p + 1 else res
  (t, if t - u + 1 < (floor : Int) then t - floor + 1 else u)

/-- FWD_FIRST_PLANE (R83, R87, R89 to R91, R132): the operation begins: its window mode is fixed, the weighhouse slot
is read, and reserved W2T cells are counted. -/
def execFwdFirstPlane (d : Die) (t : Tile) (s : State) : Host.Outcome State Fault Refusal :=
  match fwdOp s d t, (s.tile d t).fwd with
  | some o, none =>
    if !s.tileClk d t then .next s else
    let x := o.desc
    let mode := nfld (x.b 34) 0 2
    let start := startupOn s d t && mode != 3
    let p := effPlanes start (nfld (x.b 35) 0 4 + 1)
    let fl := effPlanes start (nfld (x.b 35) 4 4 + 1)
    let slot := Reg.wghSlot d t (nfld (x.b 41) 0 6)
    let m := (f32.dec (s.g slot Reg.wghSlot_value)).abs
    let stale := mode == 2 && (!s.on slot Reg.wghSlot_valid || !m.isFinite)
    let (top, bot) := if mode = 2 ∧ !stale then adaptiveWindow x p fl m else (0, 0)
    let s1 := if stale then s.raise ⟨0x01, 0, 1⟩ (.tile d t) { issue := o.issue, mark := x.mark } else s
    let s2 := if nfld (x.b 33) 0 4 = 2 then s1.brk d t 0 (badCells s d t (nfld (x.b 33) 5 2)) else s1
    let s3 := s2.p (Reg.fwdStatus d t) Reg.fwdStatus_active_wset (nfld (x.b 33) 5 2)
    .next (s3.setFwd d t (some
      { issue := o.issue, mode := if stale then 1 else mode, top := top, bottom := bot, planes := p,
        starts := List.replicate 8 0, oldest := 0, vecs := [], sideVec := 0, sideRound := 0, out := [],
        delivered := 0, drew := [] }))
  | _, _ => .next s

/-! ## Loading a vector -/

/-- Read line 0 of a ream and the payload lines of some of its quires: what each quire's header and payload read. -/
def State.readQuires (s : State) (r : Requester) (f : Nat) (signed : Bool) (a : Nat) (hd : Option (List Byte)) :
    List Nat → List QuireR × State
  | [] => ([], s)
  | q :: qs =>
    let (p, s1) := s.readLine r (a + 64 * (1 + q))
    let x := match hd, p with
      | some h, some b => readQuire f signed (slice h (8 * q) 8) b
      | _, _ => QuireR.zeros f .failed
    let (rest, s2) := s1.readQuires r f signed a hd qs
    (x :: rest, s2)

/-- Read quires of one ream. -/
def State.readReam (s : State) (r : Requester) (f : Nat) (signed : Bool) (a : Nat) (qs : List Nat) :
    List QuireR × State :=
  let (hd, s1) := s.readLine r a
  s1.readQuires r f signed a hd qs

/-- Read the quires of vector `v` at `a` with stride `stride` lines (R130). -/
def State.readVector (s : State) (r : Requester) (f : Nat) (signed : Bool) (a stride v : Nat) :
    List QuireR × State :=
  if f = 3 then s.readReam r f signed (a + v / 2 * stride * 64) ((List.range 4).map (· + 4 * (v % 2)))
  else if f = 4 then s.readReam r f signed (a + v * stride * 64) (List.range 8)
  else
    let q0 := s.readReam r f signed (a + v * stride * 64) (List.range 8)
    let q1 := q0.2.readReam r f signed (a + v * stride * 64 + 576) (List.range 8)
    (q0.1 ++ q1.1, q1.2)

/-- Raise the event of each quire that reads invalid (R67, R68). -/
def State.quireEvents (s : State) (e : Ev) (d t : Nat) (i : Info) : List QuireR → State
  | [] => s
  | q :: qs => (if q.status = .invalid ∨ q.status = .badHeader then s.raise e (.tile d t) i else s).quireEvents e d t i qs

/-- The window integer of an element and whether it was clipped (R92 to R95): `a` in a sub-block of exponent `k`. The
window of a signed input has its sign on plane t, so a signed element fits when its bits from plane t up are all its sign
(DEDUCED, log entry 24). -/
def alignElem (signed round : Bool) (top bot : Int) (a k : Int) : Int × Bool :=
  let w := (top - bot + 1).toNat
  let sh (u : Int) : Int := if 0 ≤ k - u then a * 2 ^ (k - u).toNat else a / 2 ^ (u - k).toNat
  let beyond := if signed then decide (sh top ≠ 0 ∧ sh top ≠ -1) else decide (sh (top + 1) ≠ 0)
  if beyond then
    (if signed then (if 0 < a then 2 ^ (w - 1) - 1 else -(2 ^ (w - 1))) else 2 ^ w - 1, true)
  else (if round then sh bot + sh (bot - 1) % 2 else sh bot, false)

/-- The planes a lane keeps (R101, R102): from the window codes of its 64 rows and their correction bits. -/
def keptPlanes (signed : Bool) (w : Nat) (codes : List Nat) (corr : Bool) : Nat :=
  let has (p : Nat) : Bool := codes.any (fun c => nbit c p)
  let same (p : Nat) : Bool := codes.all (fun c => nbit c p == nbit c (p - 1))
  let top := if signed then ((List.range w).reverse.find? (fun p => p == 0 || !same p)).getD 0 else w - 1
  ((List.range (top + 1)).filter has).length + corr.toNat

/-- The shakers a stream-plane operation draws from: those of shaker_mask, ascending (R114). -/
def maskBits (m : Nat) : List Nat := (List.range 8).filter (nbit m)

/-- One stream plane over the lanes that draw (R113, R114): each takes one word, and its rows' counts rise where the
byte of their sub-block is below their threshold. -/
def State.streamPlane (s : State) (d t : Nat) (sh : List Nat) (thr : List Nat) :
    List Nat → List Int → List Int × State
  | [], cnt => (cnt, s)
  | l :: ls, cnt =>
    let g := sh.getD (l % sh.length) 0
    let (w, s1) := s.shakerWord (Reg.genStateLo d t g) (Reg.genStateHi d t g)
    let cnt' := ((List.range 512).zip (cnt.zip thr)).map (fun (r, c, h) =>
      if r / 64 = l ∧ nfld w (8 * (r % 64 / 8)) 8 < h then c + 1 else c)
    s1.streamPlane d t sh thr ls cnt'

/-- `n` stream planes (R113). -/
def State.streamPlanes (s : State) (d t : Nat) (sh : List Nat) (thr : List Nat) (lanes : List Nat) :
    Nat → List Int → List Int × State
  | 0, cnt => (cnt, s)
  | n + 1, cnt =>
    let (c, s1) := s.streamPlane d t sh thr lanes cnt
    s1.streamPlanes d t sh thr lanes n c

/-- Count the shared shakers an operation now draws from (R275). -/
def State.genDrawnAll (s : State) (d t : Nat) (drew : List Nat) : List Nat → State
  | [] => s
  | g :: gs => (s.genDrawn d t g drew).genDrawnAll d t drew gs

/-- Read vector `v` of a forward operation and form its window integers (R88, R92 to R96, R112 to R116, R128). -/
def State.loadVec (s : State) (d : Die) (t : Tile) (o : OpRec) (f : FwdS) (v : Nat) : FwdVec × FwdS × State :=
  let x := o.desc
  let fmt := nfld (x.b 32) 0 4
  let signed := nbit (x.b 32) 4
  let (qs, s1) := s.readVector (.tileUnit d t) fmt signed (x.le 16 6) (x.le 22 2) v
  let s2 := s1.quireEvents ⟨0x01, 0, 0⟩ d t { issue := o.issue, mark := x.mark } qs
  let bad := qs.any (fun q => q.status != .ok)
  let vals := if bad then List.replicate 512 0 else qs.flatMap (·.vals)
  let ks := qs.flatMap (·.ks)
  let act := if bad then List.replicate 512 false else qs.flatMap (·.act)
  let ref : Option Int := (ks.zip act).foldl (fun m (k, on) =>
    if on then (match m with | none => some k | some j => some (max j k)) else m) none
  let b := qBits fmt
  let base : FwdVec :=
    { v := v, xs := List.replicate 512 0, kept := List.replicate 8 0, clips := List.replicate 8 0, lanes := [],
      bad := bad, outl := qs.any (·.outl), live := ref.isSome,
      top := if f.mode = 2 then f.top - f.bottom else (f.planes : Int) - 1, bottom := 0,
      sideBad := false, sideDone := !nbit (x.b 34) 3, side := [] }
  match ref with
  | none => (base, f, s2)
  | some T =>
    if f.mode = 3 then
      let thr := (vals.zip (ks.zip act)).map (fun (a, k, on) => if on then a.toNat / 2 ^ (T - k).toNat else 0)
      let lanes := (List.range 8).filter (fun l =>
        (slice (vals.zip act) (64 * l) 64).any (fun (a, on) => on && a != 0))
      let sh := maskBits (x.b 40)
      let used := (lanes.map (fun l => sh.getD (l % sh.length) 0)).eraseDups
      let n := nfld (x.b 39) 0 6 + 1
      let (cnt, s3) := s2.streamPlanes d t sh thr lanes n (List.replicate 512 0)
      ({ base with xs := cnt, top := T + 7, bottom := T, kept := (List.range 8).map (fun l =>
          if lanes.contains l then n else 0) },
        { f with drew := (f.drew ++ used).eraseDups }, s3.genDrawnAll d t f.drew used)
    else
      let (top, bot) := if f.mode = 2 then (f.top, f.bottom) else (T + b - 1, T + b - 1 - f.planes + 1)
      let w := (top - bot + 1).toNat
      let round := nbit (x.b 34) 2
      let al := (vals.zip (ks.zip act)).map (fun (a, k, on) =>
        if on then alignElem signed round top bot a k else (0, false))
      let cut := (vals.zip (ks.zip act)).map (fun (a, k, on) =>
        if on then (alignElem signed false top bot a k).1 else 0)
      let lane (l : Nat) : List (Int × Int) := slice ((al.map (·.1)).zip cut) (64 * l) 64
      ({ base with
          xs := al.map (·.1), top := top, bottom := bot
          kept := (List.range 8).map (fun l =>
            keptPlanes signed w ((lane l).map (fun p => encS w p.2)) ((lane l).any (fun p => p.1 != p.2)))
          clips := (List.range 8).map (fun l => ((slice al (64 * l) 64).filter (·.2)).length) },
        f, s2)

/-- The vector `v` of an operation, loaded when it is not yet in a slot. -/
def State.getVec (s : State) (d : Die) (t : Tile) (o : OpRec) (f : FwdS) (v : Nat) : FwdS × State :=
  if f.vecs.any (fun y => y.v == v) then (f, s)
  else
    let (y, f', s') := s.loadVec d t o f v
    ({ f' with vecs := f'.vecs ++ [y] }, s')

/-- Change vector `v` of an operation. -/
def FwdS.upd (f : FwdS) (v : Nat) (g : FwdVec → FwdVec) : FwdS :=
  { f with vecs := f.vecs.map (fun y => if y.v = v then g y else y) }

/-- LANE_VECTOR_START (R101 to R104, R67, R68, R95): a lane takes its next vector; the planes it keeps and skips and
the elements it clips are counted. -/
def execLaneVectorStart (d : Die) (t : Tile) (lane : Fin 8) (s : State) : Host.Outcome State Fault Refusal :=
  match fwdOp s d t, (s.tile d t).fwd with
  | some o, some f =>
    let v := f.starts.getD lane.val 0
    if !s.tileClk d t || decide (o.desc.le 24 2 ≤ v) || decide (f.oldest + 3 < v) then .next s else
    let (f1, s1) := s.getVec d t o f v
    match f1.vecs.find? (fun y => y.v == v) with
    | none => .next s1
    | some y =>
      let kept := y.kept.getD lane.val 0
      let window := (y.top - y.bottom + 1).toNat + (nbit (o.desc.b 34) 2).toNat
      let s2 := (s1.cnt d t 2 kept).cnt d t 3 (if f1.mode = 3 then 0 else window - kept)
      let s3 := s2.brk d t 3 (y.clips.getD lane.val 0)
      .next (s3.setFwd d t (some { f1.upd v (fun y => { y with lanes := y.lanes ++ [lane.val] }) with
        starts := f1.starts.set lane.val (v + 1) }))
  | _, _ => .next s

/-! ## Side stall -/

/-- Hold an integer to a two's complement range of `w` bits. -/
def clampBits (w : Nat) (i : Int) : Int := clampI (-(2 ^ (w - 1))) (2 ^ (w - 1) - 1) i

/-- Add the side entries of one round to the 64-bit column sums (R121, R122, R125). -/
def sideAdd (s : State) (d t : Nat) (x : Desc) (u : Int) : List (List Byte) → List Int → List Int
  | [], acc => acc
  | e :: es, acc =>
    let v := sgn 16 (leAt e 0 2)
    let sh : Int := (byteAt e 4 : Int) - 127 - (u - 16)
    let al (p : Int) : Int := clampBits 64 (if 0 ≤ sh then p * 2 ^ sh.toNat else p / 2 ^ (-sh).toNat)
    let w := weights s d t x (leAt e 2 2 % 512)
    sideAdd s d t x u es ((acc.zip w).map (fun (a, w) => clampBits 64 (a + al (w * v))))

/-- Round the side sums to units of 2^u and hold them to 32 bits (R123, R124). -/
def sideRound (acc : List Int) : List (Int × Bool) :=
  acc.map (fun a => let r := (a + 2 ^ 15) / 2 ^ 16; (clampBits 32 r, clampBits 32 r != r))

/-- SIDE_STALL_ROUND (R117, R120 to R126, R1090): one round of up to 16 entries; a list without entries takes no
round. The vector's sums are rounded after its last round. -/
def execSideStallRound (d : Die) (t : Tile) (s : State) : Host.Outcome State Fault Refusal :=
  match fwdOp s d t, (s.tile d t).fwd with
  | some o, some f =>
    let x := o.desc
    let v := f.sideVec
    if !s.tileClk d t || !nbit (x.b 34) 3 || decide (x.le 24 2 ≤ v) || decide (f.oldest + 3 < v) then .next s else
    let (f1, s1) := s.getVec d t o f v
    match f1.vecs.find? (fun y => y.v == v) with
    | none => .next s1
    | some y =>
      let (l, s2) := s1.readSpan (.tileUnit d t) (x.le 26 6 + 576 * v) 576
      match whole l with
      | none => .next (s2.setFwd d t (some { (f1.upd v (fun y => { y with sideBad := true, sideDone := true })) with
          sideVec := v + 1, sideRound := 0 }))
      | some bs =>
        let n := byteAt bs 0
        let es := chunks 64 8 (slice bs 64 (8 * n))
        if 64 < n ∨ es.any (fun e => byteAt e 4 == 0xFF) then
          let s3 := s2.raise ⟨0x01, 0, 2⟩ (.tile d t) { issue := o.issue, mark := x.mark }
          .next (s3.setFwd d t (some { (f1.upd v (fun y => { y with sideBad := true, sideDone := true })) with
            sideVec := v + 1, sideRound := 0 }))
        else
          let acc0 := if y.side = [] then List.replicate (fwdCols x) 0 else y.side
          let acc := sideAdd s2 d t x y.bottom (slice es (16 * f1.sideRound) 16) acc0
          let s3 := if n = 0 then s2 else s2.cnt d t 6 1
          if n ≤ 16 * (f1.sideRound + 1) then
            let out := sideRound acc
            let s4 := s3.brk d t 6 ((out.filter (·.2)).length)
            .next (s4.setFwd d t (some { (f1.upd v (fun y => { y with side := out.map (·.1), sideDone := true })) with
              sideVec := v + 1, sideRound := 0 }))
          else .next (s3.setFwd d t (some { (f1.upd v (fun y => { y with side := acc })) with
              sideRound := f1.sideRound + 1 }))
  | _, _ => .next s

/-! ## Combine, deliver, complete -/

/-- FWD_COMBINE (R96 to R98, R107, R116, R126, R127): the oldest vector, once its eight lanes and the side stall have
taken it. -/
def execFwdCombine (d : Die) (t : Tile) (s : State) : Host.Outcome State Fault Refusal :=
  match fwdOp s d t, (s.tile d t).fwd with
  | some o, some f =>
    let x := o.desc
    match f.vecs.find? (fun y => y.v == f.oldest) with
    | none => .next s
    | some y =>
      if !s.tileClk d t || decide (y.lanes.length < 8) || !y.sideDone || decide (2 ≤ f.out.length) then .next s else
      let missing := !nbit (x.b 34) 3 && y.outl
      let s1 := if missing then s.raise ⟨0x01, 0, 3⟩ (.tile d t) { issue := o.issue, mark := x.mark } else s
      let bad := y.bad || y.sideBad || missing
      let sums := columnSums s d t x y.xs
      let both := if y.side = [] ∨ y.sideBad then sums else (sums.zip y.side).map (fun (a, b) => a + b)
      let n := (both.filter (fun a => clampBits 32 a != a)).length
      let wexp := sgn 8 (x.b 38)
      let e := if !y.live then wexp else if f.mode = 3 then y.bottom + 8 + wexp else y.bottom + wexp
      let cs : ColSums := ⟨both.map (clampBits 32), e, if f.mode = 3 then nfld (x.b 39) 0 6 + 1 else 0, bad⟩
      let s2 := (s1.brk d t 4 n).cnt d t 1 1
      let a := Reg.fwdWindow d t
      let s3 := if y.live ∧ !bad then
          ((s2.p a Reg.fwdWindow_top (encS 16 y.top)).p a Reg.fwdWindow_bottom (encS 16 y.bottom)).p a
            Reg.fwdWindow_p_eff (y.top - y.bottom + 1).toNat
        else s2
      .next (s3.setFwd d t (some { f with vecs := f.vecs.filter (fun z => z.v != y.v), oldest := f.oldest + 1,
                                          out := f.out ++ [cs] }))
  | _, _ => .next s

/-- FWD_DELIVER (R109, R110, R190): the oldest combined vector enters the converter's queue of four; a full queue
holds it for a cycle, which is counted (DEDUCED, log entry 35). -/
def execFwdDeliver (d : Die) (t : Tile) (s : State) : Host.Outcome State Fault Refusal :=
  match (s.tile d t).fwd with
  | some f =>
    match f.out with
    | [] => .next s
    | c :: cs =>
      if !s.tileClk d t then .next s
      else if 4 ≤ (s.tile d t).cnvQ.length then .next (s.cnt d t 5 1)
      else
        let x := s.tile d t
        .next (s.setTile d t { x with cnvQ := x.cnvQ ++ [c],
                                      fwd := some { f with out := cs, delivered := f.delivered + 1 } })
  | none => .next s

/-- FWD_COMPLETE (R111): the converter has accepted the last vector. -/
def execFwdComplete (d : Die) (t : Tile) (s : State) : Host.Outcome State Fault Refusal :=
  match fwdOp s d t, (s.tile d t).fwd with
  | some o, some f =>
    if f.delivered = o.desc.le 24 2 then .next ((s.setFwd d t none).opDone d t o.issue) else .next s
  | _, _ => .next s

end Sys2Proof.Machine
end

