-- ==== Sys2Proof/Machine/Wgh.lean ====
section
/-! DEFINITION. The weighhouse: history entries, live slots, norm watch (R224 to R256). -/

namespace Sys2Proof.Machine

/-- The history entry a layer_id selects (R234). -/
def histIx (layer : Nat) : Nat := layer % 64

/-- An observation reaches an entry: one of another layer_id is cleared, re-tagged, counted and raised (R234). -/
def State.histTag (s : State) (d t layer : Nat) : State :=
  let a := Reg.wghHist1 d t (histIx layer)
  if s.g a Reg.wghHist1_tag = layer then s
  else ((((((s.p a Reg.wghHist1_q_valid 0).p a Reg.wghHist1_g_valid 0).p a Reg.wghHist1_dx_valid 0).p a
    Reg.wghHist1_n_valid 0).p a Reg.wghHist1_tag layer).brk d t 13 1).raise ⟨0x04, 0, 0⟩ (.tile d t) { layer := layer }

/-- A history field takes an observation whose lg is `lg` (R235, R236). -/
def State.histField (s : State) (d t layer : Nat) (f valid : RF) (beta : Nat) (lg : Int) : State :=
  let e := histIx layer
  let a := Reg.wghHist0 d t e
  if s.on (Reg.wghHist1 d t e) valid then
    let h := sgn 16 (s.g a f)
    s.p a f (encS 16 (h + (lg - h) / 2 ^ beta))
  else (s.p a f (encS 16 lg)).p (Reg.wghHist1 d t e) valid 1

/-- An observation of a value: 0 and NaN change no field; `after` follows every other one (R234 to R237). -/
def State.observe (s : State) (d t layer : Nat) (f valid : RF) (beta : Nat) (x : XV) (after : State → State) : State :=
  let s1 := s.histTag d t layer
  match x with
  | .nan => s1
  | .inf _ => after (s1.histField d t layer f valid beta 32767)
  | .fin _ n _ => if n = 0 then s1 else after (s1.histField d t layer f valid beta (lgOf x))

/-- The signed top byte of a Q8.8 field. -/
def orderOf (s : State) (d t layer : Nat) (f : RF) : Int := sgn 16 (s.g (Reg.wghHist0 d t (histIx layer)) f) / 256

/-- g_lg observes the largest reduced max-abs of a shard (R239, R240). -/
def State.observeG (s : State) (d t layer : Nat) (x : XV) : State :=
  s.observe d t layer Reg.wghHist0_g_lg Reg.wghHist1_g_valid (s.g (Reg.wghHistCfg d t) Reg.wghHistCfg_beta_g) x
    (fun s1 => s1.p (Reg.wghHist1 d t (histIx layer)) Reg.wghHist1_xchg_exp
      (encS 8 (clampI (-128) 127 (13 - s1.g (Reg.wghHistCfg d t) Reg.wghHistCfg_headroom
        - orderOf s1 d t layer Reg.wghHist0_g_lg))))

/-- The largest exponent of an output format in R242. -/
def emaxOf : Nat → Int
  | 7 => 8 | 8 | 10 => 15 | _ => 127

/-- dx_lg observes the largest output magnitude of a backward operation (R241, R242). -/
def State.observeDx (s : State) (d t layer outFmt : Nat) (x : XV) : State :=
  s.observe d t layer Reg.wghHist0_dx_lg Reg.wghHist1_dx_valid (s.g (Reg.wghHistCfg d t) Reg.wghHistCfg_beta_dx) x
    (fun s1 => s1.p (Reg.wghHist1 d t (histIx layer)) Reg.wghHist1_dx_exp
      (encS 8 (clampI (-128) 127 (emaxOf outFmt - s1.g (Reg.wghHistCfg d t) Reg.wghHistCfg_headroom - 1
        - orderOf s1 d t layer Reg.wghHist0_dx_lg))))

/-- q_lg observes the mean of the quire max-abs values of a convert operation (R238). -/
def State.observeQ (s : State) (d t layer : Nat) (x : XV) : State :=
  s.observe d t layer Reg.wghHist0_q_lg Reg.wghHist1_q_valid (s.g (Reg.wghHistCfg d t) Reg.wghHistCfg_beta_q) x id

/-! ## Norm watch -/

/-- cur_norm of an entry takes a delivered block's quotient (R244). -/
def State.normBlock (s : State) (d t layer : Nat) (maxAbs : XV) (count : Nat) : State :=
  if count = 0 then s
  else
    let a := Reg.wghHist2 d t (histIx layer)
    let q := XV.div maxAbs (XV.ofInt count)
    let new := r32 q
    let old := s.g a Reg.wghHist2_cur_norm
    if (f32.dec old).isNan then s
    else if q.isNan ∨ XV.lt (f32.dec old) (f32.dec new) then s.p a Reg.wghHist2_cur_norm new else s

/-- Write the verdict of an entry. -/
def State.setVerdict (s : State) (d t layer v : Nat) : State :=
  s.p (Reg.wghHist1 d t (histIx layer)) Reg.wghHist1_verdict v

/-- The shard delivery ends: cur_norm is judged, the verdict written, and cur_norm returns to 0 (R245 to R249). -/
def State.normJudge (s : State) (d t layer : Nat) : State :=
  let e := histIx layer
  let a := Reg.wghHist2 d t e
  let n := f32.dec (s.g a Reg.wghHist2_cur_norm)
  let i : Info := { layer := layer }
  let armed := !startupOn s d t && s.on (Reg.wghHist1 d t e) Reg.wghHist1_n_valid
  let limit := sgn 16 (s.g (Reg.wghHist0 d t e) Reg.wghHist0_n_lg) +
    (s.g (Reg.wghNormCfg d t) Reg.wghNormCfg_jump_lg : Int)
  let jumped := armed && decide (limit < lgOf n)
  let s1 :=
    if !n.isFinite then ((s.setVerdict d t layer 2).brk d t 15 1).raise ⟨0x04, 0, 3⟩ (.tile d t) i
    else if jumped then
      let s2 := (s.brk d t 14 1).raise ⟨0x04, 0, 1⟩ (.tile d t) i
      match s.g (Reg.wghNormCfg d t) Reg.wghNormCfg_policy with
      | 0 => s2.setVerdict d t layer 0
      | 1 => (s2.setVerdict d t layer 1).p a Reg.wghHist2_clip_factor (r32 (XV.div (pow2q limit) n))
      | 2 => s2.setVerdict d t layer 2
      | _ => ((s2.setVerdict d t layer 2).p (Reg.wghStatus d t) Reg.wghStatus_stop 1).raise ⟨0x04, 0, 2⟩ (.tile d t) i
    else (s.setVerdict d t layer 0).observe d t layer Reg.wghHist0_n_lg Reg.wghHist1_n_valid
      (s.g (Reg.wghNormCfg d t) Reg.wghNormCfg_beta_n) n id
  s1.p a Reg.wghHist2_cur_norm 0

/-! ## Live slots -/

/-- The larger of two F32 encodings as numbers; a NaN gives the canonical NaN (R226). -/
def slotMax (a b : Nat) : Nat :=
  if (f32.dec a).isNan || (f32.dec b).isNan then f32.nan else if XV.lt (f32.dec a) (f32.dec b) then b else a

/-- A push reaches slot `k` of a tile: value (F32), tag, and whether it is an empty push (R226 to R228). -/
def State.slotPush (s : State) (d t k tag value : Nat) (empty : Bool) : State :=
  let a := Reg.wghSlot d t k
  if empty then
    (((s.p a Reg.wghSlot_tag tag).p a Reg.wghSlot_value 0).p a Reg.wghSlot_pushes 0).p a Reg.wghSlot_valid 0
  else if s.g a Reg.wghSlot_tag = tag ∧ s.on a Reg.wghSlot_valid then
    (s.p a Reg.wghSlot_value (slotMax (s.g a Reg.wghSlot_value) value)).p a Reg.wghSlot_pushes
      (min 255 (s.g a Reg.wghSlot_pushes + 1))
  else
    (((s.p a Reg.wghSlot_value value).p a Reg.wghSlot_tag tag).p a Reg.wghSlot_valid 1).p a Reg.wghSlot_pushes 1

/-- A push of a requester to a slot: that of a tile whose domain is off refuses it (R434, R640, R1091). -/
def State.pushTo (s : State) (r : Requester) (d t k tag value : Nat) (empty : Bool) : Option AccErr × State :=
  if s.tileOn d t then (none, s.slotPush d t k tag value empty)
  else (some .unreachable, s.refuse r (Reg.wghSlot d t k) true .unreachable)

/-- Clear the four valid bits of history entries `0` to `n - 1`. -/
def State.histClear (s : State) (d t : Nat) : Nat → State
  | 0 => s
  | n + 1 =>
    let a := Reg.wghHist1 d t n
    ((((s.p a Reg.wghHist1_q_valid 0).p a Reg.wghHist1_g_valid 0).p a Reg.wghHist1_dx_valid 0).p a
      Reg.wghHist1_n_valid 0).histClear d t n

/-- HIST_INVALIDATE (R251): the write of WGH_CTL.hist_invalidate. -/
def execHistInvalidate (r : Requester) (d : Die) (t : Tile) (s : State) : Host.Outcome State Fault Refusal :=
  .next (s.regWr r (Reg.wghCtl d t) (fun s1 => s1.histClear d t 64))

/-- Set every channel maximum of a tile to 0 (R233). -/
def State.chanClear (s : State) (d t : Nat) : State :=
  s.dropRegs (fun a => decide (Reg.wghChan d t 0 ≤ a ∧ a < Reg.wghChan d t 128))

/-- CHAN_CLEAR (R233): the write of WGH_CTL.chan_clear. -/
def execChanClear (r : Requester) (d : Die) (t : Tile) (s : State) : Host.Outcome State Fault Refusal :=
  .next (s.regWr r (Reg.wghCtl d t) (fun s1 => s1.chanClear d t))

end Sys2Proof.Machine
end

