-- ==== Sys2Proof/Machine/Bwd.lean ====
section
/-! DEFINITION. The backward array, the couch and the drain (R134 to R184). -/

namespace Sys2Proof.Machine

/-- The in-flight backward operations of a tile, oldest first. -/
def bwdOps (s : State) (d t : Nat) : List OpRec := (s.tile d t).ops.filter (fun o => o.opcode == 2)

/-- The record of an in-flight operation. -/
def opRec (s : State) (d t issue : Nat) : Option OpRec := (s.tile d t).ops.find? (fun o => o.issue == issue)

/-- Replace the backward state of a tile. -/
def State.setBwd (s : State) (d t : Nat) (b : BwdS) : State := s.setTile d t { s.tile d t with bwd := b }

/-- Columns and rows of blocks (R185). -/
def bwdM (x : Desc) : Nat := nfld (x.b 49) 0 4 + 1
def bwdN (x : Desc) : Nat := nfld (x.b 49) 4 4 + 1
def bwdDest (x : Desc) : Bool := nbit (x.b 48) 4
def bwdFlush (x : Desc) : Bool := nbit (x.b 50) 6
/-- Operand cycles per block (R137). -/
def bwdCycles (x : Desc) : Nat := (x.le 44 2 + 3) / 4

/-- A set at the start of a block (R136). -/
def BwdSet.fresh (issue block : Nat) : BwdSet := ⟨issue, block, 0, List.replicate 4096 0, List.replicate 64 false⟩

/-- BWD_FIRST_OPERAND (R182): the oldest operation that has not begun takes the array, once no block computes and an
accumulator set is free. -/
def execBwdFirstOperand (d : Die) (t : Tile) (s : State) : Host.Outcome State Fault Refusal :=
  let b := (s.tile d t).bwd
  match (bwdOps s d t).find? (fun o => !(b.ops.any (fun p => p.issue == o.issue))) with
  | none => .next s
  | some o =>
    if !s.tileClk d t || b.cur.isSome || decide (2 ≤ b.full.length) then .next s
    else .next (s.setBwd d t { b with
      ops := b.ops ++ [⟨o.issue, 0, false, false, false, 0, [], []⟩], cur := some (BwdSet.fresh o.issue 0) })

/-! ## The couch -/

/-- An operand element as the couch widens it: its F32 encoding, whether it was flushed, whether it was clipped
(R52, R53, R57, R141, R142). -/
structure Widened where
  bits : Nat
  flushed : Bool
  clipped : Bool
  deriving DecidableEq, Repr

/-- Widen a quire element of integer reading `v` and exponent `k`. -/
def widenQuire (fmt : Nat) (flush : Bool) (v k : Int) : Widened :=
  let m := v.natAbs
  let l := Nat.log2 m
  let v' : Int := if fmt = 5 ∧ 11 ≤ l then
      (let u := 2 ^ (l - 10)
       let r : Int := (roundNat 0 0 m u * u : Nat)
       if v < 0 then -r else r)
    else v
  let r := f32.round 0 0 false flush ((XV.ofInt v').scale k)
  ⟨r.bits, r.flushed, r.sat⟩

/-- Widen a plain element. -/
def widenPlain (fmt : Nat) (flush : Bool) (b : Nat) : Widened :=
  let (x, fl) := (ffmt fmt).input flush b
  ⟨r32 x, fl, false⟩

/-- An operand as its descriptor gives it: format, signed bit, layout, address, stride (R185). -/
structure Operand where
  fmt : Nat
  signed : Bool
  layout1 : Bool
  addr : Nat
  stride : Nat
  deriving DecidableEq, Repr

def operandA (x : Desc) : Operand := ⟨nfld (x.b 46) 0 4, nbit (x.b 46) 4, nbit (x.b 46) 5, x.le 16 6, x.le 38 2⟩
def operandB (x : Desc) : Operand := ⟨nfld (x.b 47) 0 4, nbit (x.b 47) 4, nbit (x.b 47) 5, x.le 22 6, x.le 40 2⟩

/-- Whether a format is carried in quires. -/
def isQuire (f : Nat) : Bool := f ≤ 6

/-- The quire that holds element `e` of vector `v` of a quire operand: ream address and quire in it (R130). -/
def quireAt (o : Operand) (v e : Nat) : Nat × Nat :=
  if o.fmt = 3 then (o.addr + v / 2 * o.stride * 64, 4 * (v % 2) + e / 128)
  else if o.fmt = 4 then (o.addr + v * o.stride * 64, e / 64)
  else (o.addr + v * o.stride * 64 + 576 * (e / 256), e % 256 / 32)

/-- A run of `n` elements of vector `v` from element `e` of a quire operand, with the validity of each; `fuel` bounds
the quires. -/
def State.quireRun (s : State) (r : Requester) (o : Operand) (flush : Bool) (v e n : Nat) (ev : Ev) (d t : Nat)
    (i : Info) : Nat → List (Widened × Bool) × State
  | 0 => ([], s)
  | fuel + 1 =>
    if n = 0 then ([], s) else
    let (a, q) := quireAt o v e
    let (qs, s1) := s.readReam r o.fmt o.signed a [q]
    let s2 := s1.quireEvents ev d t i qs
    let per := qVals o.fmt
    let m := min n (per - e % per)
    let mine : List (Widened × Bool) := match qs with
      | y :: _ => (slice (y.vals.zip y.ks) (e % per) m).map (fun (v, k) =>
          (widenQuire o.fmt flush v k, y.status != .ok))
      | [] => []
    let (rest, s3) := s2.quireRun r o flush v (e + m) (n - m) ev d t i fuel
    (mine ++ rest, s3)

/-- A run of `n` contiguous elements of a plain operand from address `a`; a failed element is a NaN (R1090). -/
def State.plainRun (s : State) (r : Requester) (o : Operand) (flush : Bool) (a n : Nat) :
    List (Widened × Bool) × State :=
  let z := fmtSize o.fmt
  let (bs, s1) := s.readSpan r a (n * z)
  ((List.range n).map (fun i => match whole (slice bs (i * z) z) with
    | some b => (widenPlain o.fmt flush (leNat b), false)
    | none => (⟨f32.nan, false, false⟩, false)), s1)

/-- One run of a couch window: in layout 0 row `x` from position `k`, in layout 1 position `k` from row `x` (R146,
R148). -/
def State.couchRun (s : State) (r : Requester) (o : Operand) (flush : Bool) (x k n : Nat) (ev : Ev) (d t : Nat)
    (i : Info) : List (Widened × Bool) × State :=
  let z := fmtSize o.fmt
  if isQuire o.fmt then
    if o.layout1 then s.quireRun r o flush k x n ev d t i 64 else s.quireRun r o flush x k n ev d t i 64
  else if o.layout1 then s.plainRun r o flush (o.addr + k * o.stride * 64 + x * z) n
  else s.plainRun r o flush (o.addr + x * o.stride * 64 + k * z) n

/-- Several runs. -/
def State.couchRuns (s : State) (r : Requester) (o : Operand) (flush : Bool) (n : Nat) (ev : Ev) (d t : Nat)
    (i : Info) : List (Nat × Nat) → List (List (Widened × Bool)) × State
  | [] => ([], s)
  | (x, k) :: ps =>
    let (w, s1) := s.couchRun r o flush x k n ev d t i
    let (ws, s2) := s1.couchRuns r o flush n ev d t i ps
    (w :: ws, s2)

/-- A zero element. -/
def Widened.zero : Widened := ⟨0, false, false⟩

/-- One couch window of an operand: 64 rows from `x0`, positions `k0` to `k0 + 63` below K, in row order; positions at
or beyond K are zeros (R138). -/
def State.couchWindow (s : State) (d : Die) (t : Tile) (x : Desc) (o : Operand) (x0 k0 : Nat) (i : Info) :
    List (Widened × Bool) × State :=
  let n := min 64 (x.le 44 2 - k0)
  let r := Requester.tileUnit d t
  let ev : Ev := ⟨0x02, 0, 0⟩
  if o.layout1 then
    let (rows, s1) := s.couchRuns r o (bwdFlush x) 64 ev d t i ((List.range n).map (fun k => (x0, k0 + k)))
    ((List.range 64).flatMap (fun row => padTo (Widened.zero, false) 64
      (rows.map (fun w => w.getD row (Widened.zero, false)))), s1)
  else
    let (rows, s1) := s.couchRuns r o (bwdFlush x) n ev d t i ((List.range 64).map (fun row => (x0 + row, k0)))
    (rows.flatMap (padTo (Widened.zero, false) 64), s1)

/-! ## Operand cycles -/

/-- One accumulator after an operand cycle: four products and the previous value, one rounding (R143 to R145):
encoding, whether the sum was invalid, whether it was flushed. -/
def cellSum (flush : Bool) (acc : Nat) (ab : List (Nat × Nat)) : Nat × Bool × Bool :=
  let y := XV.sum (f32.dec acc :: ab.map (fun (a, b) => XV.mul (f32.dec a) (f32.dec b)))
  let r := f32.round 0 0 true flush y
  (r.bits, y.isNan, r.flushed)

/-- OPERAND_CYCLE (R135 to R145, R149, R150, R155): four reduction positions of the block computing; a finished block
frees the cells for the next one when a set is free, and a cycle held for a set is counted. -/
def execOperandCycle (d : Die) (t : Tile) (s : State) : Host.Outcome State Fault Refusal :=
  let b := (s.tile d t).bwd
  match b.cur with
  | none => .next s
  | some c =>
    match opRec s d t c.issue with
    | none => .next s
    | some o =>
      let x := o.desc
      if !s.tileClk d t then .next s
      else if 2 ≤ b.full.length then .next (s.cnt d t 11 1)
      else
        let k := 4 * c.cycles
        let i : Info := { issue := o.issue, mark := x.mark, layer := x.le 52 2, mb := x.le 54 2 }
        let (wa, wb, c1, s1) : List (Nat × Bool) × List (Nat × Bool) × BwdSet × State :=
          if k % 64 = 0 then
            let (a, s1) := s.couchWindow d t x (operandA x) (c.block / bwdN x * 64) k i
            let (bb, s2) := s1.couchWindow d t x (operandB x) (c.block % bwdN x * 64) k i
            let all := a.any (·.2)
            let flags := (List.range 64).map (fun j => c.flags.getD j false || all ||
              (slice bb (64 * j) 64).any (·.2))
            let n := ((a ++ bb).filter (fun p => p.1.clipped)).length
            (a.map (fun p => (p.1.bits, p.1.flushed)), bb.map (fun p => (p.1.bits, p.1.flushed)),
              { c with flags := flags }, s2.brk d t 1 n)
          else (b.winA, b.winB, c, s)
        let elem (w : List (Nat × Bool)) (row j : Nat) : Nat × Bool := w.getD (64 * row + k % 64 + j) (0, false)
        let outs := (List.range 4096).map (fun e =>
          cellSum (bwdFlush x) (c1.acc.getD e 0)
            ((List.range 4).map (fun j => ((elem wa (e / 64) j).1, (elem wb (e % 64) j).1))))
        let bad (col : Nat) : Bool := (List.range 64).any (fun row => (outs.getD (64 * row + col) (0, false, false)).2.1)
        let fl := outs.any (fun y => y.2.2) ||
          (List.range 64).any (fun row => (List.range 4).any (fun j => (elem wa row j).2 || (elem wb row j).2))
        let c2 : BwdSet := { c1 with cycles := c1.cycles + 1, acc := outs.map (·.1),
                                     flags := (List.range 64).map (fun j => c1.flags.getD j false || bad j) }
        let s2 := (s1.cnt d t 8 1).brk d t 2 fl.toNat
        let s3 := if fl then s2.p (Reg.bwdStatus d t) Reg.bwdStatus_flush_sticky 1 else s2
        let b1 := (s3.tile d t).bwd
        if c2.cycles < bwdCycles x then .next (s3.setBwd d t { b1 with cur := some c2, winA := wa, winB := wb })
        else
          let next := if c2.block + 1 < bwdM x * bwdN x then some (BwdSet.fresh o.issue (c2.block + 1)) else none
          .next (s3.setBwd d t { b1 with cur := next, full := b1.full ++ [c2], winA := [], winB := [] })

/-! ## The drain -/

/-- A bad block (chapter 04, "Invalid operations"). -/
def blockBad (c : BwdSet) : Bool := c.flags.any id || c.acc.any (fun a => match f32.dec a with | .inf _ => true | _ => false)

/-- The slot a block of an accumulating operation goes to. -/
def blockSlot (x : Desc) (block : Nat) : Nat := accSlot x (block / bwdN x) (block % bwdN x)

/-- Address of the directory entry of a slot (R166). -/
def dirAddr (s : State) (d t slot : Nat) : Nat :=
  slotBase d t + s.g (Reg.bwdCtl d t) Reg.bwdCtl_acc_dir_line * 64 + slot * 8

/-- A directory entry (R166). -/
def dirEntry (count dropped layer : Nat) (written bad sat : Bool) : Nat :=
  count % 2 ^ 16 + 2 ^ 16 * (dropped % 2 ^ 16) + 2 ^ 32 * (layer % 2 ^ 16) + 2 ^ 48 * written.toNat + 2 ^ 49 * bad.toNat +
    2 ^ 50 * sat.toNat

/-- The exception word of a bad block, in the layout of BWD_FIRST_BAD (R180). -/
def badWord (x : Desc) (block : Nat) : Nat :=
  x.le 52 2 + 2 ^ 16 * x.le 54 2 + 2 ^ 32 * block + 2 ^ 40 * (if bwdDest x then blockSlot x block else 0) +
    2 ^ 46 * (bwdDest x).toNat + 2 ^ 47

/-- Count a bad block, log the operation's first, and keep it in BWD_FIRST_BAD (R179 to R181). -/
def State.bwdBad (s : State) (d t : Nat) (o : OpRec) (block : Nat) (first : Bool) : State :=
  let x := o.desc
  let w := BitVec.ofNat 64 (badWord x block)
  let pass := s.g (Reg.seqPass d t) Reg.seqPass_pass
  let s1 := s.brk d t 10 1
  let s2 := if first then
      s1.raise ⟨0x02, 0, 1⟩ (.tile d t)
        { issue := o.issue, mark := x.mark, layer := x.le 52 2, mb := x.le 54 2, exc := true, detail := [w] }
    else s1
  if s2.on (Reg.bwdFirstBad d t) Reg.bwdFirstBad_valid then s2
  else (s2.wr (Reg.bwdFirstBad d t) w).p (Reg.bwdFirstBadPass d t) Reg.bwdFirstBadPass_pass pass

/-- What a drained block does: whether it counts as bad, whether it is refused for its tag, whether its count
saturates, whether rows are written, the slot's values, the directory entry. -/
structure Verdict where
  bad : Bool
  tag : Bool
  sat : Bool
  writes : Bool
  vals : List Nat
  entry : Option Nat
  deriving DecidableEq, Repr

/-- The judgement of an accumulating block against its slot and entry (R163 to R177). -/
def judgeAcc (x : Desc) (c : BwdSet) (old : List Nat) (e : Nat) : Verdict :=
  let bad := blockBad c
  let inc := x.b 37
  let layer := x.le 52 2
  let trans := nbit (x.b 48) 6
  let at' (i : Nat) : Nat := if trans then c.acc.getD (64 * (i % 64) + i / 64) 0 else c.acc.getD i 0
  let mine := (List.range 4096).map at'
  let count := nfld e 0 16
  let dropped := min 65535 (nfld e 16 16 + inc)
  if nbit (x.b 48) 5 then
    if bad then ⟨true, false, false, true, List.replicate 4096 0, some (dirEntry 0 inc layer true true false)⟩
    else ⟨false, false, false, true, mine, some (dirEntry inc 0 layer true false false)⟩
  else if !nbit e 48 || nfld e 32 16 != layer then ⟨bad, true, false, false, [], none⟩
  else
    let sums := (mine.zip old).map (fun (a, b) => r32 (XV.add (f32.dec a) (f32.dec b)))
    let refused : Verdict :=
      ⟨true, false, false, false, [], some (dirEntry count dropped layer true true (nbit e 50))⟩
    if bad || sums.any (fun b => !(f32.dec b).isFinite) then refused
    else
      let sat := decide (65535 < count + inc)
      ⟨false, false, sat, true, sums, some (dirEntry (min 65535 (count + inc)) (nfld e 16 16) layer true (nbit e 49)
        (nbit e 50 || sat))⟩

/-- The bytes of a read, zeros where a line was refused. -/
def orZero (l : List (Option Byte)) : List Byte := l.map (fun b => b.getD 0)

/-- Replace a begun operation's progress. -/
def BwdS.setOp (b : BwdS) (p : BwdOp) : BwdS := { b with ops := b.ops.map (fun q => if q.issue = p.issue then p else q) }

/-- DRAIN_BEGIN (R152, R162 to R181): the oldest finished block is judged. -/
def execDrainBegin (d : Die) (t : Tile) (s : State) : Host.Outcome State Fault Refusal :=
  let b := (s.tile d t).bwd
  match b.drain, b.full with
  | none, c :: _ =>
    match opRec s d t c.issue, b.ops.find? (fun p => p.issue == c.issue) with
    | some o, some p =>
      if !s.tileClk d t then .next s else
      let x := o.desc
      let r := Requester.tileUnit d t
      let slot := blockSlot x c.block
      let (v, s1) : Verdict × State :=
        if bwdDest x then
          let (e, s1) := s.readSpan r (dirAddr s d t slot) 8
          let (old, s2) := if nbit (x.b 48) 5 then ([], s1)
            else s1.readSpan r (slotBase d t + 0x300000 + 0x4000 * slot) 16384
          (judgeAcc x c ((chunks 4096 4 (orZero old)).map leNat) (leNat (orZero e)), s2)
        else (⟨blockBad c, false, false, true, c.acc, none⟩, s)
      let i : Info := { issue := o.issue, mark := x.mark, layer := x.le 52 2, mb := x.le 54 2 }
      let s2 := if v.tag then s1.brk d t 11 1 else s1
      let s3 := if v.tag && !p.tag then s2.raise ⟨0x02, 0, 2⟩ (.tile d t) i else s2
      let s4 := if v.sat then s3.brk d t 12 1 else s3
      let s5 := if v.sat && !p.sat then s4.raise ⟨0x02, 0, 3⟩ (.tile d t) i else s4
      let s6 := if v.bad then s5.bwdBad d t o c.block (!p.bad) else s5
      let b1 := (s6.tile d t).bwd
      .next (s6.setBwd d t { b1.setOp { p with bad := p.bad || v.bad, tag := p.tag || v.tag, sat := p.sat || v.sat } with
        drain := some ⟨c, 0, v.bad, v.writes, v.vals, v.entry⟩ })
    | _, _ => .next s
  | _, _ => .next s

/-- Entry `e` of derivative table `k` (R158). -/
def derivEntry (s : State) (d t k e : Nat) : Nat :=
  fld (s.rd (Reg.bwdDeriv d t k (e / 2))) (32 * (e % 2)) 32

/-- The D4 codes of 64 columns of vector ρ from column γ0, none where the quire reads invalid (R159, R160). -/
def State.derivCodes (s : State) (d : Die) (t : Tile) (x : Desc) (rho col : Nat) (i : Info) :
    Option (List Nat) × State :=
  let a := slotBase d t + x.le 34 2 * 64 + 576 * (rho / 2)
  let (qs, s1) := s.readReam (.tileUnit d t) 6 false a [4 * (rho % 2) + col / 128]
  let s2 := s1.quireEvents ⟨0x02, 0, 0⟩ d t i qs
  match qs with
  | q :: _ => (if q.status = .ok then some ((slice q.vals (col % 128) 64).map Int.toNat) else none, s2)
  | [] => (none, s2)

/-- One output element (R158, R160, R161): the F32 value before out_exp, and the rounding. -/
def drainElem (s : State) (d t : Nat) (x : Desc) (acc : Nat) (code : Option Nat) (deriv : Bool) (r : Nat) :
    Nat × Rounded :=
  let fmt := ffmt (nfld (x.b 48) 0 4)
  if deriv && code.isNone then (f32.nan, ⟨fmt.nan, false, false⟩)
  else
    let v := if deriv then r32 (XV.mul (f32.dec acc) (f32.dec (derivEntry s d t (nfld (x.b 51) 6 2) (code.getD 0))))
      else acc
    (v, fmt.round x.roundMode r (nbit (x.b 50) 7) (bwdFlush x) ((f32.dec v).scale (sgn 8 (x.b 36))))

/-- The outcome of a write of the drain: the completion add of the operation is withheld at a refused one (R1091). -/
def State.drainWrote (d t issue : Nat) (w : Option (AccErr × Nat) × State) : State :=
  match w.1 with
  | some (err, a) => w.2.withhold d t issue 0x02 a err.cause
  | none => w.2

/-- A row written to memory (R157 to R161): drain state, the row's elements rounded and written. -/
def State.drainMem (s : State) (d : Die) (t : Tile) (o : OpRec) (p : BwdOp) (dr : BwdDrain) : BwdOp × State :=
  let x := o.desc
  let rho := dr.set.block / bwdN x * 64 + dr.row
  let col := dr.set.block % bwdN x * 64
  let i : Info := { issue := o.issue, mark := x.mark, layer := x.le 52 2, mb := x.le 54 2 }
  let deriv := nbit (x.b 48) 7
  let (codes, s1) := if deriv then s.derivCodes d t x rho col i else (none, s)
  let g := x.shaker
  let (draws, left, s2) := if x.roundMode = 2
    then (s1.genDrawn d t g p.drew).draw16 (Reg.genStateLo d t g) (Reg.genStateHi d t g) p.left 64
    else (List.replicate 64 0, p.left, s1)
  let outs := (List.range 64).map (fun c =>
    drainElem s2 d t x (dr.set.acc.getD (64 * dr.row + c) 0) (codes.map (fun l => l.getD c 0)) deriv (draws.getD c 0))
  let z := fmtSize (nfld (x.b 48) 0 4)
  let fl := outs.any (fun y => y.2.flushed)
  let s3 := (s2.brk d t 1 ((outs.filter (fun y => y.2.sat)).length)).brk d t 2 fl.toNat
  let s4 := if fl then s3.p (Reg.bwdStatus d t) Reg.bwdStatus_flush_sticky 1 else s3
  let s5 := State.drainWrote d t o.issue (s4.writeSpan (.tileUnit d t) (x.le 28 6 + rho * x.le 42 2 * 64 + col * z)
    (outs.flatMap (fun y => leBytes z y.2.bits)))
  let m := outs.foldl (fun m y => max m (y.1 % 2 ^ 31)) p.maxOut
  ({ p with left := left, maxOut := m, drew := if x.roundMode = 2 then [g] else p.drew }, s5)

/-- Write separate 4-byte values down a column of a slot: the first refused write, as `writeSpan` gives it. -/
def State.writeCol (s : State) (r : Requester) (a : Nat) : List Nat → Option (AccErr × Nat) × State
  | [] => (none, s)
  | v :: vs =>
    let (e, s1) := s.writeSpan r a (leBytes 4 v)
    let (e', s2) := s1.writeCol r (a + 256) vs
    (e.or e', s2)

/-- Where an output row goes: the memory destination, or the block's slot, by rows or down a column (R157 to R165). -/
def State.drainOut (s : State) (d : Die) (t : Tile) (r : Requester) (o : OpRec) (p : BwdOp) (dr : BwdDrain) (slot : Nat) :
    BwdOp × State :=
  if !bwdDest o.desc then s.drainMem d t o p dr
  else if !dr.writes then (p, s)
  else if nbit (o.desc.b 48) 6 then
    (p, State.drainWrote d t o.issue (s.writeCol r (slot + dr.row * 4)
      ((List.range 64).map (fun i => dr.vals.getD (64 * i + dr.row) 0))))
  else (p, State.drainWrote d t o.issue (s.writeSpan r (slot + 256 * dr.row)
    ((slice dr.vals (64 * dr.row) 64).flatMap (leBytes 4))))

/-- DRAIN_ROW (R153, R154, R157 to R165, R175): one output row; after the last one the directory entry is written and
the set is free. -/
def execDrainRow (d : Die) (t : Tile) (s : State) : Host.Outcome State Fault Refusal :=
  let b := (s.tile d t).bwd
  match b.drain with
  | none => .next s
  | some dr =>
    match opRec s d t dr.set.issue, b.ops.find? (fun p => p.issue == dr.set.issue) with
    | some o, some p =>
      if !s.tileClk d t then .next s else
      let x := o.desc
      let r := Requester.tileUnit d t
      let slot := slotBase d t + 0x300000 + 0x4000 * blockSlot x dr.set.block
      let (p1, s1) := s.drainOut d t r o p dr slot
      let last := decide (63 ≤ dr.row)
      let s2 := match last, dr.dirEntry with
        | true, some e => State.drainWrote d t o.issue
            (s1.writeSpan r (dirAddr s1 d t (blockSlot x dr.set.block)) (leBytes 8 e))
        | _, _ => s1
      let s3 := if last then s2.cnt d t 9 1 else s2
      let b1 := (s3.tile d t).bwd
      .next (s3.setBwd d t (if last then
          { b1.setOp { p1 with drained := p1.drained + 1 } with drain := none, full := b1.full.tail }
        else { b1.setOp p1 with drain := some { dr with row := dr.row + 1 } }))
    | _, _ => .next s

/-- BWD_COMPLETE (R184, R241): every block of the oldest begun operation has been drained. -/
def execBwdComplete (d : Die) (t : Tile) (s : State) : Host.Outcome State Fault Refusal :=
  let b := (s.tile d t).bwd
  match b.ops with
  | [] => .next s
  | p :: ps =>
    match opRec s d t p.issue with
    | none => .next s
    | some o =>
      let x := o.desc
      if p.drained < bwdM x * bwdN x then .next s
      else
        let s1 := if bwdDest x then s else
          let (m, s') := s.largest p.maxOut
          s'.observeDx d t (x.le 52 2) (nfld (x.b 48) 0 4) m
        .next ((s1.setBwd d t { (s1.tile d t).bwd with ops := ps }).opDone d t o.issue)

end Sys2Proof.Machine
end

