-- ==== Sys2Proof/Machine/Crc.lean ====
section
/-! DEFINITION. Cyclic redundancy checks: CRC-32C of frames, CRC-32 of flash images and RoCEv2, CRC-8 of the console
(R612, R1018, R825, R1082). Initial value and final XOR of the 32-bit ones are those of the named standards (PRESUMED, log entry 17). -/

namespace Sys2Proof.Machine

/-- One bit step of a reflected CRC of polynomial `p`. -/
def crcBit (p c : Nat) : Nat := if c % 2 = 1 then c / 2 ^^^ p else c / 2

/-- Eight bit steps. -/
def crcByte (p c b : Nat) : Nat := (List.range 8).foldl (fun c _ => crcBit p c) (c ^^^ b)

/-- A reflected 32-bit CRC with initial value and final XOR of all ones. -/
def crc32With (p : Nat) (bs : List Byte) : Nat := (bs.foldl (fun c b => crcByte p c b.toNat) 0xFFFFFFFF) ^^^ 0xFFFFFFFF

/-- CRC-32C (Castagnoli). -/
def crc32c (bs : List Byte) : Nat := crc32With 0x82F63B78 bs

/-- CRC-32 (IEEE 802.3). -/
def crc32 (bs : List Byte) : Nat := crc32With 0xEDB88320 bs

/-- One bit step of the CRC-8 of polynomial x^8 + x^2 + x + 1, high bit first. -/
def crc8Bit (c : Nat) : Nat := if 128 ≤ c % 256 then (c * 2 % 256) ^^^ 7 else c * 2 % 256

/-- CRC-8 with initial value 0 (R1082). -/
def crc8 (bs : List Byte) : Nat :=
  bs.foldl (fun c b => (List.range 8).foldl (fun c _ => crc8Bit c) (c ^^^ b.toNat)) 0

end Sys2Proof.Machine
end

