-- ==== Sys2Proof/Machine/Cpy.lean ====
section
/-! DEFINITION. The copy channels of tiles and dies: beginning, bursts, pacing, request lines, retries, halt, resume,
abort, completion (R509 to R553, R1001, R1096). -/

namespace Sys2Proof.Machine

/-! ## Channels -/

namespace ChanId

def dn : ChanId → Nat
  | .tile d _ _ => d
  | .die d _ => d
def num : ChanId → Nat
  | .tile _ _ c => c
  | .die _ c => c
/-- The requester a channel is (R409). -/
def req : ChanId → Requester
  | .tile d t c => .tileChan d t c
  | .die d c => .dieChan d c
/-- Where a channel raises its events. -/
def at' : ChanId → EvAt
  | .tile d t _ => .tile d t
  | .die d _ => .die d
/-- The block id of a channel. -/
def blk : ChanId → Nat
  | .tile _ _ _ => 0x07
  | .die _ _ => 0x18
/-- The address of CH_CTL. -/
def ctl : ChanId → Nat
  | .tile d t c => Reg.cpyChCtl d t c
  | .die d c => Reg.dcpChCtl d c
/-- The address of CH_ERR. -/
def err : ChanId → Nat
  | .tile d t c => Reg.cpyChErr d t c
  | .die d c => Reg.dcpChErr d c
/-- The address of CH_CMP_FIRST. -/
def first : ChanId → Nat
  | .tile d t c => Reg.cpyChCmpFirst d t c
  | .die d c => Reg.dcpChCmpFirst d c
/-- The address of CH_CMP_COUNT. -/
def count : ChanId → Nat
  | .tile d t c => Reg.cpyChCmpCount d t c
  | .die d c => Reg.dcpChCmpCount d c
/-- A number for each channel of the module. -/
def key : ChanId → Nat
  | .tile d t c => 2 * tileKey d t + c
  | .die d c => 1000 + 16 * d + c

end ChanId

/-- The operation a channel holds. -/
def chan (s : State) : ChanId → Option ChS
  | .tile d t c => ((s.tile d t).cp.chs.getD c none)
  | .die d c => ((s.die d).cp.chs.getD c none)

/-- Replace the operation a channel holds. -/
def State.setChan (s : State) (k : ChanId) (x : Option ChS) : State :=
  match k with
  | .tile d t c => let y := s.tile d t; s.setTile d t { y with cp := { y.cp with chs := y.cp.chs.set c x } }
  | .die d c => let y := s.die d; s.setDie d { y with cp := { y.cp with chs := y.cp.chs.set c x } }

/-- Retries after the first attempt (R542). -/
def retryMax (s : State) : ChanId → Nat
  | .tile d t _ => s.g (Reg.cpyCfg d t) Reg.cpyCfg_retry_max
  | .die d _ => s.g (Reg.dcpCfg d) Reg.dcpCfg_retry_max

/-- The clock a channel runs on: the tile's array clock, or the fabric clock of the die. -/
def chanClk (s : State) : ChanId → Bool
  | .tile d t _ => s.tileClk d t
  | .die d _ => s.fabClk d

/-- Count on 64-bit counter `m` of a channel: 0 bytes, 1 busy, 2 pace wait. -/
def State.chCnt (s : State) (k : ChanId) (m n : Nat) : State :=
  match k with
  | .tile d t c => s.cnt d t (22 + 3 * c + m) n
  | .die d c => s.dcnt d (32 + 3 * c + m) n

/-- Count one repeated access (R542). -/
def State.chRetried (s : State) (k : ChanId) : State :=
  match k with
  | .tile d t c => s.brk d t (20 + c) 1
  | .die d c => s.dbrk d (40 + c) 1

/-! ## Descriptor fields (R511) -/

def cpKind (x : Desc) : Nat := nfld (x.b 42) 0 2
def cpPace (x : Desc) : Nat := nfld (x.b 42) 2 2
def cpRa (x : Desc) : Bool := nbit (x.b 42) 4
def cpStop (x : Desc) : Bool := nbit (x.b 42) 5
def cpLine (x : Desc) : Nat := nfld (x.b 43) 0 6
def cpRemote (x : Desc) : Bool := nbit (x.b 53) 5
def cpTally (x : Desc) : Nat := nfld (x.le 48 2) 0 14
def cpRows (x : Desc) : Nat := x.le 32 2
def cpRowBytes (x : Desc) : Nat := x.le 28 4
/-- Burst length in bytes. -/
def cpBurst (x : Desc) : Nat := (nfld (x.b 52) 0 6 + 1) * 64
/-- Bursts per row (R527). -/
def cpPer (x : Desc) : Nat := (cpRowBytes x + cpBurst x - 1) / cpBurst x
/-- Bursts of the descriptor. -/
def cpTotal (x : Desc) : Nat := cpRows x * cpPer x
/-- The row and the offset in it of burst `k`. -/
def cpAt (x : Desc) (k : Nat) : Nat × Nat := (k / cpPer x, k % cpPer x * cpBurst x)
/-- The length of burst `k`. -/
def cpLen (x : Desc) (k : Nat) : Nat := min (cpBurst x) (cpRowBytes x - (cpAt x k).2)
/-- The source address of byte `i` of burst `k` (R517). -/
def cpSrc (x : Desc) (k i : Nat) : Nat :=
  ((x.le 16 6 : Int) + (cpAt x k).1 * sgn 32 (x.le 34 4)).toNat + (cpAt x k).2 + i
/-- The destination address of byte `i` of burst `k` (R517). -/
def cpDst (x : Desc) (k i : Nat) : Nat :=
  ((x.le 22 6 : Int) + (cpAt x k).1 * sgn 32 (x.le 38 4)).toNat + (cpAt x k).2 + i

/-- Bursts not yet begun. -/
def ChS.rest (x : ChS) : Nat := cpTotal x.q.desc - x.begun
/-- Bytes left of the burst begun last. -/
def ChS.left (x : ChS) : Nat := if x.begun = 0 then 0 else cpLen x.q.desc (x.begun - 1) - x.pos

/-- What a log record of a channel says. -/
def chInfo (s : State) (k : ChanId) (x : ChS) : Info :=
  { source := k.num, issue := x.q.issue, mark := x.q.desc.mark,
    pass := match k with | .tile d t _ => s.g (Reg.seqPass d t) Reg.seqPass_pass | .die _ _ => 0 }

/-- Packets of a channel that no ACK has answered. -/
def chBusy (s : State) (k : ChanId) : Bool :=
  let p (o : Owner) : Bool := match o with | .chan c _ _ => c == k.num | _ => false
  match k with
  | .tile _ _ _ => false
  | .die d _ => (s.die d).track.any (fun x => p x.owner) || (s.die d).heldPkts.any (fun x => p x.1)

/-! ## Request lines (R529 to R534) -/

/-- Pending requests of a line of a channel's tile or die. -/
def linePending (s : State) (k : ChanId) (l : Nat) : Nat :=
  match k with
  | .tile d t _ => s.g (Reg.cpyReq d t (l / 8)) (Reg.cpyReq_pending (l % 8))
  | .die d _ => s.g (Reg.dcpReq d (l / 8)) (Reg.dcpReq_pending (l % 8))

/-- Subtract one from a line's counter, and note which channel it served (R531, R533). -/
def State.lineTake (s : State) (k : ChanId) (l : Nat) : State :=
  let n := linePending s k l - 1
  let note (c : CpyS) : CpyS := { c with served := SMap.set (fun _ => 0) c.served l (k.num + 1) }
  match k with
  | .tile d t _ =>
    let s1 := s.p (Reg.cpyReq d t (l / 8)) (Reg.cpyReq_pending (l % 8)) n
    s1.setTile d t { s1.tile d t with cp := note (s1.tile d t).cp }
  | .die d _ =>
    let s1 := s.p (Reg.dcpReq d (l / 8)) (Reg.dcpReq_pending (l % 8)) n
    s1.setDie d { s1.die d with cp := note (s1.die d).cp }

/-- A channel ready to begin a burst: no burst in hand, nothing failing, bursts left. -/
def ChS.ready (x : ChS) : Bool :=
  x.left == 0 && x.fails == [] && !x.halted && !x.stop && !x.abort && decide (0 < x.rest)

/-- Whether line `l` serves channel `k` next, of the ready channels it paces: ascending numbers, starting after the
channel last served (R533). -/
def lineTurn (s : State) (k : ChanId) (l : Nat) : Bool :=
  let cp := match k with | .tile d t _ => (s.tile d t).cp | .die d _ => (s.die d).cp
  let n := cp.chs.length
  let start := SMap.get (fun _ => 0) cp.served l
  let want (c : Nat) : Bool := match cp.chs.getD c none with
    | some y => y.ready && cpPace y.q.desc == 1 && cpLine y.q.desc == l
    | none => false
  ((List.range n).map (fun i => (start + i) % n)).find? want == some k.num

/-- CPY_REQUEST (R529, R530): a request reaches a line. -/
def execCpyRequest (l : LineId) (s : State) : Host.Outcome State Fault Refusal :=
  match l with
  | .tile d t l => .next (s.request false d t l)
  | .die d l => .next (s.request true d 0 l)

/-- `n` requests on a line. -/
def State.requests (s : State) (die : Bool) (d t l : Nat) : Nat → State
  | 0 => s
  | n + 1 => (s.request die d t l).requests die d t l n

/-- SWREQ (R534): a write of CPY_SWREQ or DCP_SWREQ. -/
def execSwreq (r : Requester) (l : SwLine) (v : Word) (s : State) : Host.Outcome State Fault Refusal :=
  match l with
  | .tile d t => .next (s.regWr r (Reg.cpySwreq d t) (fun s => s.requests false d t 1 (fld v 0 8)))
  | .die d => .next (s.regWr r (Reg.dcpSwreq d) (fun s => s.requests true d 0 9 (fld v 0 8)))

/-! ## Failing accesses -/

/-- Halt a channel on a failing access (R543). -/
def State.chHalt (s : State) (k : ChanId) (x : ChS) (f : ChFail) : State :=
  let w := BitVec.ofNat 64 (f.addr % 2 ^ 48 + (if f.what = .write ∨ f.what = .packet then 2 ^ 48 else 0) +
    2 ^ 49 * (f.cause % 16))
  ((s.wr k.err w).setChan k (some { x with halted := true })).raise ⟨k.blk, 0, 0⟩ k.at'
    { chInfo s k x with exc := true, detail := [w] }

/-- An access has failed: it waits for its next attempt, or the channel halts (R542, R543). -/
def State.chFail (s : State) (k : ChanId) (x : ChS) (f : ChFail) : State :=
  if x.abort then s.setChan k (some x)
  else
    let y := { x with fails := x.fails ++ [f] }
    if retryMax s k < f.attempts && !x.halted then s.chHalt k { x with fails := f :: x.fails } f
    else s.setChan k (some y)

/-! ## Accesses -/

/-- Free a quarter of the trace buffer, or of the event log, whose last byte a channel paced on line 0 has read
(R1001, R1007). -/
def State.quarterFree (s : State) (k : ChanId) (x : Desc) (a m : Nat) : State :=
  if !(cpPace x = 1 ∧ cpLine x = 0) then s else
  match k with
  | .tile d t _ =>
    let o := a + m - (slotBase d t + 0x440000)
    if slotBase d t + 0x440000 ≤ a ∧ o % 0x1000 = 0 ∧ 1 ≤ o / 0x1000 ∧ o / 0x1000 ≤ 4
    then s.p (Reg.obsTraceStat d t) ⟨9 + (o / 0x1000 - 1), 1⟩ 0 else s
  | .die d _ =>
    let b := s.g (Reg.dobLogCtl d) Reg.dobLogCtl_base
    let o := a + m - b
    if b ≤ a ∧ o % 0x1000 = 0 ∧ 1 ≤ o / 0x1000 ∧ o / 0x1000 ≤ 4
    then s.p (Reg.dobLogStat d) ⟨8 + (o / 0x1000 - 1), 1⟩ 0 else s

/-- Read `m` bytes of one line for a channel: the bytes, or the cause of the refusal. -/
def State.chRead (s : State) (k : ChanId) (x : Desc) (a m : Nat) : Except Nat (List Byte) × State :=
  let l := a - a % 64
  match s.readLine k.req l with
  | (some bs, s1) => (.ok (slice bs (a % 64) m), s1.quarterFree k x a m)
  | (none, s1) => (.error (((fullCheck s k.req false l 64).map AccErr.cause).getD 2), s1)

/-- Compare two pieces (R522, R523, R525). -/
def State.chCompare (s : State) (k : ChanId) (x : ChS) (src got : List Byte) (dst : Nat) : ChS × State :=
  let diffs := ((List.range src.length).zip (src.zip got)).filterMap (fun (i, p) => if p.1 = p.2 then none else some i)
  let s1 := s.chCnt k 0 src.length
  match diffs with
  | [] => (x, s1)
  | i :: _ =>
    let s2 := if (s1.rd k.first).getLsbD 48 then s1
      else s1.wr k.first (BitVec.ofNat 64 ((dst + i) % 2 ^ 48 + 2 ^ 48))
    ({ x with diff := true, stop := x.stop || cpStop x.q.desc }, s2.inc32 k.count diffs.length)

/-- The bytes a fill writes at an address (R519). -/
def fillBytes (x : Desc) (a m : Nat) : List Byte := (List.range m).map (fun i => BitVec.ofNat 8 (x.b (44 + (a + i) % 4)))

/-- Send the bytes of a remote burst (R521). -/
def State.chSend (s : State) (k : ChanId) (x : Desc) (a : Nat) (bs : List Byte) : State :=
  s.sendPkt k.dn (.chan k.num a 1) (mkPkt s k.dn 1 (x.le 54 2) (68 + k.num) a 0 bs)

/-- Write one piece locally, or gather it for a remote burst and send the burst when it is whole. -/
def State.chPut (s : State) (k : ChanId) (x : ChS) (a : Nat) (bs : List Byte) : Except ChFail ChS × State :=
  if cpRemote x.q.desc then
    let buf := x.buf ++ bs
    if x.left ≤ bs.length then
      (.ok { x with pos := x.pos + bs.length, buf := [] },
       s.chSend k x.q.desc (cpDst x.q.desc (x.begun - 1) 0) buf)
    else (.ok { x with pos := x.pos + bs.length, buf := buf }, s)
  else match s.writeLine k.req (a - a % 64) (a % 64) bs with
    | (none, s1) => (.ok { x with pos := x.pos + bs.length }, s1.chCnt k 0 bs.length)
    | (some e, s1) => (.error ⟨.write, a, e.cause, bs, 1⟩, s1)

/-- The second read of a compare, then the comparison. -/
def State.chCmp (s : State) (k : ChanId) (x : ChS) (a : Nat) (bs : List Byte) : Except ChFail ChS × State :=
  match s.chRead k x.q.desc a bs.length with
  | (.error c, s1) => (.error ⟨.compare, a, c, bs, 1⟩, s1)
  | (.ok got, s1) =>
    let (y, s2) := s1.chCompare k x bs got a
    (.ok { y with pos := y.pos + bs.length }, s2)

/-- Everything after the source read of one piece. -/
def State.chAfter (s : State) (k : ChanId) (x : ChS) (bs : List Byte) : Except ChFail ChS × State :=
  let a := cpDst x.q.desc (x.begun - 1) x.pos
  if cpKind x.q.desc = 2 then s.chCmp k x a bs else s.chPut k x a bs

/-- The length of the next piece: it ends where a line of either side ends (DEDUCED, log entry 31). -/
def ChS.piece (x : ChS) : Nat :=
  let d := x.q.desc
  let m := if cpKind d = 1 then x.left else min x.left (64 - cpSrc d (x.begun - 1) x.pos % 64)
  if cpRemote d then m else min m (64 - cpDst d (x.begun - 1) x.pos % 64)

/-- One piece of the burst in hand. -/
def State.chPiece (s : State) (k : ChanId) (x : ChS) : Except ChFail ChS × State :=
  let d := x.q.desc
  let m := x.piece
  if cpKind d = 1 then s.chAfter k x (fillBytes d (cpDst d (x.begun - 1) x.pos) m)
  else
    let a := cpSrc d (x.begun - 1) x.pos
    match s.chRead k d a m with
    | (.error c, s1) => (.error ⟨.read, a, c, [], 1⟩, s1)
    | (.ok bs, s1) => s1.chAfter k x bs

/-- Run the burst in hand to its end, to a failing access, or to a mismatch that stops it. -/
def State.chRun (s : State) (k : ChanId) (x : ChS) : Nat → State
  | 0 => s.setChan k (some x)
  | n + 1 =>
    if x.left = 0 ∨ x.stop then s.setChan k (some x) else
    match s.chPiece k x with
    | (.ok y, s1) => s1.chRun k y n
    | (.error f, s1) => s1.chFail k x f

/-- Issue a failing access again, and go on after it. `n` is the number of this attempt. -/
def State.chRedo (s : State) (k : ChanId) (x : ChS) (f : ChFail) (n : Nat) : State :=
  let y := { x with fails := x.fails.tail, halted := false }
  let go (r : Except ChFail ChS × State) : State :=
    match r with
    | (.ok z, s1) => if z.fails = [] then s1.chRun k z 4096 else s1.setChan k (some z)
    | (.error g, s1) => s1.chFail k y { g with attempts := if g.what = f.what then n else 1 }
  match f.what with
  | .packet =>
    let s1 := s.sendPkt k.dn (.chan k.num f.addr n)
      (mkPkt s k.dn 1 (x.q.desc.le 54 2) (68 + k.num) f.addr 0 f.data)
    if y.fails = [] then s1.chRun k y 4096 else s1.setChan k (some y)
  | .write => go (s.chPut k y f.addr f.data)
  | .compare => go (s.chCmp k y f.addr f.data)
  | .read => go (s.chPiece k y)

/-! ## Beginning -/

/-- A channel takes an operation (R524, R535). -/
def State.chBegin (s : State) (k : ChanId) (q : QDesc) : State :=
  let x : ChS := { q := q, begun := 0, pos := 0, buf := [], paused := cpPace q.desc == 2, fails := [], halted := false,
                   stop := false, diff := false, abort := false }
  let s1 := s.setChan k (some x)
  if cpKind q.desc = 2 then (s1.wr k.first 0).wr k.count 0 else s1

/-- A channel begins the operation of kind `kind` that waits for it: the issued descriptor of a tile (R511), or the head
of a die channel's queue once its wait is met (R513, R516). -/
def State.chStart (s : State) (k : ChanId) (kind : Nat) : State :=
  if (chan s k).isSome || !chanClk s k then s else
  match k with
  | .tile d t c =>
    match (s.tile d t).ops.find? (fun o => o.opcode == 4 + c.val) with
    | some o => if cpKind o.desc = kind then s.chBegin k ⟨o.desc, o.issue, o.addr, t⟩ else s
    | none => s
  | .die d c =>
    let u := 67 + c.val
    match (s.die d).queue u with
    | [] => s
    | q :: _ =>
      if !engReady s d u q || !(cpKind q.desc = kind || cpKind q.desc = 3) then s
      else if anyBad (cpyChecks q.desc 7) then
        (s.raise ⟨0x18, 0, 5⟩ (.die d)
          { source := c, exc := true, issue := q.issue, mark := q.desc.mark, detail := [BitVec.ofNat 64 q.addr] }).engPop
          d u
      else (s.engPop d u).chBegin k q

/-- CPY_COPY (R517, R521). -/
def execCpyCopy (c : ChanId) (s : State) : Host.Outcome State Fault Refusal := .next (s.chStart c 0)
/-- CPY_FILL (R519). -/
def execCpyFill (c : ChanId) (s : State) : Host.Outcome State Fault Refusal := .next (s.chStart c 1)
/-- CPY_COMPARE (R520, R524). -/
def execCpyCompare (c : ChanId) (s : State) : Host.Outcome State Fault Refusal := .next (s.chStart c 2)

/-! ## Bursts -/

/-- The level a channel judges: the tally's value less its own adds that the bank has not performed (R1096). -/
def chLevel (s : State) (k : ChanId) (n : Nat) : Nat :=
  let own := (((s.die k.dn).banks.getD (n % 8) []).filter (fun o => o == .level n k.key)).length
  tVal s k.dn n - own

/-- Fetch the row-cache lines of a list of source bytes ahead (R539, R486 to R489). -/
def State.runAhead (s : State) (page : Nat) : List Nat → State
  | [] => s
  | a :: l =>
    (match rgnOf a with
      | .tr2 d off =>
        if !(pageAttr s d a).cache then s
        else if runAheadOk s a page then
          (if carveGib s d = 0 ∨ (s.rcHas d (rcLine off)).isSome then s else (s.rcFill d (rcLine off) 2).2)
        else s.dbrk d 15 1
      | _ => s).runAhead page l

/-- The first byte of every row-cache line that burst `j` reads. -/
def burstLines (x : Desc) (j : Nat) : List Nat :=
  let a := cpSrc x j 0
  let n := (a % 512 + cpLen x j + 511) / 512
  (List.range n).map (fun i => if i = 0 then a else 512 * (a / 512 + i))

/-- Begin the next burst: the read-ahead it sets going, then its accesses. -/
def State.chBurst (s : State) (k : ChanId) (x : ChS) : State :=
  let d := x.q.desc
  let y := { x with begun := x.begun + 1, pos := 0, buf := [] }
  let s1 := s.chRun k y (cpLen d x.begun + 1)
  if cpRa d && cpPace d != 0 && cpKind d != 1 then
    s1.runAhead (cpSrc d x.begun 0 / 0x200000) ((List.range (min 4 y.rest)).flatMap (fun i => burstLines d (y.begun + i)))
  else s1

/-- COPY_BURST (R527, R528, R531, R533, R537, R538): the next burst begins when its pacing allows. -/
def execCopyBurst (c : ChanId) (s : State) : Host.Outcome State Fault Refusal :=
  match chan s c with
  | none => .next s
  | some x =>
    let d := x.q.desc
    if !x.ready || !chanClk s c then .next s
    else match cpPace d with
      | 1 =>
        if linePending s c (cpLine d) = 0 ∨ !lineTurn s c (cpLine d) then .next (s.chCnt c 2 1)
        else .next ((s.lineTake c (cpLine d)).chBurst c x)
      | 2 =>
        let v := chLevel s c (cpTally d)
        if x.paused then .next (s.chCnt c 2 1)
        else if v ≤ d.b 51 ∧ v < x.rest then .next ((s.setChan c (some { x with paused := true })).chCnt c 2 1)
        else .next ((s.tallyQueue c.dn (cpTally d) (.level (cpTally d) c.key)).chBurst c x)
      | _ => .next (s.chBurst c x)

/-- PACE_RESUME (R536): a paused channel resumes. -/
def execPaceResume (c : ChanId) (s : State) : Host.Outcome State Fault Refusal :=
  match chan s c with
  | none => .next s
  | some x =>
    if x.paused ∧ min (x.q.desc.b 50) x.rest ≤ chLevel s c (cpTally x.q.desc) ∧ chanClk s c
    then .next (s.setChan c (some { x with paused := false })) else .next s

/-- COPY_RETRY (R542): the failing access is issued again. -/
def execCopyRetry (c : ChanId) (s : State) : Host.Outcome State Fault Refusal :=
  match chan s c with
  | none => .next s
  | some x =>
    match x.fails with
    | [] => .next s
    | f :: _ => if x.halted || x.abort || !chanClk s c then .next s
      else .next ((s.chRetried c).chRedo c x f (f.attempts + 1))

/-- A remote write of a die channel is answered: counted, or a failing access (R521, R542). `n` is its attempt. -/
def State.chAck (s : State) (k : ChanId) (a n : Nat) (data : List Byte) (status cause : Nat) : State :=
  if status = 0 then s.chCnt k 0 data.length
  else match chan s k with
    | some x => s.chFail k x ⟨.packet, a, cause, data, n⟩
    | none => s

/-! ## Completion, resume, abort -/

/-- Every access of an operation has returned, and none is left to make (R551). -/
def chDone (s : State) (k : ChanId) (x : ChS) : Bool :=
  (x.stop || (x.rest == 0 && x.left == 0)) && x.fails == [] && !x.halted && !chBusy s k

/-- An operation leaves its channel: a mismatch is recorded, and the completion add is made unless it was aborted
(R526, R547, R551). -/
def State.chFinish (s : State) (k : ChanId) (x : ChS) : State :=
  let s1 := s.setChan k none
  let s2 := if x.diff then s1.raise ⟨k.blk, 0, 2⟩ k.at'
      { chInfo s k x with exc := true, detail := [s.rd k.first, s.rd k.count] } else s1
  let s3 := if x.abort then s2.raise ⟨k.blk, 0, 1⟩ k.at' (chInfo s k x) else s2
  match k with
  | .tile d t _ =>
    let y := s3.tile d t
    let s4 := if x.abort then s3.setTile d t { y with
        ops := y.ops.map (fun o => if o.issue = x.q.issue then { o with withheld := true } else o) } else s3
    s4.opDone d t x.q.issue
  | .die d c => if x.abort then s3 else s3.doneAdd d (68 + c.val) x.q.desc

/-- COPY_COMPLETE (R526, R547, R551). -/
def execCopyComplete (c : ChanId) (s : State) : Host.Outcome State Fault Refusal :=
  match chan s c with
  | none => .next s
  | some x => if (x.abort && !chBusy s c) || (!x.abort && chDone s c x) then .next (s.chFinish c x) else .next s

/-- Resume a halted channel (R546, R550). -/
def State.chResume (s : State) (k : ChanId) : State :=
  match chan s k with
  | none => s
  | some x =>
    match x.halted, x.fails with
    | true, f :: _ => (s.p k.err ⟨49, 4⟩ 0).chRedo k x f 1
    | _, _ => s

/-- Abort the operation of a channel (R547, R549). -/
def State.chAbort (s : State) (k : ChanId) : State :=
  match chan s k with
  | none => s
  | some x =>
    if chDone s k x then s
    else
      let y := { x with abort := true, fails := [], halted := false }
      if chBusy s k then s.setChan k (some y) else s.chFinish k y

/-- A tile's issued operation that its channel has not begun is held by the channel too. -/
def State.chHold (s : State) (k : ChanId) : State :=
  match k with
  | .tile d t c =>
    if (chan s k).isSome then s else
    match (s.tile d t).ops.find? (fun o => o.opcode == 4 + c.val) with
    | some o => s.chBegin k ⟨o.desc, o.issue, o.addr, t⟩
    | none => s
  | .die _ _ => s

/-- CH_RESUME (R546, R550): a write of 1 to CH_CTL.resume. -/
def execChResume (r : Requester) (c : ChanId) (s : State) : Host.Outcome State Fault Refusal :=
  .next (s.regWr r c.ctl (fun s => s.chResume c))

/-- CH_ABORT (R547, R548): a write of 1 to CH_CTL.abort. -/
def execChAbort (r : Requester) (c : ChanId) (s : State) : Host.Outcome State Fault Refusal :=
  .next (s.regWr r c.ctl (fun s => (s.chHold c).chAbort c))

end Sys2Proof.Machine
end

