-- ==== Sys2Proof/Machine/Cnv.lean ====
section
/-! DEFINITION. The converter: requantisation, outliers, scales, D4 codes, invalid vectors, push and history fold; the
shaker state write (R188 to R231, R260, R270). -/

namespace Sys2Proof.Machine

/-- The in-flight convert operation of a tile. -/
def cnvOp (s : State) (d t : Nat) : Option OpRec := (s.tile d t).ops.find? (fun o => o.opcode == 3)

/-- Replace the converter's operation state. -/
def State.setCnv (s : State) (d t : Nat) (c : Option CnvS) : State := s.setTile d t { s.tile d t with cnv := c }

/-! ## Descriptor fields (R191) -/

def cnvWidth (x : Desc) : Nat := nfld (x.le 42 2) 0 11
def cnvFmt (x : Desc) : Nat := nfld (x.b 46) 0 4
def cnvSigned (x : Desc) : Bool := nbit (x.b 46) 4
def cnvD4 (x : Desc) : Bool := nbit (x.b 46) 5
def cnvSide (x : Desc) : Bool := nbit (x.b 46) 6
def cnvSrc (x : Desc) : Bool := nbit (x.b 47) 5
def cnvRemote (x : Desc) : Bool := nbit (x.b 48) 6
def cnvLayer (x : Desc) : Nat := x.le 54 2
/-- Output vectors per input vector (R193). -/
def cnvH (x : Desc) : Nat := if cnvWidth x ≤ 512 then 1 else 2

/-! ## The pipeline -/

/-- The values y_j before the channel table, and whether the vector is marked invalid (R197, R198, R201, R202). -/
def sumValues (x : Desc) (c : ColSums) : List XV :=
  (List.range (cnvWidth x)).map (fun j =>
    let v := XV.ofInt (c.sums.getD j 0)
    if c.planes = 0 then q32 (v.scale c.exp) else q32 ((q32 (XV.div v (XV.ofInt c.planes))).scale c.exp))

/-- A row of a source array (R198); a failed element is a NaN (R1090). -/
def rowValues (fmt : Nat) (bs : List (Option Byte)) (n : Nat) : List XV :=
  let z := fmtSize fmt
  (List.range n).map (fun j => match whole (slice bs (j * z) z) with
    | some b => (ffmt fmt).dec (leNat b)
    | none => .nan)

/-- One column through the channel table (R203, R204); `e` is its 8-byte entry, none where the read failed. -/
def chanStep (multEn : Bool) (e : Option (List Byte)) (y : XV) : XV :=
  match e with
  | none => .nan
  | some bs =>
    let y1 := q32 (y.scale (sgn 8 (leAt bs 4 1)))
    let y2 := if multEn then q32 ((XV.mul y1 (XV.ofInt (leAt bs 5 2))).scale (-14)) else y1
    q32 (XV.add y2 (f32.dec (leAt bs 0 4)))

/-- One half of a word of an activation table. -/
def actHalf (s : State) (a j : Nat) : Nat := fld (s.rd a) (32 * (j % 2)) 32

/-- The activation table of a tile (R205): the code and the activated value. -/
def activate (s : State) (d t k : Nat) (y : XV) : Nat × XV :=
  let n := s.g (Reg.cnvActSeg d t k) Reg.cnvActSeg_seg_count
  let code := ((List.range (n - 1)).filter (fun i =>
    XV.ge y (f32.dec (actHalf s (Reg.cnvActBp d t k (i / 2)) i)))).length
  let slope := f32.dec (actHalf s (Reg.cnvActSlope d t k (code / 2)) code)
  let off := f32.dec (actHalf s (Reg.cnvActOff d t k (code / 2)) code)
  (code, q32 (XV.add (XV.mul slope y) off))

/-! ## Outliers -/

/-- The larger magnitude of a list of values. -/
def maxAbsOf (l : List XV) : XV := l.foldl (fun m x => XV.max m x.abs) XV.zero

/-- The mean of the quire max-abs values of one output vector, before extraction (R210, R1094). -/
def quireMean (per : Nat) (els : List XV) : XV :=
  let ms := (chunks 64 per els).map maxAbsOf
  if ms = [] then XV.zero else q32 (XV.div (XV.sum ms) (XV.ofInt ms.length))

/-- The outlier threshold of an output vector (R209, R210). -/
def outlierThr (s : State) (d t : Nat) (x : Desc) (els : List XV) : XV :=
  let e := histIx (cnvLayer x)
  let out := sgn 16 (s.g (Reg.wghHistCfg d t) Reg.wghHistCfg_out_lg)
  if s.on (Reg.wghHist1 d t e) Reg.wghHist1_q_valid then
    pow2q (sgn 16 (s.g (Reg.wghHist0 d t e) Reg.wghHist0_q_lg) + out)
  else q32 (XV.mul (pow2q out) (quireMean (qVals (cnvFmt x)) els))

/-- The rows of an output vector that are extracted, and those left narrow (R118, R211): of more than 64 candidates,
the 64 of largest magnitude, the lower row first on a tie. -/
def pickOutliers (thr : XV) (els : List XV) : List Nat × List Nat :=
  let cand := ((List.range els.length).zip els).filter (fun (_, a) => XV.lt thr a.abs)
  let rank (r : Nat) (a : XV) : Nat :=
    (cand.filter (fun (r', a') => XV.lt a.abs a'.abs || (!XV.lt a'.abs a.abs && r' < r))).length
  ((cand.filter (fun (r, a) => rank r a < 64)).map (·.1), (cand.filter (fun (r, a) => 64 ≤ rank r a)).map (·.1))

/-- The smallest exponent at which a magnitude fits 32 767, and the value there (R212): from exponent `e` upward. -/
def sideScale (n d : Nat) : Nat → Nat → Nat × Nat
  | 0, e => (e, 0)
  | fuel + 1, e =>
    let k : Int := (e : Int) - 127
    let v := if 0 ≤ k then roundNat 0 0 n (d * 2 ^ k.toNat) else roundNat 0 0 (n * 2 ^ (-k).toNat) d
    if v ≤ 32767 ∨ e = 0xFE then (e, v) else sideScale n d fuel (e + 1)

/-- A side-list entry (R117, R212). -/
def sideEntry (row : Nat) (a : XV) : List Byte :=
  match a with
  | .fin s n d =>
    let (e, v) := sideScale n d 255 0
    leBytes 2 (encS 16 (if s then -(v : Int) else v)) ++ leBytes 2 row ++ leBytes 1 e ++ leBytes 3 0
  | _ => leBytes 8 0

/-- A side list (R117, R213). -/
def sideList (rows : List Nat) (els : List XV) : List Byte :=
  leBytes 64 rows.length ++ padTo 0 512 (rows.flatMap (fun r => sideEntry r (els.getD r XV.zero)))

/-! ## Scales and quantisation -/

/-- The range of an output format: least value, greatest value (R30, R51). -/
def outRange (b : Nat) (signed : Bool) : Int × Int :=
  if signed then (-(2 ^ (b - 1)), 2 ^ (b - 1) - 1) else (0, 2 ^ b - 1)

/-- M of R214. -/
def outM (b : Nat) (signed : Bool) : Nat := if signed then 2 ^ (b - 1) - 1 else 2 ^ b - 1

/-- k_i of a sub-block of max-abs `m` (R214). A threshold that underflowed to 0 stands for rows left narrow; its binary
logarithm is a free value (DESIGN CHOICE, log entry 25). -/
def subK (b : Nat) (signed : Bool) (m : XV) : Int :=
  match m with
  | .fin _ n d =>
    let k := (if n = 0 then Config.log2Zero else XV.floorLog2 n d) - (if signed then (b : Int) - 2 else (b : Int) - 1)
    if XV.lt ((XV.ofInt (outM b signed)).scale k) m then k + 1 else k
  | _ => 0

/-- An element on its way to a quire: its value after extraction, whether it was left narrow, and its draw. -/
structure QElem where
  a : XV
  narrow : Bool
  draw : Nat
  deriving DecidableEq, Repr

/-- Quantise one element (R51, R119, R217): its integer, and whether it was clipped. -/
def quantElem (b : Nat) (signed : Bool) (mode : Nat) (k : Int) (q : QElem) : Int × Bool :=
  let (lo, hi) := outRange b signed
  match q.a with
  | .fin s n d =>
    if q.narrow then (if s then lo else hi, true)
    else
      let m := if 0 ≤ k then roundNat mode q.draw n (d * 2 ^ k.toNat) else roundNat mode q.draw (n * 2 ^ (-k).toNat) d
      let v : Int := if s then -(m : Int) else m
      (clampI lo hi v, clampI lo hi v != v)
  | _ => (0, false)

/-- A quantised quire: header, payload, elements clipped under R51, sub-blocks rounded wholly to zero. -/
structure QuantOut where
  hdr : List Byte
  pay : List Byte
  clipped : Nat
  zeroed : Nat
  deriving DecidableEq, Repr

/-- Quantise one quire (R59 to R62, R214 to R219): `thr` is the outlier threshold, `outl` whether a channel was moved
out. -/
def quantQuire (fmt : Nat) (signed outl : Bool) (scaleMode fixedE mode : Nat) (thr : XV) (qs : List QElem) :
    QuantOut :=
  let b := qBits fmt
  let subs := chunks 8 (64 / b) qs
  let allZero (l : List QElem) : Bool := l.all (fun q => q.a.isZero)
  let m (l : List QElem) : XV :=
    let rest := maxAbsOf ((l.filter (fun q => !q.narrow)).map (·.a))
    if rest.isZero then thr else rest
  let ks : List (Option Int) := subs.map (fun l => if allZero l then none else some (subK b signed (m l)))
  let kmax : Int := (ks.filterMap id).foldl max (((ks.filterMap id).head?).getD 0)
  let e : Nat := if ks.all Option.isNone then 0x7F
    else if scaleMode = 2 then fixedE else (clampI 0 254 (127 + kmax)).toNat
  let sh (k : Option Int) : Nat := match k with
    | none => 0
    | some k => if scaleMode = 0 then (clampI 0 15 ((e : Int) - 127 - k)).toNat else 0
  let outs := (subs.zip ks).map (fun (l, k) => l.map (quantElem b signed mode ((e : Int) - 127 - sh k)))
  let zf := outs.map (fun l => l.all (fun p => p.1 == 0))
  let sf := outs.map (fun l => l.any (·.2) && !l.all (fun p => p.1 == 0))
  { hdr := quireHdr fmt signed outl e ((ks.zip zf).map (fun (k, z) => if z then 0 else sh k)) (flagBits zf) (flagBits sf)
    pay := pack b (outs.flatMap (fun l => l.map (fun p => encS b p.1)))
    clipped := ((outs.zip subs).map (fun (o, l) => ((o.zip l).filter (fun (p, q) => p.2 && !q.narrow)).length)).foldl
      (· + ·) 0
    zeroed := ((subs.zip zf).filter (fun (l, z) => z && !allZero l)).length }

/-! ## Writing a vector -/

/-- Write bytes of an operation on this module, or on push_station as WRITE packets (R195, R1091). -/
def State.cnvWrite (s : State) (d : Die) (t : Tile) (o : OpRec) (a : Nat) (bs : List Byte) : State :=
  if cnvRemote o.desc then s.sendWrites d (fun _ => .cnv t o.issue) (o.desc.le 52 2) t a (chunks 16 4096 bs)
  else
    match s.writeSpan (.tileUnit d t) a bs with
    | (some (e, b), s1) => s1.withhold d t o.issue 0x03 b e.cause
    | (none, s1) => s1

/-- Write the quires of output vector `w` (R130, R194): headers, then payload lines. -/
def State.cnvQuires (s : State) (d : Die) (t : Tile) (o : OpRec) (fmt base stride w : Nat)
    (qs : List (List Byte × List Byte)) : State :=
  if fmt = 5 then
    let a := base + w * stride * 64
    (s.cnvWrite d t o a (reamBytes (qs.take 8))).cnvWrite d t o (a + 576) (reamBytes (qs.drop 8))
  else if fmt = 4 then s.cnvWrite d t o (base + w * stride * 64) (reamBytes qs)
  else
    let a := base + w / 2 * stride * 64
    (s.cnvWrite d t o (a + 32 * (w % 2)) (qs.flatMap (·.1))).cnvWrite d t o (a + 64 + 256 * (w % 2))
      (qs.flatMap (·.2))

/-- D4 quires of 512 codes (R207, R208). -/
def d4Quires (codes : List Nat) : List (List Byte × List Byte) :=
  (chunks 4 128 codes).map (fun cs =>
    (quireHdr 6 false false 0x7F [] (flagBits ((chunks 8 16 cs).map (fun l => l.all (· == 0)))) 0, pack 4 cs))

/-- One output vector of a valid input vector: elements `els` below out_width, draws, codes (R207 to R219). -/
def State.cnvOut (s : State) (d : Die) (t : Tile) (o : OpRec) (c : CnvS) (w : Nat) (els : List XV)
    (draws codes : List Nat) : CnvS × State :=
  let x := o.desc
  let fmt := cnvFmt x
  let per := qVals fmt
  let thr := if cnvSide x then outlierThr s d t x els else XV.zero
  let (ext, narrow) := if cnvSide x then pickOutliers thr els else ([], [])
  let qe : List QElem := (List.range 512).map (fun j =>
    ⟨if ext.contains j then XV.zero else els.getD j XV.zero, narrow.contains j, draws.getD j 0⟩)
  let outs := ((List.range (512 / per)).zip (chunks 16 per qe)).map (fun (q, l) =>
    quantQuire fmt (cnvSigned x) (ext.any (fun j => j / per == q)) (nfld (x.b 47) 0 2) (x.b 51) x.roundMode thr l)
  let s1 := s.cnvQuires d t o fmt (x.le 16 6) (x.le 22 2) w (outs.map (fun q => (q.hdr, q.pay)))
  let s2 := if cnvD4 x then s1.cnvQuires d t o 6 (x.le 26 6) 9 w (d4Quires (padTo 0 512 codes)) else s1
  let s3 := if cnvSide x then s2.cnvWrite d t o (x.le 32 6 + 576 * w) (sideList ext els) else s2
  let s4 := (s3.brk d t 5 narrow.length).brk d t 7 ((outs.map (·.clipped)).foldl (· + ·) 0)
  let s5 := s4.brk d t 8 ((outs.map (·.zeroed)).foldl (· + ·) 0)
  let s6 := if narrow = [] then s5 else s5.raise ⟨0x03, 0, 1⟩ (.tile d t)
    { issue := o.issue, mark := x.mark, layer := cnvLayer x, mb := x.le 38 2 }
  let kept := (qe.take els.length).map (·.a)
  let ms := (chunks 16 per kept).map maxAbsOf
  let (n, den) : Nat × Nat := match XV.sum (XV.fin false c.sumNum c.sumDen :: ms) with
    | .fin _ n den => (n, den)
    | _ => (c.sumNum, c.sumDen)
  ({ c with maxAbs := max c.maxAbs (r32 (maxAbsOf kept)), sumNum := n, sumDen := den, quires := c.quires + ms.length,
            good := true }, s6)

/-- One output vector of an invalid input vector (R220, R222). -/
def State.cnvOutBad (s : State) (d : Die) (t : Tile) (o : OpRec) (w : Nat) : State :=
  let x := o.desc
  let fmt := cnvFmt x
  let s1 := s.cnvQuires d t o fmt (x.le 16 6) (x.le 22 2) w (List.replicate (512 / qVals fmt)
    (quireInvalid fmt (cnvSigned x)))
  let s2 := if cnvD4 x then s1.cnvQuires d t o 6 (x.le 26 6) 9 w (List.replicate 4 (quireInvalid 6 false)) else s1
  if cnvSide x then s2.cnvWrite d t o (x.le 32 6 + 576 * w) (List.replicate 576 0) else s2

/-- A magnitude rounded up to BF16 (R232). -/
def bf16Up (a : XV) : Nat :=
  let b := r32 a.abs
  if b % 65536 = 0 then b / 65536 else b / 65536 + 1

/-- Raise the channel maxima (R232). -/
def State.chanStat (s : State) (d t : Nat) : List (Nat × XV) → State
  | [] => s
  | (j, a) :: l =>
    let r := Reg.wghChan d t (j / 4)
    let f := Reg.wghChan_chan (j % 4)
    (s.p r f (max (s.g r f) (bf16Up a))).chanStat d t l

/-- An operation that starts in the converter. -/
def CnvS.fresh (issue : Nat) : CnvS := ⟨issue, 0, false, false, 0, 0, 1, 0, [], [], false⟩

/-- Convert one input vector of values y and mark (R203 to R223). -/
def State.cnvVec (s : State) (d : Die) (t : Tile) (o : OpRec) (c : CnvS) (bad : Bool) (ys : List XV) : State :=
  let x := o.desc
  let n := cnvWidth x
  let v := c.next
  let (tab, s1) := s.readSpan (.tileUnit d t) (slotBase d t + x.le 44 2 * 64) (8 * n)
  let ya := ((List.range n).zip ys).map (fun (j, y) => chanStep (nbit (x.b 46) 7) (whole (slice tab (8 * j) 8)) y)
  let acts := ya.map (fun y => if nbit (x.b 47) 4 then activate s1 d t (nfld (x.b 47) 2 2) y else (0, y))
  let nonfin := acts.any (fun p => !p.2.isFinite)
  let h := cnvH x
  let s2 := s1.cnt d t 14 1
  if bad || nonfin then
    let s3 := s2.cnvOutBad d t o (v * h)
    let s4 := (if h = 2 then s3.cnvOutBad d t o (v * h + 1) else s3).brk d t 9 1
    let s5 := if c.bad then s4 else s4.raise ⟨0x03, 0, 0⟩ (.tile d t)
      { issue := o.issue, mark := x.mark, layer := cnvLayer x, mb := x.le 38 2, exc := true,
        detail := [BitVec.ofNat 64 (v + (if bad then 0 else 65536))] }
    s5.setCnv d t (some { c with next := v + 1, bad := true })
  else
    let g := x.shaker
    let (draws, left, s3) := if x.roundMode = 2
      then (s2.genDrawn d t g c.drew).draw16 (Reg.genStateLo d t g) (Reg.genStateHi d t g) c.left n
      else ([], c.left, s2)
    let vals := acts.map (·.2)
    let codes := acts.map (·.1)
    let c0 := { c with left := left, drew := if x.roundMode = 2 then [g] else c.drew, next := v + 1 }
    let (c1, s4) := s3.cnvOut d t o c0 (v * h) (vals.take 512) (draws.take 512) (codes.take 512)
    let (c2, s5) := if h = 2
      then s4.cnvOut d t o c1 (v * h + 1) (vals.drop 512) (draws.drop 512) (codes.drop 512) else (c1, s4)
    let s6 := if nbit (x.b 47) 6 then s5.chanStat d t ((List.range (min n 512)).zip vals) else s5
    s6.setCnv d t (some c2)

/-- CNV_VECTOR (R188 to R223): the next input vector of the operation, from the input queue or from memory. -/
def execCnvVector (d : Die) (t : Tile) (s : State) : Host.Outcome State Fault Refusal :=
  match cnvOp s d t with
  | none => .next s
  | some o =>
    let x := o.desc
    let c := (s.tile d t).cnv.getD (CnvS.fresh o.issue)
    if !s.tileClk d t || decide (x.le 24 2 ≤ c.next) then .next s
    else if cnvSrc x then
      let fmt := nfld (x.b 48) 0 4
      let (bs, s1) := s.readSpan (.tileUnit d t) (x.le 32 6 + c.next * x.le 40 2 * 64) (cnvWidth x * fmtSize fmt)
      .next (s1.cnvVec d t o c false (rowValues fmt bs (cnvWidth x)))
    else
      let tl := s.tile d t
      match tl.cnvQ with
      | [] => .next s
      | q :: qs => .next ((s.setTile d t { tl with cnvQ := qs }).cnvVec d t o c q.bad (sumValues x q))

/-! ## Completion -/

/-- Whether packets of an owner are tracked or held on a die. -/
def ownerBusy (s : State) (d : Nat) (p : Owner → Bool) : Bool :=
  (s.die d).track.any (fun k => p k.owner) || (s.die d).heldPkts.any (fun k => p k.1)

/-- The push of a convert operation (R225, R228): to a slot of this module, or a WGH_PUSH packet. -/
def State.cnvPush (s : State) (d : Die) (t : Tile) (o : OpRec) (c : CnvS) : State :=
  let x := o.desc
  let value := if c.good then c.maxAbs else 0
  let slot := nfld (x.b 49) 0 6
  let tile := nfld (x.b 50) 0 7
  if nbit (x.b 48) 5 && !isOwn s d (x.le 52 2) then
    s.sendPkt d (.cnv t o.issue) (mkPkt s d 5 (x.le 52 2) t (tile + 256 * slot) 0
      (leBytes 4 value ++ leBytes 2 (x.le 38 2) ++ leBytes 2 (!c.good).toNat))
  else match s.pushTo (.tileUnit d t) (tile / 64) (tile % 64) slot (x.le 38 2) value (!c.good) with
    | (none, s1) => s1
    | (some e, s1) => s1.withhold d t o.issue 0x03 (tile + 256 * slot) e.cause

/-- The mean observed under R238, rounded once. -/
def cnvMean (c : CnvS) : XV :=
  if c.quires = 0 then XV.zero else q32 (XV.fin false c.sumNum (c.sumDen * c.quires))

/-- CNV_COMPLETE (R200, R225 to R229, R238): every vector is converted and every packet acknowledged: the push is made,
then the history fold and the completion. -/
def execCnvComplete (d : Die) (t : Tile) (s : State) : Host.Outcome State Fault Refusal :=
  match cnvOp s d t, (s.tile d t).cnv with
  | some o, some c =>
    let x := o.desc
    if !s.tileClk d t || decide (c.next < x.le 24 2) || ownerBusy s d (· == .cnv t o.issue) then .next s
    else
      let s1 := if nbit (x.b 48) 4 && !c.pushed
        then (s.setCnv d t (some { c with pushed := true })).cnvPush d t o c else s
      if ownerBusy s1 d (· == .cnv t o.issue) then .next s1
      else
        let s2 := if nbit (x.b 47) 7 then s1.observeQ d t (cnvLayer x) (cnvMean c) else s1
        .next ((s2.setCnv d t none).opDone d t o.issue)
  | _, _ => .next s

/-! ## Shaker state writes -/

/-- Whether an in-flight operation of a tile holds shaker `g` (R271). -/
def shakerHeld (s : State) (d t g : Nat) : Bool :=
  (s.tile d t).ops.any (fun o => nbit (shakersOf o.desc (s.g (Reg.fwdCtl d t) Reg.fwdCtl_default_prec)) g)

/-- Whether the update unit's begun descriptor holds the update shakers (R328). -/
def updShakerHeld (s : State) (d : Nat) : Bool := match (s.die d).u.cur with
  | some u => u.q.desc.roundMode == 2
  | none => false

/-- A write of one half of the state of shaker `g` of a tile (R260, R270). -/
def State.genStateWrite (s : State) (d t g : Nat) (hi : Bool) (v : Word) : State :=
  if shakerHeld s d t g then (s.raise ⟨0x09, 0, 0⟩ (.tile d t)).fail .busy
  else s.shakerWrite (Reg.genStateLo d t g) (Reg.genStateHi d t g) hi v

/-- A write of one half of the state of update shaker `g` (R260, R270, R333). -/
def State.updGenWrite (s : State) (d g : Nat) (hi : Bool) (v : Word) : State :=
  if updShakerHeld s d then (s.raise ⟨0x11, 0, 6⟩ (.die d)).fail .busy
  else s.shakerWrite (Reg.updGenStateLo d g) (Reg.updGenStateHi d g) hi v

/-- GEN_STATE_WRITE (R260, R270): a write of one half of a shaker's state, of a tile or of the update unit. -/
def execGenStateWrite (r : Requester) (d : Die) (u : ShakerUnit) (g : Fin 8) (hi : Bool) (v : Word) (s : State) :
    Host.Outcome State Fault Refusal :=
  match u with
  | .tile t => .next (s.regWr r (if hi then Reg.genStateHi d t g else Reg.genStateLo d t g) (fun s => s.genStateWrite d t g hi v))
  | .update => .next (s.regWr r (if hi then Reg.updGenStateHi d g else Reg.updGenStateLo d g) (fun s => s.updGenWrite d g hi v))

end Sys2Proof.Machine
end

