-- ==== Sys2Proof/Machine/UpdMath.lean ====
section
/-! DEFINITION. The arithmetic of the update unit: gradients, learning-rate exponents, the optimisers, narrow codes,
the backward copy (R294 to R315). Every line of the optimisers is formed exactly and rounded once to F32. -/

namespace Sys2Proof.Machine

/-- A square root, exact or with a sticky bit 2^−2049 below: close enough that one later rounding to F32 of a quotient
by it is that of the exact quotient. -/
def sqrtX (x : XV) : XV :=
  match x with
  | .nan => .nan
  | .inf s => if s then .nan else .inf false
  | .fin s n d =>
    if n = 0 then .fin s 0 1
    else if s then .nan
    else
      let y := 2 ^ 4096 * n / d
      let q := Nat.sqrt y
      .fin false (2 * q + (if q * q = y ∧ y * d = 2 ^ 4096 * n then 0 else 1)) (2 ^ 2049)

/-- The factors of one descriptor: lr, wd, beta1, beta2, eps, c1, c2 of the parameter block (R286), and lr_exp. -/
structure OptP where
  lr : XV
  wd : XV
  beta1 : XV
  beta2 : XV
  eps : XV
  c1 : XV
  c2 : XV
  lrExp : Int
  deriving DecidableEq, Repr

/-- An F32 value of the parameter block. -/
def parmF (parm : List Byte) (o : Nat) : XV := f32.dec (leAt parm o 4)

/-- The factors a parameter block holds. -/
def optP (parm : List Byte) (lrExp : Int) : OptP :=
  { lr := parmF parm 0, wd := parmF parm 4, beta1 := parmF parm 8, beta2 := parmF parm 12, eps := parmF parm 16,
    c1 := parmF parm 20, c2 := parmF parm 24, lrExp := lrExp }

/-- The true gradient and the state-domain gradient (R294, R295). -/
def gradPair (sum : XV) (count : Nat) (kappa : XV) (gradExp lrExp : Int) : XV × XV :=
  let g := q32 (XV.div sum (XV.ofInt count))
  let k := XV.mul g kappa
  (q32 (k.scale (-gradExp)), q32 (k.scale (lrExp - gradExp)))

/-- The new lr_exp of a prepass: `wmax` is the largest magnitude of the weights (R299). -/
def prepassExp (gap : Int) (wmax : XV) : Int :=
  match wmax with
  | .fin _ n d => if n = 0 then clampI (-126) 126 gap else clampI (-126) 126 (gap - XV.floorLog2 n d)
  | _ => -126

/-- SGD with momentum (R303): the new weight and the new m. -/
def sgdStep (p : OptP) (w m g : XV) : XV × XV :=
  let m1 := q32 (XV.add (XV.mul p.beta1 m) g)
  let w1 := q32 (XV.add w (XV.mul (XV.mul p.lr p.wd) w).neg)
  (q32 (XV.add w1 (XV.mul (p.lr.scale (-p.lrExp)) m1).neg), m1)

/-- AdamW (R304): the new weight, m and v. -/
def adamStep (p : OptP) (w m v g : XV) : XV × XV × XV :=
  let one := XV.ofInt 1
  let m1 := q32 (XV.add (XV.mul p.beta1 m) (XV.mul (XV.add one p.beta1.neg) g))
  let v1 := q32 (XV.add (XV.mul p.beta2 v) (XV.mul (XV.mul (XV.add one p.beta2.neg) g) g))
  let u := q32 (XV.div (XV.mul m1 p.c1) (XV.add (sqrtX (XV.mul v1 p.c2)) (p.eps.scale p.lrExp)))
  (q32 (XV.add w (XV.mul p.lr (XV.add u (XV.mul p.wd w))).neg), m1, v1)

/-- The Adagrad accumulator of a row (R305). -/
def adagradA (a : XV) (gs : List XV) (d : Nat) : XV :=
  q32 (XV.add a (XV.div (XV.sum (gs.map (fun g => XV.mul g g))) (XV.ofInt d)))

/-- One weight of a row under Adagrad (R305). -/
def adagradW (p : OptP) (a w g : XV) : XV :=
  q32 (XV.add w (XV.div (XV.mul p.lr g) (XV.add (sqrtX a) (p.eps.scale p.lrExp))).neg)

/-- Round an exact finite value to an integer under round_mode (R42, R43). -/
def roundInt (mode r : Nat) (s : Bool) (n d : Nat) : Int :=
  let m := roundNat mode r n d
  if s then -(m : Int) else m

/-- The least and greatest value of a narrow format (R30, R309). -/
def narrowRange (fmt : Nat) (signed : Bool) : Int × Int :=
  match fmt with
  | 0 => (0, 1)
  | 2 => (-1, 1)
  | _ => if signed then (-2, 1) else (0, 3)

/-- Whether a column divisor is usable (R311). -/
def divisorOk (c : XV) : Bool := c.isFinite && !c.isNeg && !c.isZero

/-- The code of one narrow element, and whether it was clipped (R308 to R311). -/
def narrowCode (fmt : Nat) (signed : Bool) (mode r : Nat) (w f c : XV) : Nat × Bool :=
  if !divisorOk c then (0, false) else
  let q := XV.div (XV.mul w f) c
  let (lo, hi) := narrowRange fmt signed
  match q with
  | .nan => (0, true)
  | .inf s => (encS (qBits fmt) (if s then lo else hi), true)
  | .fin _ _ _ =>
    let q' := if fmt = 0 ∧ signed then (XV.add q (XV.ofInt 1)).scale (-1) else q
    match q' with
    | .fin s n d =>
      let v := roundInt mode r s n d
      (encS (qBits fmt) (clampI lo hi v), clampI lo hi v != v)
    | _ => (0, true)

/-- The backward copy of one weight (R313). -/
def bwdCopy (fmt mode r : Nat) (ovfInf flush : Bool) (w : XV) (bwdExp : Int) (f : XV) : Rounded :=
  (ffmt fmt).round mode r ovfInf flush ((XV.mul w f).scale bwdExp)

/-- The largest of a magnitude and those of a list, as F32 encodings; a NaN is above every other. -/
def maxEnc (m : Nat) (l : List XV) : Nat := l.foldl (fun m x => max m (r32 x.abs)) m

/-- The magnitudes of a list, the largest first found; NaNs take no part. -/
def maxMag (l : List XV) : XV := l.foldl (fun m x => XV.max m x.abs) XV.zero

end Sys2Proof.Machine
end

