-- ==== Sys2Proof/Machine/Upd.lean ====
section
/-! DEFINITION. The update unit: submission, beginning, prepass, blocks and rows, outputs, header, completion, mirrors,
parity deltas (R279 to R332, R587 to R594, R1090 to R1093). -/

namespace Sys2Proof.Machine

/-! ## Descriptor and parameter-block fields (R285, R286) -/

def updN (x : Desc) : Nat := x.le 34 2
def updLayer (x : Desc) : Nat := x.le 36 2
def updOpt (x : Desc) : Nat := nfld (x.b 38) 0 2
def updRow (x : Desc) : Bool := updOpt x == 2
def updNarrow (x : Desc) : Bool := nbit (x.b 38) 2
def updBwd (x : Desc) : Bool := nbit (x.b 38) 3
def updMirror (x : Desc) : Bool := nbit (x.b 38) 4
def updStats (x : Desc) : Bool := nbit (x.b 38) 5
def updFold (x : Desc) : Bool := nbit (x.b 39) 5
def updStep (x : Desc) : Nat := x.le 42 6
/-- State arrays of a block mode (R289). -/
def updK (x : Desc) : Nat := if updOpt x = 0 then 1 else 2
/-- An address of the parameter block. -/
def parmA (parm : List Byte) (o : Nat) : Nat := leAt parm o 6
/-- Row length D of row mode. -/
def rowLen (parm : List Byte) : Nat := leAt parm 0x1E 2
/-- Bytes a row occupies (R555). -/
def rowStride (d : Nat) : Nat := (d / 16 + 1) * 64

/-- Whether the fold vector is used. -/
def usesFold (x : Desc) : Bool := updNarrow x || updStats x || (updBwd x && updFold x)

/-- The conditions of R1092 on the descriptor; its opcode is not judged (DEDUCED, log entry 27). -/
def updDescBad (x : Desc) : Bool :=
  updOpt x == 3 || x.roundMode == 3 || updN x == 0 ||
  x.le 16 6 % 64 != 0 || x.le 22 6 % 64 != 0 || x.le 28 6 % 64 != 0 ||
  (!updRow x && x.le 48 2 == 0) ||
  (updNarrow x && decide (2 < nfld (x.b 39) 0 4)) ||
  (updBwd x && !(7 ≤ nfld (x.b 40) 0 4 && nfld (x.b 40) 0 4 ≤ 10)) ||
  (updRow x && (updNarrow x || updBwd x || updMirror x || updStats x)) ||
  nbit (x.b 39) 7 || decide (16 ≤ x.b 40) || decide (64 ≤ x.b 41) || x.le 54 2 != 0

/-- The conditions of R1092 on the parameter block. -/
def updParmBad (x : Desc) (parm : List Byte) : Bool :=
  let off (o : Nat) : Bool := parmA parm o % 64 != 0
  ([0x20, 0x28, 0x30, 0x38, 0x40, 0x48, 0x50, 0x58].any (fun o => leAt parm (o + 6) 2 != 0)) ||
  decide (2 ^ 31 ≤ leAt parm 0x68 8) || leAt parm 0x70 16 != 0 || off 0x20 ||
  if updRow x then decide (rowLen parm < 16 ∨ 4096 < rowLen parm ∨ rowLen parm % 16 ≠ 0)
  else off 0x28 || off 0x30 || (usesFold x && off 0x38) || (updNarrow x && off 0x40) || (updStats x && off 0x48) ||
    (updNarrow x && off 0x50) || (updBwd x && off 0x58) || (updMirror x && off 0x60)

/-! ## State -/

/-- Replace the update unit of a die. -/
def State.setUpd (s : State) (d : Nat) (u : UpdUnitS) : State := s.setDie d { s.die d with u := u }

/-- Replace the begun descriptor. -/
def State.setUpdCur (s : State) (d : Nat) (c : Option UpdS) : State := s.setUpd d { (s.die d).u with cur := c }

/-- What a log record of an update descriptor says of it. -/
def updInfo (q : QDesc) : Info := { issue := q.issue, mark := q.desc.mark, layer := updLayer q.desc }

/-- The update unit as a requester. -/
def updReq (d : Nat) : Requester := .update (Fin.ofNat 2 d)

/-- WGH_STATUS.startup is 1 in a tile of the die (R302). -/
def updStartup (s : State) (d : Nat) : Bool := (List.range 64).any (startupOn s d)

/-- Packets of mirror `n` that no ACK has answered. -/
def mirrorBusy (s : State) (d n : Nat) : Bool := ownerBusy s d (· == .mirror n)

/-- A mirror in flight (R322). -/
def mirrorLive (s : State) (d : Nat) (m : MirrorS) : Bool := !m.ended && !(m.last && !mirrorBusy s d m.num)

/-- Forget mirrors whose lines the partner has all acknowledged: their ranges are free again (R324), and one with a
refused line makes no remote add (R1091). -/
def State.mirrorSettle (s : State) (d : Nat) : State :=
  let u := (s.die d).u
  let done := (u.mirrors.filter (fun m => !m.ended && !mirrorLive s d m)).map (·.num)
  let ms := (u.mirrors.map (fun m => if done.contains m.num then { m with ended := true } else m)).filter
    (fun m => !(m.ended && m.bad))
  let x := s.die d
  s.setDie d { x with u := { u with mirrors := ms }, guards := x.guards.filter (fun g => !done.contains g.1) }

/-- The lowest valid table entry of a die with a base (R591, R592). -/
def tableOf (s : State) (d base : Nat) : Option Nat :=
  (List.range 64).find? (fun t => s.on (Reg.prtTable0 d t) Reg.prtTable0_valid &&
    s.g (Reg.prtTable0 d t) Reg.prtTable0_base == base)

/-! ## Submission -/

/-- UPD_SUBMIT (R280, R281, R1093). -/
def execUpdSubmit (r : Requester) (d : Die) (v : Word) (s : State) : Host.Outcome State Fault Refusal :=
  .next (s.submit r d 64 (Reg.updSubmit d) v.toNat)

/-- A write of 1 to UPD_CTL.queue_clear discards every descriptor not yet begun. -/
def State.updFlush (s : State) (d : Nat) : State :=
  let s1 := s.engFlush d 64
  s1.setUpd d { (s1.die d).u with parm := none }

/-- UPD_QUEUE_CLEAR (R333). -/
def execUpdQueueClear (r : Requester) (d : Die) (s : State) : Host.Outcome State Fault Refusal :=
  .next (s.regWr r (Reg.updCtl d) (fun s1 => s1.updFlush d))

/-! ## Beginning -/

/-- Leave the queue without beginning: the completion add, where `add` says so. -/
def State.updDrop (s : State) (d : Nat) (q : QDesc) (add : Bool) : State :=
  let s1 := (s.setUpd d { (s.die d).u with parm := none }).engPop d 64
  if add then s1.doneAdd d 64 q.desc else s1

/-- Handle a descriptor as a skip (R293, R1090). -/
def State.updSkip (s : State) (d : Nat) (q : QDesc) : State := (s.dbrk d 0 1).updDrop d q true

/-- The ranges that R324 protects for a descriptor. -/
def updRanges (s : State) (d : Nat) (x : Desc) (parm : List Byte) : List (Nat × Nat) :=
  let n := updN x
  let m := x.le 28 6
  let hdr := parmA parm 0x20
  if updRow x then
    let rows := match tableOf s d m with
      | some t => s.g (Reg.prtTable2 d t) Reg.prtTable2_nrows
      | none => 0
    [(m, m + 64 + rows * rowStride (rowLen parm)), (hdr, hdr + 64)]
  else
    let st := parmA parm 0x28
    [(m, m + 0x4000 * n), (st, st + 0x4000 * (updK x * n)), (hdr, hdr + 64)]

/-- The verdict of the norm watch: κ's F32 encoding, or none for a skip (R291 to R293, R295). -/
def State.updVerdict (s : State) (d : Nat) (q : QDesc) : Option Nat × State :=
  let x := q.desc
  let one := 0x3F800000
  if !nbit (x.b 39) 6 then (some one, s) else
  let t := nfld (x.b 41) 0 6
  let e := histIx (updLayer x)
  if s.g (Reg.wghHist1 d t e) Reg.wghHist1_tag ≠ updLayer x then
    (some one, s.raise ⟨0x11, 0, 1⟩ (.die d) (updInfo q))
  else match s.g (Reg.wghHist1 d t e) Reg.wghHist1_verdict with
    | 2 => (none, s)
    | 1 => (some (s.g (Reg.wghHist2 d t e) Reg.wghHist2_clip_factor), s)
    | _ => (some one, s)

/-- The new lr_exp where no prepass is needed (R298, R300). -/
def hdrExp (startup : Bool) (x : Desc) (hdr : List Byte) : Option Int :=
  if updRow x then (if nbit (byteAt hdr 3) 0 then some (sgn 8 (byteAt hdr 2)) else none)
  else if !startup && nbit (byteAt hdr 3) 1 then some (clampI (-126) 126 (-1 - sgn 16 (leAt hdr 4 2) / 256))
  else none

/-- Begin a descriptor whose parameter block is read and which no mirror holds (R282, R290 to R293, R318, R592). -/
def State.updStart (s : State) (d : Nat) (q : QDesc) (parm : List Byte) : State :=
  let x := q.desc
  match s.readLine (updReq d) (parmA parm 0x20) with
  | (none, s1) => s1.updSkip d q
  | (some hdr, s1) =>
    if nbit (byteAt hdr 3) 0 && decide (updStep x ≤ leAt hdr 8 6) then
      (s1.raise ⟨0x11, 0, 4⟩ (.die d) (updInfo q)).updDrop d q true
    else match s1.updVerdict d q with
      | (none, s2) => s2.updSkip d q
      | (some kappa, s2) =>
        if updRow x && (tableOf s2 d (x.le 28 6)).isNone then
          (s2.raise ⟨0x11, 0, 7⟩ (.die d) (updInfo q)).updDrop d q true
        else
          let u := (s2.die d).u
          let c : UpdS := { q := q, num := u.num, parm := parm, hdr := hdr, kappa := kappa,
                            lrExp := hdrExp (updStartup s2 d) x hdr, lanes := false, next := 0, gmax := 0,
                            counted := false, nonf := false, scaleBad := false, refused := false, logged := false,
                            left := List.replicate 8 [] }
          let m : MirrorS := { num := u.num, q := q, parm := parm, written := 0, sent := 0, started := false,
                               hdrDone := false, last := false, bad := false, logged := false, ended := false }
          let y := s2.die d
          (s2.setDie d { y with
            u := { u with parm := none, cur := some c, num := u.num + 1,
                          mirrors := if updMirror x then u.mirrors ++ [m] else u.mirrors },
            guards := y.guards ++ (updRanges s2 d x parm).map (fun r => (u.num, r.1, r.2)) }).engPop d 64

/-- UPD_BEGIN (R282, R286, R322, R323, R1092): the head descriptor is read, judged, and begins or waits for a mirror. -/
def execUpdBegin (d : Die) (s : State) : Host.Outcome State Fault Refusal :=
  match (s.die d).updQ with
  | [] => .next s
  | q :: _ =>
    let x := q.desc
    if !engReady s d 64 q || !s.arrClk d || s.on (Reg.updCtl d) Reg.updCtl_hold || (s.die d).u.cur.isSome then .next s
    else
      let refused (s : State) : State := ((s.raise ⟨0x11, 0, 8⟩ (.die d)
        { updInfo q with exc := true, detail := [BitVec.ofNat 64 q.addr] })).updDrop d q false
      if updDescBad x then .next (refused s) else
      let (parm, s1) : Option (List Byte) × State := match (s.die d).u.parm with
        | some p => (p, s)
        | none =>
          let (l, s1) := s.readSpan (updReq d) (x.le 16 6) 128
          (whole l, s1.setUpd d { (s1.die d).u with parm := some (whole l) })
      match parm with
      | none => .next (s1.updSkip d q)
      | some p =>
        if updParmBad x p then .next (refused s1) else
        let live := (s1.die d).u.mirrors.filter (mirrorLive s1 d)
        if (updMirror x && decide (4 ≤ live.length)) || live.any (fun m => parmA m.parm 0x20 == parmA p 0x20)
        then .next (s1.dcnt d 4 1)
        else .next (s1.updStart d q p)

/-! ## Prepass -/

/-- F32 encodings read; none where the read failed. -/
def f32s (bs : List (Option Byte)) : List (Option Nat) :=
  (chunks (bs.length / 4) 4 bs).map (fun b => (whole b).map leNat)

/-- The largest magnitude of the readable values, as an F32 encoding; a NaN is above every other. -/
def maxRead (l : List (Option Nat)) : Nat := l.foldl (fun m x => max m (x.getD 0 % 2 ^ 31)) 0

/-- The largest magnitude over the master blocks `i` onward (R299). -/
def State.prepassBlocks (s : State) (d base i : Nat) : Nat → Nat × State
  | 0 => (0, s)
  | n + 1 =>
    let (bs, s1) := s.readSpan (updReq d) (base + 0x4000 * i) 0x4000
    let (m, s2) := s1.prepassBlocks d base (i + 1) n
    (max (maxRead (f32s bs)) m, s2)

/-- A ledger entry's header line as the update unit reads it (R575): valid, local row, count, layer_id. -/
structure LedgerHdr where
  valid : Bool
  row : Nat
  count : Nat
  layer : Nat
  deriving DecidableEq, Repr

/-- Read the header line of ledger entry `i` of a walk; a failed read is a valid entry of count 0 (R1090). -/
def State.ledgerHdr (s : State) (d : Nat) (x : Desc) (i : Nat) (stride : Nat) : LedgerHdr × State :=
  match s.readLine (updReq d) (x.le 22 6 + i * stride) with
  | (some h, s1) => (⟨nbit (byteAt h 5) 0, leAt h 0 5, leAt h 8 2, leAt h 12 2⟩, s1)
  | (none, s1) => (⟨true, 0, 0, updLayer x⟩, s1)

/-- The largest magnitude over the master rows that entries `i` onward name (R300). -/
def State.prepassRows (s : State) (d : Nat) (x : Desc) (D nrows i : Nat) : Nat → Nat × State
  | 0 => (0, s)
  | n + 1 =>
    let (h, s1) := s.ledgerHdr d x i (rowStride D)
    if h.valid && h.layer == updLayer x && decide (h.row < nrows) then
      let (bs, s2) := s1.readSpan (updReq d) (x.le 28 6 + 64 + h.row * rowStride D) (4 * D)
      let (m, s3) := s2.prepassRows d x D nrows (i + 1) n
      (max (maxRead (f32s bs)) m, s3)
    else s1.prepassRows d x D nrows (i + 1) n

/-- The nrows of the table a row-mode descriptor names. -/
def updRows (s : State) (d : Nat) (x : Desc) : Nat :=
  match tableOf s d (x.le 28 6) with
  | some t => s.g (Reg.prtTable2 d t) Reg.prtTable2_nrows
  | none => 0

/-- UPD_PREPASS (R299, R300, R331): the master weights are read and the new lr_exp follows. -/
def execUpdPrepass (d : Die) (s : State) : Host.Outcome State Fault Refusal :=
  match (s.die d).u.cur with
  | none => .next s
  | some c =>
    if c.lrExp.isSome || !s.arrClk d then .next s else
    let x := c.q.desc
    let (m, s1) := if updRow x then s.prepassRows d x (rowLen c.parm) (updRows s d x) 0 (updN x)
      else s.prepassBlocks d (x.le 28 6) 0 (updN x)
    let (w, s2) := s1.largest m
    let e := prepassExp (sgn 8 (s.g (Reg.updCfg d) Reg.updCfg_wg_gap)) w
    .next ((s2.setUpdCur d (some { c with lrExp := some e })).dcnt d 3 (520 + updN x * 64))

/-- UPD_FIRST_LANE (R279, R331): the lanes take the first unit of the descriptor. -/
def execUpdFirstLane (d : Die) (s : State) : Host.Outcome State Fault Refusal :=
  match (s.die d).u.cur with
  | none => .next s
  | some c => if c.lrExp.isNone || !s.arrClk d then .next s else .next (s.setUpdCur d (some { c with lanes := true }))

/-! ## Writes -/

/-- Runs of present bytes: (offset, bytes). -/
def runs : Nat → List (Option Byte) → List (Nat × List Byte)
  | _, [] => []
  | i, none :: bs => runs (i + 1) bs
  | i, some b :: bs =>
    match runs (i + 1) bs with
    | (j, l) :: rest => if j = i + 1 then (i, b :: l) :: rest else (i, [b]) :: (j, l) :: rest
    | [] => [(i, [b])]

/-- The exception-log record of the first refused write of an update descriptor (R1091). -/
def State.updRecord (s : State) (d : Nat) (q : QDesc) (addr cause : Nat) : State :=
  s.record ⟨0x11, 3, 1⟩ (.die d) { updInfo q with
    detail := [BitVec.ofNat 64 (addr % 2 ^ 48 + 2 ^ 48 + 2 ^ 49 * cause)] }

/-- Note a refused local write of the begun descriptor: its completion add is withheld (R1091). -/
def State.updRefused (s : State) (d : Nat) (addr cause : Nat) : State :=
  match (s.die d).u.cur with
  | none => s
  | some c =>
    let s1 := if c.logged then s else s.updRecord d c.q addr cause
    let u := (s1.die d).u
    s1.setUpd d { u with cur := some { c with refused := true, logged := true },
                         mirrors := u.mirrors.map (fun m => if m.num = c.num then { m with logged := true } else m) }

/-- Write the runs of one output. -/
def State.updPut (s : State) (d : Nat) (a : Nat) : List (Nat × List Byte) → State
  | [] => s
  | (i, bs) :: l =>
    match s.writeSpan (updReq d) (a + i) bs with
    | (none, s1) => s1.updPut d a l
    | (some (e, b), s1) => (s1.updRefused d b e.cause).updPut d a l

/-- Write the present bytes of one output. -/
def State.updWrite (s : State) (d a : Nat) (bs : List (Option Byte)) : State := s.updPut d a (runs 0 bs)

/-- The bytes of F32 encodings, none for elements not written. -/
def f32Bytes (l : List (Option Nat)) : List (Option Byte) :=
  l.flatMap (fun x => match x with | some v => (leBytes 4 v).map some | none => List.replicate 4 none)

/-- Send the XOR delta of one written line of a parity-protected shard (R593, R594, R598). -/
def State.parityDelta (s : State) (d base addr : Nat) (old new : List Byte) : State :=
  match tableOf s d base with
  | none => s
  | some t =>
    if !s.on (Reg.prtTable0 d t) Reg.prtTable0_par_en then s else
    let a := encS 48 ((s.g (Reg.prtTable4 d t) Reg.prtTable4_par_base : Int) + addr - base)
    (s.wr (Reg.prtParSent d) (s.rd (Reg.prtParSent d) + 1)).sendPkt d (.parity t)
      (mkPkt s d 3 (s.g (Reg.prtTable4 d t) Reg.prtTable4_par_station) 64 a 0 (xorBytes old new))

/-- Write one line of a table shard, and send its delta when the write is not refused. -/
def State.shardLine (s : State) (d base addr : Nat) (old new : List Byte) : State :=
  match s.writeSpan (updReq d) addr new with
  | (none, s1) => s1.parityDelta d base addr old new
  | (some (e, b), s1) => s1.updRefused d b e.cause

/-! ## Draws -/

/-- The draws of the 64 lane cycles of a block, per shaker: `k` numbers per element, lane l from shaker l mod 8, in
lane order within a cycle (R327; DEDUCED, log entry 28). -/
def State.updDraws (s : State) (d k : Nat) (left : List (List Nat)) : Nat → List (List Nat) × List (List Nat) × State
  | 0 => ([], left, s)
  | g + 1 =>
    let (ns, l, s1) := s.draw16 (Reg.updGenStateLo d (7 - g)) (Reg.updGenStateHi d (7 - g)) (left.getD (7 - g) [])
      (512 * k)
    let (rest, left', s2) := s1.updDraws d k (left.set (7 - g) l) g
    (ns :: rest, left', s2)

/-- Draw `i` of element (rr, cc) of a block with `k` draws per element. -/
def drawAt (ds : List (List Nat)) (k rr cc i : Nat) : Nat :=
  (ds.getD (cc % 8) []).getD ((rr * 8 + cc / 8) * k + i) 0

/-! ## Blocks -/

/-- What one block has read: its count, gradient, weights and state arrays, its fold and divisor entries. -/
structure BlockIn where
  count : Nat
  grad : List (Option Nat)
  w : List (Option Nat)
  m : List (Option Nat)
  v : List (Option Nat)
  fold : List XV
  div : List XV
  deriving DecidableEq, Repr

/-- One element after the update: new weight, m and v encodings, |t|, kept under R306. -/
structure ElemOut where
  w : Nat
  m : Nat
  v : Nat
  t : XV
  kept : Bool
  deriving DecidableEq, Repr

/-- Update one element of a block (R294 to R297, R301, R303, R304, R306). -/
def elemStep (p : OptP) (opt count : Nat) (kappa : XV) (gradExp delta : Int) (w m v g : Nat) : ElemOut :=
  let w0 := f32.dec w
  let m0 := q32 ((f32.dec m).scale delta)
  let v0 := q32 ((f32.dec v).scale (2 * delta))
  if count = 0 then ⟨w, r32 m0, r32 v0, XV.zero, false⟩
  else
    let (t, gh) := gradPair (f32.dec g) count kappa gradExp p.lrExp
    let (w1, m1, v1) := if opt = 0 then (let (a, b) := sgdStep p w0 m0 gh; (a, b, v0)) else adamStep p w0 m0 v0 gh
    if w1.isFinite && m1.isFinite && v1.isFinite then ⟨r32 w1, r32 m1, r32 v1, t.abs, false⟩
    else ⟨w, r32 m0, r32 v0, t.abs, true⟩

/-- Element `e` of a block: none where a read it needs failed (R1090). -/
def blockElem (p : OptP) (opt : Nat) (init : Bool) (kappa : XV) (gradExp delta : Int) (b : BlockIn) (e : Nat) :
    Option ElemOut :=
  match b.w.getD e none, (if init then b.m.getD e none else some 0),
    (if init && opt == 1 then b.v.getD e none else some 0),
    (if b.count = 0 then some 0 else b.grad.getD e none) with
  | some w, some m, some v, some g => some (elemStep p opt b.count kappa gradExp delta w m v g)
  | _, _, _, _ => none

/-- Fold or divisor entries: a failed entry is a NaN (R1090). -/
def vecOf (bs : List (Option Byte)) : List XV := (f32s bs).map (fun x => match x with | some v => f32.dec v | none => .nan)

/-- Read everything block `i` of the begun descriptor needs (R287, R288, R297). -/
def State.blockRead (s : State) (d : Nat) (c : UpdS) : BlockIn × State :=
  let x := c.q.desc
  let i := c.next
  let g := x.le 50 4 + i
  let st := parmA c.parm 0x28
  let init := nbit (byteAt c.hdr 3) 0
  let rd (s : State) (use : Bool) (a n : Nat) : List (Option Byte) × State :=
    if use then s.readSpan (updReq d) a n else ([], s)
  let (dir, s1) := s.readSpan (updReq d) (parmA c.parm 0x30 + i * 8) 8
  let count := match whole dir with | some b => leAt b 0 2 | none => 0
  let (gb, s2) := rd s1 (count != 0) (x.le 22 6 + 0x4000 * i) 0x4000
  let (wb, s3) := s2.readSpan (updReq d) (x.le 28 6 + 0x4000 * i) 0x4000
  let (mb, s4) := rd s3 init (st + 0x4000 * i) 0x4000
  let (vb, s5) := rd s4 (init && updOpt x == 1) (st + 0x4000 * (updN x + i)) 0x4000
  let (fb, s6) := rd s5 (usesFold x) (parmA c.parm 0x38 + 256 * (g / x.le 48 2)) 256
  let (cb, s7) := rd s6 (updNarrow x) (parmA c.parm 0x40 + 256 * (g % x.le 48 2)) 256
  (⟨count, f32s gb, f32s wb, f32s mb, f32s vb, vecOf fb, vecOf cb⟩, s7)

/-- Bytes of packed narrow codes; a byte is written when one of its elements is, the others keeping their bits
(`old`). -/
def narrowBytes (b : Nat) (codes : List (Option Nat)) (old : List Byte) : List (Option Byte) :=
  let per := 8 / b
  ((List.range (codes.length / per)).zip (chunks codes.length per codes)).map (fun (k, cs) =>
    if cs.all Option.isNone then none
    else some (BitVec.ofNat 8 ((List.range per).foldl (fun acc j =>
      acc + (cs.getD j none).getD (nfld (byteAt old k) (j * b) b) * 2 ^ (j * b)) 0)))

/-- Raise one column's statistic by the products of the column (R315); a NaN leaves the value free. -/
def State.statCol (s : State) (old : Option Nat) (prods : List XV) : Option Nat × State :=
  match old with
  | none => (none, s)
  | some o =>
    if (f32.dec o).isNan || prods.any XV.isNan then
      let (n, s1) := s.draw
      (some (n % 2 ^ 32), s1)
    else (some (r32 (prods.foldl (fun m x => XV.max m x.abs) (f32.dec o))), s)

/-- Raise the statistics of 64 columns. -/
def State.statCols (s : State) : List (Option Nat × List XV) → List (Option Nat) × State
  | [] => ([], s)
  | (o, ps) :: l =>
    let (x, s1) := s.statCol o ps
    let (xs, s2) := s1.statCols l
    (x :: xs, s2)

/-- The column statistics of a block (R315). -/
def State.blockStats (s : State) (d : Nat) (c : UpdS) (b : BlockIn) (outs : List (Option ElemOut)) : State :=
  let x := c.q.desc
  if !updStats x then s else
  let a := parmA c.parm 0x48 + 256 * ((x.le 50 4 + c.next) % x.le 48 2)
  let (sb, s1) := s.readSpan (updReq d) a 256
  let prods (cc : Nat) : List XV := (List.range 64).filterMap (fun rr =>
    match outs.getD (rr * 64 + cc) none with
    | some o => some (q32 (XV.mul (f32.dec o.w) (b.fold.getD rr .nan)))
    | none => none)
  let (xs, s2) := s1.statCols (((f32s sb).zip (List.range 64)).map (fun (o, cc) => (o, prods cc)))
  s2.updWrite d a (f32Bytes xs)

/-- An element was written in a column of an unusable divisor (R311). -/
def scaleBadIn (b : BlockIn) (outs : List (Option ElemOut)) : Bool :=
  (List.range 4096).any (fun e => (outs.getD e none).isSome && !divisorOk (b.div.getD (e % 64) .nan))

/-- The narrow image of a block (R308 to R312). -/
def State.blockNarrow (s : State) (d : Nat) (c : UpdS) (b : BlockIn) (outs : List (Option ElemOut))
    (ds : List (List Nat)) (k : Nat) : State :=
  let x := c.q.desc
  if !updNarrow x then s else
  let fmt := nfld (x.b 39) 0 4
  let w := qBits fmt
  let a := parmA c.parm 0x50 + 512 * c.next * w
  let codes := (List.range 4096).map (fun e => (outs.getD e none).map (fun o =>
    narrowCode fmt (nbit (x.b 39) 4) x.roundMode (drawAt ds k (e / 64) (e % 64) 0) (f32.dec o.w)
      (b.fold.getD (e / 64) .nan) (b.div.getD (e % 64) .nan)))
  let s1 := s.updWrite d a (narrowBytes w (codes.map (fun x => x.map (·.1))) (s.bytes a (512 * w)))
  let s2 := s1.dbrk d 3 ((codes.filter (fun x => (x.map (·.2)).getD false)).length)
  if scaleBadIn b outs && !c.scaleBad then s2.raise ⟨0x11, 0, 3⟩ (.die d) (updInfo c.q) else s2

/-- The backward copy of a block (R313, R314, R277). -/
def State.blockBwd (s : State) (d : Nat) (c : UpdS) (b : BlockIn) (outs : List (Option ElemOut))
    (ds : List (List Nat)) (k : Nat) : State :=
  let x := c.q.desc
  if !updBwd x then s else
  let fmt := nfld (x.b 40) 0 4
  let z := fmtSize fmt
  let rs := (List.range 4096).map (fun e => (outs.getD e none).map (fun o =>
    bwdCopy fmt x.roundMode (drawAt ds k (e / 64) (e % 64) (k - 1)) (nbit (x.b 38) 7) (nbit (x.b 38) 6) (f32.dec o.w)
      (sgn 8 (byteAt c.parm 0x1D)) (if updFold x then b.fold.getD (e / 64) .nan else XV.ofInt 1)))
  let s1 := s.updWrite d (parmA c.parm 0x58 + 4096 * c.next * z)
    (rs.flatMap (fun r => match r with | some r => (leBytes z r.bits).map some | none => List.replicate z none))
  let s2 := s1.dbrk d 4 ((rs.filter (fun r => (r.map (·.sat)).getD false)).length)
  let rows := ((chunks 64 64 rs).filter (fun l => l.any (fun r => (r.map (·.flushed)).getD false))).length
  if rows = 0 then s2 else (s2.dbrk d 5 rows).p (Reg.updStatus d) Reg.updStatus_flush_sticky 1

/-- Note in the begun descriptor what a unit has done. -/
def State.updNote (s : State) (d : Nat) (f : UpdS → UpdS) : State :=
  match (s.die d).u.cur with
  | some c => s.setUpdCur d (some (f c))
  | none => s

/-- EV_UPD_NONFINITE, once per descriptor, and its counter (R306). -/
def State.updNonfinite (s : State) (d : Nat) (c : UpdS) (n : Nat) : State :=
  if n = 0 then s else
  let s1 := s.dbrk d 2 n
  if c.nonf then s1 else s1.raise ⟨0x11, 0, 2⟩ (.die d) (updInfo c.q)

/-- Write block `next` of a block-mode descriptor. -/
def State.updBlock (s : State) (d : Nat) (c : UpdS) (lrExp : Int) : State :=
  let x := c.q.desc
  let k := (updNarrow x).toNat + (updBwd x).toNat
  let st := parmA c.parm 0x28
  let init := nbit (byteAt c.hdr 3) 0
  let (b, s1) := s.blockRead d c
  let (ds, left, s2) := if x.roundMode = 2 then s1.updDraws d k c.left 8 else ([], c.left, s1)
  let outs := (List.range 4096).map (blockElem (optP c.parm lrExp) (updOpt x) init (f32.dec c.kappa)
    (sgn 8 (byteAt c.parm 0x1C)) (lrExp - sgn 8 (byteAt c.hdr 2)) b)
  let col (f : ElemOut → Nat) : List (Option Byte) := f32Bytes (outs.map (fun o => o.map f))
  let s3 := s2.updWrite d (x.le 28 6 + 0x4000 * c.next) (col (·.w))
  let s4 := s3.updWrite d (st + 0x4000 * c.next) (col (·.m))
  let s5 := if updOpt x = 1 then s4.updWrite d (st + 0x4000 * (updN x + c.next)) (col (·.v)) else s4
  let s6 := ((s5.blockNarrow d c b outs ds k).blockBwd d c b outs ds k).blockStats d c b outs
  let lost := (outs.filter (fun o => match o with | some o => o.kept | none => true)).length
  let s7 := ((s6.updNonfinite d c lost).dbrk d 1 (b.count == 0).toNat).dcnt d 0 64
  let s8 := s7.dcnt d 1 (if b.count = 0 then 0 else 4096)
  let bad := updNarrow x && scaleBadIn b outs
  s8.updNote d (fun c => { c with
    next := c.next + 1, nonf := c.nonf || lost != 0, scaleBad := c.scaleBad || bad
    counted := c.counted || b.count != 0, left := left
    gmax := if b.count = 0 then c.gmax else maxEnc c.gmax (outs.filterMap (fun o => o.map (·.t))) })

/-! ## Rows -/

/-- Write the lines of a row: one line of 16 weights each, none where a read it needs failed. -/
def State.rowLines (s : State) (d base addr : Nat) : List (List Byte × Option (List Byte)) → State
  | [] => s
  | (_, none) :: l => s.rowLines d base (addr + 64) l
  | (old, some new) :: l => (s.shardLine d base addr old new).rowLines d base (addr + 64) l

/-- Update local row `row` from its ledger entry (R589, R305, R306, R593). -/
def State.updRowWrite (s : State) (d : Nat) (c : UpdS) (lrExp : Int) (row count : Nat) : State :=
  let x := c.q.desc
  let D := rowLen c.parm
  let base := x.le 28 6
  let addr := base + 64 + row * rowStride D
  let p := optP c.parm lrExp
  let (gb, s1) := s.readSpan (updReq d) (x.le 22 6 + c.next * rowStride D + 64) (4 * D)
  let (wb, s2) := s1.readSpan (updReq d) addr (4 * D)
  let (tb, s3) := s2.readSpan (updReq d) (addr + 4 * D) 64
  let kappa := f32.dec c.kappa
  let pairs := (f32s gb).map (fun g => match g with
    | some g => gradPair (f32.dec g) count kappa (sgn 8 (byteAt c.parm 0x1C)) lrExp
    | none => (XV.nan, XV.nan))
  let init := nbit (byteAt c.hdr 3) 0
  match whole tb with
  | none => (s3.updNonfinite d c D).updNote d (fun c => { c with nonf := true })
  | some trailer =>
    let a0 := if init then f32.dec (leAt trailer 0 4) else XV.zero
    let a1 := adagradA a0 (pairs.map (·.2)) D
    let ws := ((f32s wb).zip ((f32s gb).zip pairs)).map (fun (w, g, pr) => match w, g with
      | some w, some _ =>
        let w1 := adagradW p a1 (f32.dec w) pr.2
        if a1.isFinite && w1.isFinite then some (r32 w1, false) else some (w, true)
      | _, _ => none)
    let a := if a1.isFinite then r32 a1 else r32 a0
    let lines := (chunks (D / 16) 64 (wb.map (fun b => b.getD 0))).zip
      ((chunks (D / 16) 16 ws).map (fun l => if l.any Option.isNone then none
        else some (l.flatMap (fun x => leBytes 4 ((x.map (·.1)).getD 0)))))
    let s4 := s3.rowLines d base addr (lines ++ [(trailer, some (leBytes 4 a ++ List.replicate 60 0))])
    let lost := (ws.filter (fun x => match x with | some (_, k) => k | none => true)).length
    ((s4.updNonfinite d c lost).dcnt d 1 D).updNote d (fun c => { c with
      nonf := c.nonf || lost != 0
      counted := true, gmax := maxEnc c.gmax (pairs.map (·.1)) })

/-- Process ledger entry `next` of a row-mode descriptor (R587 to R591, R307). -/
def State.updEntry (s : State) (d : Nat) (c : UpdS) (lrExp : Int) : State :=
  let x := c.q.desc
  let D := rowLen c.parm
  let (h, s1) := s.ledgerHdr d x c.next (rowStride D)
  let s2 := if !h.valid then s1.dcnt d 0 1 else s1.dcnt d 0 (2 * ((D + 63) / 64) + 1)
  let s3 :=
    if !h.valid then s2
    else if h.layer ≠ updLayer x then (s2.raise ⟨0x11, 0, 1⟩ (.die d) (updInfo c.q)).dbrk d 1 1
    else if h.count = 0 then s2.dbrk d 1 1
    else if updRows s2 d x ≤ h.row then s2.dbrk d 16 1
    else s2.updRowWrite d c lrExp h.row h.count
  s3.updNote d (fun c => { c with next := c.next + 1 })

/-! ## Mirrors -/

/-- The mirror slot of a descriptor on the partner (R319). -/
def mirrorBase (m : MirrorS) : Nat :=
  parmA m.parm 0x60 + updStep m.q.desc % 2 * (64 + 0x4000 * ((1 + updK m.q.desc) * updN m.q.desc))

/-- Note a lost line of a mirror: the remote add is withheld, and the first refused write is recorded (R1091). -/
def State.mirrorLost (s : State) (d n addr cause : Nat) : State :=
  match (s.die d).u.mirrors.find? (fun m => m.num == n) with
  | none => s
  | some m =>
    let s1 := if m.logged then s else s.updRecord d m.q addr cause
    let u := (s1.die d).u
    s1.setUpd d { u with
      mirrors := u.mirrors.map (fun m => if m.num = n then { m with bad := true, logged := true } else m)
      cur := u.cur.map (fun c => if c.num = n then { c with logged := true } else c) }

/-- Send `n` bytes of local memory to a mirror area; bytes that cannot be read are lost lines
(DEDUCED, log entry 29). -/
def State.mirrorCopy (s : State) (d : Nat) (m : MirrorS) (src dst n : Nat) : State :=
  let (bs, s1) := s.readSpan (updReq d) src n
  let s2 := (runs 0 bs).foldl (fun s (i, l) => s.sendWrites d (fun _ => .mirror m.num) (leAt m.parm 0x66 2) 64
    (dst + i) (chunks (l.length / 4096 + 1) 4096 l)) s1
  if bs.any Option.isNone then s2.mirrorLost d m.num dst 2 else s2

/-- Send master blocks `i` onward. -/
def State.mirrorBlocks (s : State) (d : Nat) (m : MirrorS) (src dst i : Nat) : Nat → State
  | 0 => s
  | n + 1 => (s.mirrorCopy d m (src + 0x4000 * i) (dst + 0x4000 * i) 0x4000).mirrorBlocks d m src dst (i + 1) n

/-- Send what a begun mirror stream may send: master blocks written, then, once the header is written, the state arrays
and the header last (R319, R320). -/
def State.mirrorPump (s : State) (d n : Nat) : State :=
  match (s.die d).u.mirrors.find? (fun m => m.num == n) with
  | none => s
  | some m =>
    if !m.started || m.last then s else
    let x := m.q.desc
    let base := mirrorBase m
    let s1 := s.mirrorBlocks d m (x.le 28 6) (base + 64) m.sent (m.written - m.sent)
    let s2 := if m.hdrDone then
        (s1.mirrorBlocks d m (parmA m.parm 0x28) (base + 64 + 0x4000 * updN x) 0 (updK x * updN x)).mirrorCopy d m
          (parmA m.parm 0x20) base 64
      else s1
    let u := (s2.die d).u
    (s2.setUpd d { u with mirrors := u.mirrors.map (fun y =>
      if y.num = n then { y with sent := y.written, last := m.hdrDone } else y) }).mirrorSettle d

/-- Note progress of the begun descriptor in its mirror, and send on. -/
def State.mirrorNote (s : State) (d n : Nat) (f : MirrorS → MirrorS) : State :=
  let u := (s.die d).u
  (s.setUpd d { u with mirrors := u.mirrors.map (fun m => if m.num = n then f m else m) }).mirrorPump d n

/-- UPD_BLOCK_WRITTEN (R287 to R315, R332, R587 to R593): the next block or ledger entry is updated and written. -/
def execUpdBlockWritten (d : Die) (s : State) : Host.Outcome State Fault Refusal :=
  match (s.die d).u.cur with
  | none => .next s
  | some c =>
    match c.lrExp with
    | none => .next s
    | some e =>
      if !c.lanes || decide (updN c.q.desc ≤ c.next) || !s.arrClk d then .next s
      else if updRow c.q.desc then .next (s.updEntry d c e)
      else .next ((s.updBlock d c e).mirrorNote d c.num (fun m => { m with written := m.written + 1 }))

/-- The shard header after an update (R316); `gmax` is the largest |t|. -/
def newHdr (c : UpdS) (e : Int) (gmax : XV) : List Byte :=
  let x := c.q.desc
  let hist := if c.counted then 1 else (nbit (byteAt c.hdr 3) 1).toNat
  let lg := if c.counted then encS 16 (lgOf gmax) else leAt c.hdr 4 2
  leBytes 2 (updLayer x) ++ leBytes 1 (encS 8 e) ++ leBytes 1 (1 + 2 * hist) ++ leBytes 2 lg ++ leBytes 2 0 ++
    leBytes 6 (updStep x) ++ leBytes 50 0

/-- UPD_HEADER_WRITE (R316, R332, R594): every unit is written; the shard header follows. -/
def execUpdHeaderWrite (d : Die) (s : State) : Host.Outcome State Fault Refusal :=
  match (s.die d).u.cur with
  | none => .next s
  | some c =>
    match c.lrExp with
    | none => .next s
    | some e =>
      if !c.lanes || decide (c.next < updN c.q.desc) || !s.arrClk d then .next s else
      let x := c.q.desc
      let (gmax, s0) := s.largest c.gmax
      let s1 := if updRow x then s0.shardLine d (x.le 28 6) (parmA c.parm 0x20) c.hdr (newHdr c e gmax)
        else s0.updWrite d (parmA c.parm 0x20) ((newHdr c e gmax).map some)
      let refused := match (s1.die d).u.cur with | some c => c.refused | none => false
      let y := s1.die d
      let s2 := s1.setDie d { y with
        u := { y.u with cur := none, fin := y.u.fin ++ [(c.q, refused)] }
        guards := if updMirror x then y.guards else y.guards.filter (·.1 != c.num) }
      .next (s2.mirrorNote d c.num (fun m => { m with hdrDone := true }))

/-- UPD_COMPLETE (R317, R1091): the header write is acknowledged and the completion tally is added, unless a local write
was refused. -/
def execUpdComplete (d : Die) (s : State) : Host.Outcome State Fault Refusal :=
  match (s.die d).u.fin with
  | [] => .next s
  | (q, withheld) :: rest =>
    let s1 := s.setUpd d { (s.die d).u with fin := rest }
    .next (if withheld then s1 else s1.doneAdd d 64 q.desc)

/-- MIRROR_START (R320): block 0 is written, and the oldest mirror not begun starts its stream. -/
def execMirrorStart (d : Die) (s : State) : Host.Outcome State Fault Refusal :=
  match (s.die d).u.mirrors.find? (fun m => !m.started) with
  | none => .next s
  | some m => if m.written = 0 then .next s else .next (s.mirrorNote d m.num (fun m => { m with started := true }))

/-- MIRROR_REMOTE_ADD (R321): the partner has acknowledged every line of the oldest finished mirror, none refused. -/
def execMirrorRemoteAdd (d : Die) (s : State) : Host.Outcome State Fault Refusal :=
  match (s.die d).u.mirrors.find? (fun m => m.ended && !m.bad) with
  | none => .next s
  | some m =>
    let u := (s.die d).u
    .next ((s.setUpd d { u with mirrors := u.mirrors.filter (·.num != m.num) }).addTally d 64
      (2 ^ 31 + nfld (leAt m.parm 0x68 4) 0 31) 1)

/-- DCP_SUBMIT (R514, R1093): the descriptor joins the queue of its die channel. -/
def execDcpSubmit (r : Requester) (d : Die) (v : Word) (s : State) : Host.Outcome State Fault Refusal :=
  .next (s.submit r d 67 (Reg.dcpSubmit d) v.toNat)

end Sys2Proof.Machine
end

