-- ==== Sys2Proof/Machine/Prt.lean ====
section
/-! DEFINITION. The porter: gather, scatter, parity push, ship (R554 to R608). -/

namespace Sys2Proof.Machine

/-! ## Descriptor and table fields (R601, R609) -/

def prtIdx (x : Desc) : Nat := x.le 16 6
def prtOut (x : Desc) : Nat := x.le 22 6
def prtIn (x : Desc) : Nat := x.le 28 6
def prtN (x : Desc) : Nat := x.le 34 4
def prtOutStride (x : Desc) : Nat := x.le 38 2 * 64
def prtInStride (x : Desc) : Nat := x.le 40 2 * 64
def prtOff (x : Desc) : Nat := nfld (x.le 42 2) 0 13
def prtTable (x : Desc) : Nat := nfld (x.b 44) 0 6
def prtKind (x : Desc) : Nat := nfld (x.b 44) 6 2
def prtOutFmt (x : Desc) : Nat := nfld (x.b 45) 0 4
def prtMean (x : Desc) : Bool := nfld (x.b 45) 4 2 == 1
def prtWeight (x : Desc) : Bool := nbit (x.b 45) 6
def prtRemote (x : Desc) : Bool := nbit (x.b 45) 7
def prtInc (x : Desc) : Nat := x.b 48
def prtInFmt (x : Desc) : Nat := nfld (x.b 49) 0 4
def prtRa (x : Desc) : Nat := nfld (x.le 50 2) 0 13

/-- One table entry (R554). -/
structure TableE where
  valid : Bool
  base : Nat
  parEn : Bool
  row0 : Nat
  nrows : Nat
  D : Nat
  layer : Nat
  ledger : Nat
  c : Nat
  parBase : Nat
  parStation : Nat
  deriving DecidableEq, Repr

/-- Table entry `t` of a die. -/
def tableE (s : State) (d t : Nat) : TableE :=
  { valid := s.on (Reg.prtTable0 d t) Reg.prtTable0_valid, base := s.g (Reg.prtTable0 d t) Reg.prtTable0_base
    parEn := s.on (Reg.prtTable0 d t) Reg.prtTable0_par_en, row0 := s.g (Reg.prtTable1 d t) Reg.prtTable1_row0
    nrows := s.g (Reg.prtTable2 d t) Reg.prtTable2_nrows, D := (s.g (Reg.prtTable2 d t) Reg.prtTable2_d_m + 1) * 16
    layer := s.g (Reg.prtTable2 d t) Reg.prtTable2_layer_id
    ledger := s.g (Reg.prtTable3 d t) Reg.prtTable3_ledger_base
    c := s.g (Reg.prtTable3 d t) Reg.prtTable3_ledger_log2
    parBase := s.g (Reg.prtTable4 d t) Reg.prtTable4_par_base
    parStation := s.g (Reg.prtTable4 d t) Reg.prtTable4_par_station }

/-- Whether a porter descriptor is invalid (R602). -/
def prtBad (x : Desc) (t : TableE) : Bool :=
  let k := prtKind x
  let plain (f : Nat) : Bool := 9 ≤ f && f ≤ 11
  let off (a : Nat) : Bool := a % 64 != 0
  !t.valid ||
  (k == 0 && !(plain (prtOutFmt x) || prtOutFmt x == 4)) ||
  ((k == 1 || k == 3) && !plain (prtInFmt x)) ||
  decide (2 ≤ nfld (x.b 45) 4 2) || (k == 1 && prtInc x == 0) || x.roundMode == 3 ||
  (k == 0 && prtOutFmt x == 4 && (t.D % 64 != 0 || prtOff x % 64 != 0 || decide (512 < prtOff x + t.D))) ||
  (k == 0 && plain (prtOutFmt x) && decide (prtOutStride x < (prtOff x + t.D) * fmtSize (prtOutFmt x))) ||
  (k != 2 && off (prtIdx x)) || ((k == 0 || k == 3) && off (prtOut x)) || (k == 1 && off (prtIn x)) ||
  (k == 2 && (!t.parEn || decide (t.nrows < prtIdx x % 2 ^ 40 + prtN x))) ||
  decide (4096 < prtRa x) ||
  decide (2 ^ 13 ≤ x.le 42 2) || decide (16 ≤ x.b 49) || decide (2 ^ 13 ≤ x.le 50 2) || x.le 54 2 != 0

/-- The porter as a requester (owner kind 3, id 1). -/
def prtReq (d : Nat) : Requester := .porter (Fin.ofNat 2 d)

/-- Replace the porter's begun descriptor. -/
def State.setPrt (s : State) (d : Nat) (p : Option PrtS) : State := s.setDie d { s.die d with prt := p }

/-- What a log record of a porter descriptor says of it. -/
def prtInfo (s : State) (d : Nat) (q : QDesc) : Info :=
  { issue := q.issue, mark := q.desc.mark, layer := (tableE s d (prtTable q.desc)).layer, mb := q.desc.le 52 2 }

/-- Packets of the porter that no ACK has answered. -/
def prtBusy (s : State) (d : Nat) : Bool := ownerBusy s d (fun o => match o with | .porter _ => true | _ => false)

/-! ## Submission -/

/-- PRT_SUBMIT (R601, R1093). -/
def execPrtSubmit (r : Requester) (d : Die) (v : Word) (s : State) : Host.Outcome State Fault Refusal :=
  .next (s.submit r d 65 (Reg.prtSubmit d) v.toNat)

/-- PRT_QUEUE_CLEAR (R609): a write of 1 to PRT_CTL.queue_clear. -/
def execPrtQueueClear (r : Requester) (d : Die) (s : State) : Host.Outcome State Fault Refusal :=
  .next (s.regWr r (Reg.prtCtl d) (fun s => s.engFlush d 65))

/-! ## Failing accesses (R604) -/

/-- Halt the porter on a failing access. -/
def State.prtHalt (s : State) (d : Nat) (p : PrtS) (f : EngFail) : State :=
  let w := BitVec.ofNat 64 (f.addr % 2 ^ 48 + (if f.write then 2 ^ 48 else 0) + 2 ^ 49 * (f.cause % 16))
  ((s.wr (Reg.prtErr d) w).setPrt d (some { p with halted := true })).raise ⟨0x17, 0, 4⟩ (.die d)
    { prtInfo s d p.q with exc := true, detail := [w] }

/-- A failing access waits for its next attempt, or halts the porter after the last one. -/
def State.prtFail (s : State) (d : Nat) (p : PrtS) (f : EngFail) : State :=
  if p.abort then s.setPrt d (some p)
  else if s.g (Reg.prtCfg d) Reg.prtCfg_retry_max < f.attempts && !p.halted then
    s.prtHalt d { p with fails := f :: p.fails } f
  else s.setPrt d (some { p with fails := p.fails ++ [f] })

/-- The cause of a refused read of the porter. -/
def readCause (s : State) (r : Requester) (a : Nat) : Nat := ((fullCheck s r false (a - a % 64) 64).map AccErr.cause).getD 2

/-- A refused read of the porter. -/
def readFail (s : State) (r : Requester) (a : Nat) : EngFail := ⟨false, a, readCause s r a, 1, none⟩

/-! ## Index lists (R559 to R564) -/

/-- One index entry. -/
structure IdxE where
  row : Nat
  bagEnd : Bool
  pad : Bool
  rsv : Bool
  weight : Nat
  deriving DecidableEq, Repr

/-- The fields of an index entry. -/
def idxE (b : List Byte) : IdxE :=
  ⟨leAt b 0 5, nbit (byteAt b 5) 0, nbit (byteAt b 5) 1, decide (4 ≤ byteAt b 5), leAt b 6 2⟩

/-- The entry names a row of the shard (R558, R564). -/
def IdxE.inShard (e : IdxE) (t : TableE) : Bool :=
  !e.rsv && !e.pad && decide (t.row0 ≤ e.row ∧ e.row < t.row0 + t.nrows)

/-- The entry is ignored and counted (R563, R564). -/
def IdxE.ignored (e : IdxE) (t : TableE) : Bool := e.rsv || (!e.pad && !e.inShard t)

/-- Read index entry `i`. -/
def State.readIdx (s : State) (d : Nat) (x : Desc) (i : Nat) : Option IdxE × State :=
  let (bs, s1) := s.readSpan (prtReq d) (prtIdx x + i * 8) 8
  ((whole bs).map idxE, s1)

/-- The address of local row `l` of a table (R557). -/
def rowAddr (t : TableE) (l : Nat) : Nat := t.base + 64 + l * rowStride t.D

/-! ## Writing -/

/-- Bytes cut where 64-byte lines end. -/
def linePieces (a : Nat) (bs : List Byte) : Nat → List (Nat × List Byte)
  | 0 => []
  | n + 1 => if bs = [] then [] else
    let k := 64 - a % 64
    (a, bs.take k) :: linePieces (a + k) (bs.drop k) n

/-- The pieces of bytes at an address. -/
def pieces (a : Nat) (bs : List Byte) : List (Nat × List Byte) := linePieces a bs (bs.length / 64 + 2)

/-- Write line pieces: the ones left and the failing access, when one fails. -/
def State.prtWrite (s : State) (r : Requester) : List (Nat × List Byte) → Option (EngFail × List (Nat × List Byte)) × State
  | [] => (none, s)
  | (a, bs) :: l =>
    match s.writeLine r (a - a % 64) (a % 64) bs with
    | (none, s1) => s1.prtWrite r l
    | (some e, s1) => (some (⟨true, a, e.cause, 1, none⟩, (a, bs) :: l), s1)

/-- Send bytes in packets of a type of up to 4 096 bytes. -/
def State.prtSend (s : State) (d typ dst a : Nat) : List (List Byte) → State
  | [] => s
  | b :: bs => (s.sendPkt d (.porter 1) (mkPkt s d typ dst 65 a 0 b)).prtSend d typ dst (a + b.length) bs

/-- Free draws of an engine without shakers of its own: 16-bit numbers that the specification does not fix
(DESIGN CHOICE, log entry 32). -/
def State.freeDraws (s : State) : Nat → List Nat × State
  | 0 => ([], s)
  | n + 1 =>
    let (x, s1) := s.draw
    let (l, s2) := s1.freeDraws n
    (x % 65536 :: l, s2)

/-! ## Gather -/

/-- The output writes of a bag of sums (R567 to R570): address and bytes. -/
def bagOut (x : Desc) (b : Nat) (vals : List XV) (draws : List Nat) : List (Nat × List Byte) :=
  let base := prtOut x + b * prtOutStride x
  let dr := vals.zip (draws ++ List.replicate vals.length 0)
  if prtOutFmt x = 4 then
    let bad := vals.any (fun v => !v.isFinite)
    let qs := (chunks 8 64 dr).map (fun l =>
      if bad then quireInvalid 4 true
      else
        let o := quantQuire 4 true false 0 0 x.roundMode XV.zero (l.map (fun p => ⟨p.1, false, p.2⟩))
        (o.hdr, o.pay))
    let q0 := prtOff x / 64
    ((List.range qs.length).zip qs).flatMap (fun (i, q) => [(base + 8 * (q0 + i), q.1), (base + 64 * (1 + q0 + i), q.2)])
  else
    let z := fmtSize (prtOutFmt x)
    [(base + prtOff x * z, dr.flatMap (fun p =>
      leBytes z ((ffmt (prtOutFmt x)).round x.roundMode p.2 false false p.1).bits))]

/-- Run-ahead fetches of a gather that pools entry `i` (R571, R572): the rows of the entries up to ra_rows ahead. -/
def State.prtAhead (s : State) (d : Nat) (x : Desc) (t : TableE) (i page : Nat) : State :=
  let ra := prtRa x
  let js := (if i = 0 then (List.range ra).map (· + 1) else if ra = 0 then [] else [i + ra]).filter (· < prtN x)
  let lines (s : State) (j : Nat) : List Nat :=
    let a := prtIdx x + j * 8
    if (fullCheck s (prtReq d) false (a - a % 64) 64).isSome then [] else
    let e := idxE (s.bytes a 8)
    if !e.inShard t then [] else
    let r := rowAddr t (e.row - t.row0)
    (List.range ((r % 512 + 4 * t.D + 511) / 512)).map (fun k => if k = 0 then r else 512 * (r / 512 + k))
  js.foldl (fun s j => s.runAhead page (lines s j)) s

/-- Note a failed row read (R603). -/
def State.prtRowLost (s : State) (d : Nat) (p : PrtS) (a : Nat) : PrtS × State :=
  let s1 := s.dbrk d 17 1
  ({ p with accNoted := true }, if p.accNoted then s1 else
    s1.record ⟨0x17, 3, 0⟩ (.die d) { prtInfo s d p.q with detail := [BitVec.ofNat 64 a] })

/-- Pool one entry into the bag (R562 to R565). -/
def State.poolEntry (s : State) (d : Nat) (p : PrtS) (t : TableE) (e : IdxE) : PrtS × State :=
  let x := p.q.desc
  if !e.inShard t then (p, if e.ignored t then s.dbrk d 16 1 else s)
  else
    let a := rowAddr t (e.row - t.row0)
    let (bs, s1) := s.readSpan (prtReq d) a (4 * t.D)
    match whole bs with
    | none => s1.prtRowLost d p a
    | some b =>
      let w := if prtWeight x then bf16.dec e.weight else XV.ofInt 1
      let acc := (List.range t.D).map (fun k => r32 (XV.add (f32.dec (p.acc.getD k 0)) (XV.mul w (f32.dec (leAt b (4 * k) 4)))))
      ({ p with acc := acc, n := p.n + 1 }, (s1.dcnt d 17 (4 * t.D)).prtAhead d x t p.next (a / 0x200000))

/-- Read the entries of the bag from `next` until it ends: none when an entry read fails, else the porter and whether
the list ended the bag. -/
def State.poolBag (s : State) (d : Nat) (p : PrtS) (t : TableE) : Nat → Option Bool × PrtS × State
  | 0 => (some true, p, s)
  | fuel + 1 =>
    if prtN p.q.desc ≤ p.next then (some true, p, s) else
    match s.readIdx d p.q.desc p.next with
    | (none, s1) => (none, p, s1)
    | (some e, s1) =>
      let (p1, s2) := s1.poolEntry d p t e
      let p2 := { p1 with next := p.next + 1, opened := true }
      let s3 := s2.dcnt d 16 1
      if e.bagEnd then (some false, p2, s3) else s3.poolBag d p2 t fuel

/-- Write what a bag has to write, then leave the bag. -/
def State.bagWrite (s : State) (d : Nat) (p : PrtS) (outs : List (Nat × List Byte)) : State :=
  let fresh : PrtS := { p with bag := p.bag + 1, opened := false, acc := [], n := 0, g := [], outs := [] }
  match s.prtWrite (prtReq d) outs with
  | (none, s1) => s1.setPrt d (some fresh)
  | (some (f, l), s1) => s1.prtFail d { p with outs := l } f

/-- Finish pooling a bag and write it (R561, R565 to R570, R573). -/
def State.prtBag (s : State) (d : Nat) (p : PrtS) : State :=
  let x := p.q.desc
  let t := tableE s d (prtTable x)
  if p.outs ≠ [] then s.bagWrite d p p.outs else
  match s.poolBag d p t (prtN x - p.next) with
  | (none, p1, s1) => s1.prtFail d p1 (readFail s1 (prtReq d) (prtIdx x + p1.next * 8))
  | (some ended, p1, s1) =>
    let s2 := if ended then s1.raise ⟨0x17, 0, 0⟩ (.die d)
        { prtInfo s1 d p.q with exc := true, detail := [BitVec.ofNat 64 p.q.addr] } else s1
    let vals := (List.range t.D).map (fun k =>
      let v := f32.dec (p1.acc.getD k 0)
      if prtMean x && p1.n != 0 then q32 (XV.div v (XV.ofInt p1.n)) else v)
    let s3 := if vals.any (fun v => !v.isFinite) then s2.dbrk d 18 1 else s2
    let (draws, s4) := if x.roundMode = 2 then s3.freeDraws t.D else ([], s3)
    let outs := bagOut x p1.bag vals draws
    if prtRemote x then
      let s5 := outs.foldl (fun s o => s.prtSend d 1 (x.le 46 2) o.1 (chunks (o.2.length / 4096 + 1) 4096 o.2)) s4
      s5.bagWrite d p1 []
    else s4.bagWrite d p1 (outs.flatMap (fun o => pieces o.1 o.2))

/-! ## Scatter and the ledger -/

/-- The address of ledger entry `h` (R575). -/
def ledgerAddr (t : TableE) (h : Nat) : Nat := t.ledger + h * rowStride t.D

/-- The home of a local row (R576). -/
def ledgerHome (t : TableE) (l : Nat) : Nat := 0x9E3779B97F4A7C15 * l % 2 ^ 64 / 2 ^ (64 - t.c)

/-- What probing found: a failing read, an entry that holds the row, an entry not valid, or none. -/
inductive Probe where
  | fails (a : Nat)
  | found (h : Nat) (hdr : List Byte)
  | free (h : Nat) (hdr : List Byte)
  | full
  deriving DecidableEq, Repr

/-- Probe ledger entries from `h` (R576): `best` is the first entry not valid so far. -/
def State.probe (s : State) (d : Nat) (t : TableE) (l h : Nat) (best : Option (Nat × List Byte)) : Nat → Probe × State
  | 0 => ((match best with | some (h, b) => .free h b | none => .full), s)
  | n + 1 =>
    match s.readLine (prtReq d) (ledgerAddr t h) with
    | (none, s1) => (.fails (ledgerAddr t h), s1)
    | (some b, s1) =>
      let next := (h + 1) % 2 ^ t.c
      if nbit (byteAt b 5) 0 then
        if leAt b 0 5 = l then (.found h b, s1) else s1.probe d t l next best n
      else s1.probe d t l next (match best with | some x => some x | none => some (h, b)) n

/-- Count the counting entries of the bag that begins at entry `i`: none where an entry read fails, with its index. -/
def State.bagCount (s : State) (d : Nat) (x : Desc) (t : TableE) (i n : Nat) : Nat → Except Nat Nat × State
  | 0 => (.ok n, s)
  | fuel + 1 =>
    match s.readIdx d x i with
    | (none, s1) => (.error i, s1)
    | (some e, s1) =>
      let n' := n + (e.inShard t).toNat
      if e.bagEnd then (.ok n', s1) else s1.bagCount d x t (i + 1) n' fuel

/-- The F32 encodings of a bag gradient in in_fmt. -/
def gradVals (fmt : Nat) (b : List Byte) : List Nat :=
  let z := fmtSize fmt
  (List.range (b.length / z)).map (fun k => r32 ((ffmt fmt).dec (leAt b (k * z) z)))

/-- Begin a bag of a scatter: read its gradient and, for a mean, count its entries (R578, R582). -/
def State.scatterOpen (s : State) (d : Nat) (p : PrtS) (t : TableE) : Except EngFail PrtS × State :=
  let x := p.q.desc
  let z := fmtSize (prtInFmt x)
  let a := prtIn x + p.bag * prtInStride x + prtOff x * z
  let (bs, s1) := s.readSpan (prtReq d) a (t.D * z)
  match whole bs with
  | none => (.error (readFail s1 (prtReq d) a), s1)
  | some b =>
    let g := gradVals (prtInFmt x) b
    let (n, s2) := if prtMean x then s1.bagCount d x t p.next 0 (prtN x - p.next) else (.ok 1, s1)
    match n with
    | .error i => (.error (readFail s2 (prtReq d) (prtIdx x + i * 8)), s2)
    | .ok n =>
      let bad := g.any (fun v => !(f32.dec v).isFinite)
      let s3 := if bad then s2.dbrk d 18 1 else s2
      let s4 := if bad && !p.invNoted then s3.raise ⟨0x17, 0, 1⟩ (.die d) { prtInfo s3 d p.q with exc := true } else s3
      (.ok { p with opened := true, g := g, n := n, invNoted := p.invNoted || bad }, s4)

/-- The header line of a ledger entry (R575). -/
def ledgerLine (row : Nat) (badSeen countSat : Bool) (count dropped layer : Nat) : List Byte :=
  leBytes 8 (row + 2 ^ 40 + (if badSeen then 2 ^ 41 else 0) + (if countSat then 2 ^ 42 else 0)) ++ leBytes 2 count ++
    leBytes 2 dropped ++ leBytes 2 layer ++ leBytes 50 0

/-- What one contribution writes to a ledger entry with header `hdr` and values `old` (R579 to R582); `fresh` says the
entry was not valid. -/
def contribute (x : Desc) (t : TableE) (l : Nat) (e : IdxE) (g : List Nat) (n : Nat) (fresh : Bool) (hdr : List Byte)
    (old : List Nat) : List Byte × Option (List Byte) × Bool :=
  let bad := nbit (byteAt hdr 5) 1
  let sat := nbit (byteAt hdr 5) 2
  let cnt := leAt hdr 8 2
  let drp := leAt hdr 10 2
  if g.any (fun v => !(f32.dec v).isFinite) then
    (ledgerLine l true sat cnt (satAdd 65535 drp (prtInc x)) (if fresh then t.layer else leAt hdr 12 2), none, false)
  else
    let w := if prtWeight x then bf16.dec e.weight else XV.ofInt 1
    let c (k : Nat) : XV :=
      let v := XV.mul w (f32.dec (g.getD k 0))
      q32 (if prtMean x then XV.div v (XV.ofInt n) else v)
    if fresh then
      (ledgerLine l false false (prtInc x) 0 t.layer, some ((List.range t.D).flatMap (fun k => leBytes 4 (r32 (c k)))), false)
    else
      let past := decide (65535 < cnt + prtInc x)
      (ledgerLine l bad (sat || past) (satAdd 65535 cnt (prtInc x)) drp (leAt hdr 12 2),
       some ((List.range t.D).flatMap (fun k => leBytes 4 (r32 (XV.add (f32.dec (old.getD k 0)) (c k))))), past)

/-- Leave an index entry of a scatter behind, and its bag when it ends. -/
def PrtS.leave (p : PrtS) (e : IdxE) : PrtS :=
  let p' := { p with next := p.next + 1, outs := [] }
  if e.bagEnd then { p' with bag := p.bag + 1, opened := false, g := [], n := 0 } else p'

/-- An index entry of a scatter is processed; the last one ends the last bag (R561). -/
def State.scatterLeave (s : State) (d : Nat) (p : PrtS) (e : IdxE) : State :=
  let s1 := s.dcnt d 16 1
  let s2 := if !e.bagEnd && p.next + 1 == prtN p.q.desc then s1.raise ⟨0x17, 0, 0⟩ (.die d)
      { prtInfo s1 d p.q with exc := true, detail := [BitVec.ofNat 64 p.q.addr] } else s1
  s2.setPrt d (some (p.leave e))

/-- Add one contribution of a counting entry to the ledger. -/
def State.scatterAdd (s : State) (d : Nat) (p : PrtS) (t : TableE) (e : IdxE) : State :=
  let x := p.q.desc
  let l := e.row - t.row0
  let put (s : State) (h : Nat) (fresh : Bool) (hdr : List Byte) (old : List Nat) : State :=
    let (line, vals, past) := contribute x t l e p.g p.n fresh hdr old
    let a := ledgerAddr t h
    let s1 := if past then s.dbrk d 20 1 else s
    match s1.prtWrite (prtReq d) (pieces a line ++ (match vals with | some v => pieces (a + 64) v | none => [])) with
    | (none, s2) => s2.scatterLeave d p e
    | (some (f, rest), s2) => s2.prtFail d { p with outs := rest } f
  match s.probe d t l (ledgerHome t l) none 16 with
  | (.fails a, s1) => s1.prtFail d p (readFail s1 (prtReq d) a)
  | (.full, s1) =>
    let s2 := s1.dbrk d 19 1
    let s3 := if p.fullNoted then s2 else s2.raise ⟨0x17, 0, 2⟩ (.die d) (prtInfo s2 d p.q)
    s3.scatterLeave d { p with fullNoted := true } e
  | (.free h hdr, s1) => put s1 h true hdr []
  | (.found h hdr, s1) =>
    let (bs, s2) := s1.readSpan (prtReq d) (ledgerAddr t h + 64) (4 * t.D)
    match whole bs with
    | none => s2.prtFail d p (readFail s2 (prtReq d) (ledgerAddr t h + 64))
    | some b => put s2 h false hdr ((List.range t.D).map (fun k => leAt b (4 * k) 4))

/-- One index entry of a scatter whose bag is open (R562 to R564, R576 to R582). -/
def State.scatterEntry (s : State) (d : Nat) (p : PrtS) (t : TableE) : State :=
  let x := p.q.desc
  match s.readIdx d x p.next with
  | (none, s1) => s1.prtFail d p (readFail s1 (prtReq d) (prtIdx x + p.next * 8))
  | (some e, s1) =>
    if p.outs ≠ [] then
      (match s1.prtWrite (prtReq d) p.outs with
        | (none, s2) => s2.scatterLeave d p e
        | (some (f, rest), s2) => s2.prtFail d { p with outs := rest } f)
    else if e.inShard t then s1.scatterAdd d p t e
    else (if e.ignored t then s1.dbrk d 16 1 else s1).scatterLeave d p e

/-- The next index entry of a scatter. -/
def State.scatterNext (s : State) (d : Nat) (p : PrtS) : State :=
  let t := tableE s d (prtTable p.q.desc)
  if p.opened then s.scatterEntry d p t
  else match s.scatterOpen d p t with
    | (.error f, s1) => s1.prtFail d p f
    | (.ok p1, s1) => s1.scatterEntry d p1 t

/-! ## Parity push and ship -/

/-- Send the lines of bytes at `a` of a shard as XOR line writes to the reserve (R593, R598, R600). -/
def State.pushLines (s : State) (d : Nat) (t : TableE) (a : Nat) : List (List Byte) → State
  | [] => s
  | b :: bs =>
    ((s.wr (Reg.prtParSent d) (s.rd (Reg.prtParSent d) + 1)).prtSend d 3 t.parStation
      (encS 48 ((t.parBase : Int) + a - t.base)) [b]).pushLines d t (a + 64) bs

/-- Push `n` bytes of a shard; a failed row read is noted (R603). -/
def State.pushSpan (s : State) (d : Nat) (p : PrtS) (t : TableE) (a n : Nat) : PrtS × State :=
  let (bs, s1) := s.readSpan (prtReq d) a n
  match whole bs with
  | none => s1.prtRowLost d p a
  | some b => (p, s1.pushLines d t a (chunks (n / 64) 64 b))

/-- Push rows from `next` on (R600). -/
def State.pushRows (s : State) (d : Nat) (p : PrtS) (t : TableE) : Nat → State
  | 0 => s.setPrt d (some p)
  | fuel + 1 =>
    let x := p.q.desc
    if prtN x ≤ p.next then s.setPrt d (some p) else
    let l := prtIdx x % 2 ^ 40 + p.next
    let (p0, s0) := if l = 0 then s.pushSpan d p t t.base 64 else (p, s)
    let (p1, s1) := s0.pushSpan d p0 t (rowAddr t l) (rowStride t.D)
    (s1.dcnt d 17 (rowStride t.D)).pushRows d { p1 with next := p.next + 1 } t fuel

/-- Ship rows from `next` on (R574). -/
def State.shipRows (s : State) (d : Nat) (p : PrtS) (t : TableE) : Nat → State
  | 0 => s.setPrt d (some p)
  | fuel + 1 =>
    let x := p.q.desc
    if prtN x ≤ p.next then s.setPrt d (some p) else
    let go (s : State) (outs : List (Nat × List Byte)) : State :=
      match s.prtWrite (prtReq d) outs with
      | (none, s1) => s1.shipRows d { p with next := p.next + 1, outs := [] } t fuel
      | (some (f, l), s1) => s1.prtFail d { p with outs := l } f
    if p.outs ≠ [] then go s p.outs else
    let n := t.D * fmtSize (prtInFmt x)
    let a := prtIdx x + p.next * prtInStride x
    let o := prtOut x + p.next * prtOutStride x
    let (bs, s1) := s.readSpan (prtReq d) a n
    match whole bs with
    | none => s1.prtFail d p (readFail s1 (prtReq d) a)
    | some b =>
      let s2 := s1.dcnt d 17 n
      if prtRemote x then go (s2.prtSend d 1 (x.le 46 2) o (chunks (n / 4096 + 1) 4096 b)) [] else go s2 (pieces o b)

/-! ## Commands -/

/-- Go on with the begun descriptor from where it stands. -/
def State.prtGo (s : State) (d : Nat) (p : PrtS) : State :=
  let t := tableE s d (prtTable p.q.desc)
  match prtKind p.q.desc with
  | 0 => s.prtBag d p
  | 1 => s.scatterNext d p
  | 2 => s.pushRows d p t (prtN p.q.desc + 1)
  | _ => s.shipRows d p t (prtN p.q.desc + 1)

/-- The ledger range of a begun scatter. -/
def ledgerRange (s : State) (d : Nat) (x : Desc) : Nat × Nat :=
  let t := tableE s d (prtTable x)
  (t.ledger, t.ledger + 2 ^ t.c * rowStride t.D)

/-- The other die's porter has a scatter in flight on an overlapping ledger (R584). -/
def ledgerHeld (s : State) (d : Nat) (x : Desc) : Bool :=
  match (s.die (1 - d)).prt with
  | some p =>
    let (lo, hi) := ledgerRange s d x
    let (lo', hi') := ledgerRange s (1 - d) p.q.desc
    prtKind p.q.desc == 1 && decide (lo < hi' ∧ lo' < hi)
  | none => false

/-- The head of the porter's queue begins when its wait is met and its kind is `kind` (R601, R602, R584); `go` says
whether its rows follow at once. -/
def State.prtBegin (s : State) (d kind : Nat) (go : Bool) : State :=
  match (s.die d).prtQ with
  | [] => s
  | q :: _ =>
    let x := q.desc
    if (s.die d).prt.isSome || !s.fabClk d || !engReady s d 65 q || prtKind x != kind then s
    else if prtBad x (tableE s d (prtTable x)) then
      (s.raise ⟨0x17, 0, 6⟩ (.die d) { prtInfo s d q with exc := true, detail := [BitVec.ofNat 64 q.addr] }).engPop d 65
    else if kind = 1 && ledgerHeld s d x then s.dcnt d 19 1
    else
      let p : PrtS := { q := q, next := 0, bag := 0, opened := false, acc := [], n := 0, g := [], outs := [], fails := [],
                        halted := false, abort := false, accNoted := false, invNoted := false, fullNoted := false }
      let s1 := (s.engPop d 65).setPrt d (some p)
      if go then s1.prtGo d p else s1

/-- PRT_GATHER (R565, R602). -/
def execPrtGather (d : Die) (s : State) : Host.Outcome State Fault Refusal := .next (s.prtBegin d 0 false)
/-- PRT_SCATTER (R576, R584, R602). -/
def execPrtScatter (d : Die) (s : State) : Host.Outcome State Fault Refusal := .next (s.prtBegin d 1 false)
/-- PRT_PARITY_PUSH (R600, R602). -/
def execPrtParityPush (d : Die) (s : State) : Host.Outcome State Fault Refusal := .next (s.prtBegin d 2 true)
/-- PRT_SHIP (R574, R602). -/
def execPrtShip (d : Die) (s : State) : Host.Outcome State Fault Refusal := .next (s.prtBegin d 3 true)

/-- The begun descriptor, when it may go on and is of kind `kind` with entries left. -/
def prtReady (s : State) (d kind : Nat) : Option PrtS :=
  match (s.die d).prt with
  | some p => if prtKind p.q.desc = kind ∧ p.fails = [] ∧ !p.halted ∧ !p.abort ∧ p.next < prtN p.q.desc ∧ s.fabClk d
      then some p else none
  | none => none

/-- PRT_BAG (R561 to R573): the next bag of a gather. -/
def execPrtBag (d : Die) (s : State) : Host.Outcome State Fault Refusal :=
  match prtReady s d 0 with
  | some p => .next (s.prtBag d p)
  | none => .next s

/-- SCATTER_CONTRIBUTION (R576 to R582): the next index entry of a scatter. -/
def execScatterContribution (d : Die) (s : State) : Host.Outcome State Fault Refusal :=
  match prtReady s d 1 with
  | some p => .next (s.scatterNext d p)
  | none => .next s

/-- Issue a failing access of the porter again; `n` is the number of this attempt. -/
def State.prtRedo (s : State) (d : Nat) (p : PrtS) (f : EngFail) (n : Nat) : State :=
  let p1 := { p with fails := p.fails.tail, halted := false }
  match f.pkt with
  | some k => (s.setPrt d (some p1)).sendPkt d (.porter n) k
  | none =>
    let s1 := s.prtGo d p1
    match (s1.die d).prt with
    | some p2 =>
      match p2.fails.getLast? with
      | some g =>
        if g.pkt.isNone ∧ g.addr = f.addr ∧ g.write = f.write ∧ !p2.halted then
          let g' := { g with attempts := n }
          let p3 := { p2 with fails := p2.fails.dropLast ++ [g'] }
          if s1.g (Reg.prtCfg d) Reg.prtCfg_retry_max < n then s1.prtHalt d p3 g' else s1.setPrt d (some p3)
        else s1
      | none => s1
    | none => s1

/-- PRT_RETRY (R542, R604). -/
def execPrtRetry (d : Die) (s : State) : Host.Outcome State Fault Refusal :=
  match (s.die d).prt with
  | some p =>
    match p.fails with
    | f :: _ => if p.halted || !s.fabClk d then .next s else .next (s.prtRedo d p f (f.attempts + 1))
    | [] => .next s
  | none => .next s

/-- Resume a halted porter (R546, R604). -/
def State.prtResume (s : State) (d : Nat) : State :=
  match (s.die d).prt with
  | some p =>
    match p.halted, p.fails with
    | true, f :: _ => (s.p (Reg.prtErr d) Reg.prtErr_cause 0).prtRedo d p f 1
    | _, _ => s
  | none => s

/-- Every entry is processed and nothing is failing; of no entries at once (DESIGN CHOICE, log entry 32). -/
def prtOver (p : PrtS) : Bool := decide (prtN p.q.desc ≤ p.next) && p.outs == [] && p.fails == [] && !p.halted

/-- Abort the porter's descriptor (R547, R549, R604). -/
def State.prtAbort (s : State) (d : Nat) : State :=
  match (s.die d).prt with
  | some p =>
    if prtOver p && !prtBusy s d then s
    else if prtBusy s d then s.setPrt d (some { p with abort := true, fails := [], halted := false })
    else s.setPrt d none
  | none => s

/-- A remote write of the porter is answered (R604). -/
def State.prtAck (s : State) (d n : Nat) (k : Packet) (status cause : Nat) : State :=
  if status = 0 then s
  else match (s.die d).prt with
    | some p => s.prtFail d p ⟨true, k.addr.toNat, cause, n, some k⟩
    | none => s

/-- PRT_RESUME (R604). -/
def execPrtResume (r : Requester) (d : Die) (s : State) : Host.Outcome State Fault Refusal :=
  .next (s.regWr r (Reg.prtCtl d) (fun s => s.prtResume d))

/-- PRT_ABORT (R604). -/
def execPrtAbort (r : Requester) (d : Die) (s : State) : Host.Outcome State Fault Refusal :=
  .next (s.regWr r (Reg.prtCtl d) (fun s => s.prtAbort d))

/-- PRT_COMPLETE (R605): every write is acknowledged; the completion add follows unless the descriptor was aborted. -/
def execPrtComplete (d : Die) (s : State) : Host.Outcome State Fault Refusal :=
  match (s.die d).prt with
  | some p =>
    if prtBusy s d then .next s
    else if p.abort then .next (s.setPrt d none)
    else if prtOver p then .next ((s.setPrt d none).doneAdd d 65 p.q.desc)
    else .next s
  | none => .next s

end Sys2Proof.Machine
end

