-- ==== Sys2Proof/Machine/Links.lean ====
section
/-! DEFINITION. Haldif ports and the cross: training, identity, frames, replay, credits, packets, combining, the side
channel (R610 to R678, R1097, R1098). -/

namespace Sys2Proof.Machine

/-- Where a port raises its events. -/
def portAt (q : Nat) : EvAt := .sub (portDie q) (portLoc q)

/-- Raise an event of a port. -/
def State.portRaise (s : State) (q bit : Nat) : State := s.raise ⟨0x15, 1, bit⟩ (portAt q) { source := portLoc q }

/-- The die's link clock runs (R950): the die is on and its link PLL is locked. -/
def lnkClk (s : State) (d : Nat) : Bool := s.dieOn d && (s.rd (Reg.clkStatus d)).getLsbD 2

/-! ## Packets -/

/-- Whether R639 discards a packet. -/
def Packet.bad (k : Packet) : Bool :=
  let t := k.typ.toNat
  let n := k.len.toNat
  let x := k.ext.toNat
  let low := decide (2 ≤ k.vc.toNat)
  k.rsv != 0 || decide (84 ≤ k.unit.toNat / 2) || decide (4096 < n) ||
  match t with
  | 0x01 => low || n == 0 || x != 0
  | 0x02 => !low || n != 0 || decide (256 ≤ x)
  | 0x03 => low || n == 0 || n % 64 != 0 || k.addr.toNat % 64 != 0 || x != 0
  | 0x04 => low || n != 0
  | 0x05 => low || n != 8 || x != 0 || decide (2 ≤ leAt k.payload 6 2)
  | 0x10 | 0x11 => low || n == 0 || n % 64 != 0 || x / 8 % 32 != 0
  | 0x12 => low || n != 0 || decide (2 ^ 25 ≤ x)
  | _ => true

/-- Discard a packet under R639. -/
def State.pktBad (s : State) (d : Nat) : State := s.dbrk d 112 1

/-- PACKET_ROUTE (R639, R645 to R652). -/
def execPacketRoute (d : Die) (k : Packet) (s : State) : Host.Outcome State Fault Refusal :=
  if k.bad then .next (s.pktBad d) else .next (s.route d k 2)

/-- The die an address names; die A for module registers and unmapped addresses. -/
def addrDie (a : Nat) : Nat := ((rgnOf a).die).getD 0

/-- Answer a packet with its ACK (R640). -/
def State.ackIt (s : State) (d : Nat) (k : Packet) (e : Option AccErr) : State :=
  s.route d (match e with | none => ackOf s d k 0 0 | some e => ackOf s d k 1 e.cause) 2

/-- A packet of type `t` that reaches its destination: `f` gives its die, `act` performs it and names its refusal. -/
def State.deliver (s : State) (k : Packet) (t d : Nat) (act : State → Option AccErr × State) : State :=
  if k.typ.toNat ≠ t ∨ !isOwn s d k.dst.toNat then s
  else if k.bad then s.pktBad d
  else
    let (e, s1) := act s
    s1.ackIt d k e

/-- WRITE (R640). -/
def execWritePkt (k : Packet) (s : State) : Host.Outcome State Fault Refusal :=
  let d := addrDie k.addr.toNat
  .next (s.deliver k 0x01 d (fun s =>
    match s.writeSpan (.link (Fin.ofNat 2 d)) k.addr.toNat k.payload with
    | (none, s1) => (none, s1)
    | (some (e, _), s1) => (some e, s1)))

/-- Apply XOR line writes line by line, counting the lines applied for the sending member (R595, R598). -/
def State.xorLines (s : State) (d a member : Nat) : List (List Byte) → Option AccErr × State
  | [] => (none, s)
  | b :: bs =>
    match s.xorLine (.link (Fin.ofNat 2 d)) a b with
    | (none, s1) => (s1.wr (Reg.prtParRcvd d member) (s1.rd (Reg.prtParRcvd d member) + 1)).xorLines d (a + 64) member bs
    | (some e, s1) =>
      let (_, s2) := s1.xorLines d (a + 64) member bs
      (some e, s2)

/-- XOR_WRITE (R595, R598, R640). -/
def execXorWrite (k : Packet) (s : State) : Host.Outcome State Fault Refusal :=
  let d := addrDie k.addr.toNat
  .next (s.deliver k 0x03 d (fun s => s.xorLines d k.addr.toNat (k.src.toNat % 8) (chunks 64 64 k.payload)))

/-- TALLY_ADD (R378, R640, R646). -/
def execTallyAdd (k : Packet) (s : State) : Host.Outcome State Fault Refusal :=
  let a := k.addr.toNat
  let d := nfld a 14 1
  .next (s.deliver k 0x04 d (fun s => (none, s.tallyQueue d (nfld a 0 14) (.add (nfld a 0 14) (sgn 32 k.ext.toNat)))))

/-- WGH_PUSH (R225, R228, R640, R646). -/
def execWghPush (k : Packet) (s : State) : Host.Outcome State Fault Refusal :=
  let a := k.addr.toNat
  let d := nfld a 6 1
  .next (s.deliver k 0x05 d (fun s =>
    s.pushTo (.link (Fin.ofNat 2 d)) d (nfld a 0 6) (nfld a 8 6) (leAt k.payload 4 2) (leAt k.payload 0 4)
      (nbit (byteAt k.payload 6) 0)))

/-! ## Side channel -/

/-- The data frames that carry one side-channel message, four bytes each (R612, R673, R674). -/
def scFrames (x : PortS) (m : List Byte) : List FrameOut :=
  ((List.range 16).zip (chunks 16 4 (padTo 0 64 m))).map (fun (i, b) =>
    ⟨true, (x.seq + i) % 4096, false, x.lastSeq, x.crFields, b, List.replicate 626 0⟩)

/-- Send queued side-channel messages while the port is in state 5 or 6 and its replay buffer has room (R675). -/
def State.scPump (s : State) (q : Nat) : Nat → State
  | 0 => s
  | n + 1 =>
    let x := s.port q
    match x.scq with
    | [] => s
    | m :: ms =>
      if (s.portState q ≠ 5 ∧ s.portState q ≠ 6) ∨ 496 < x.held.length then s
      else
        let fs := scFrames x m
        let x' := { x with scq := ms, seq := (x.seq + 16) % 4096, held := x.held ++ fs }
        ((s.setPort q x').emitAll (fs.map (Emit.frame q))).scPump q n

/-- Queue a side-channel message: type, length, body (R673). -/
def State.scSend (s : State) (q : Nat) (m : List Byte) : State :=
  let x := s.port q
  (s.setPort q { x with scq := x.scq ++ [padTo 0 64 m] }).scPump q (x.scq.length + 1)

/-- A side-channel message from its type and body. -/
def scMsg (typ : Nat) (body : List Byte) : List Byte := padTo 0 64 (leBytes 1 typ ++ leBytes 1 body.length ++ body)

/-- A write of 1 to LNK_SC_CTL.tx_go of port `q`: the message in LNK_SC_TX is sent; none while one is being sent. -/
def State.scTxGo (s : State) (q : Nat) : State :=
  let d := portDie q
  let k := portLoc q
  if s.on (Reg.lnkScCtl d k) Reg.lnkScCtl_tx_busy then s
  else
    let m := (List.range 8).flatMap (fun j => leBytes 8 (s.rd (Reg.lnkScTx d k j)).toNat)
    (s.p (Reg.lnkScCtl d k) Reg.lnkScCtl_tx_busy 1).scSend q m

/-- SC_TX_GO (R673, R674). -/
def execScTxGo (r : Requester) (p : Port) (s : State) : Host.Outcome State Fault Refusal :=
  .next (s.regWr r (Reg.lnkScCtl (portDie p) (portLoc p)) (fun s => s.scTxGo p))

/-- SC_MESSAGE_SENT: the message of LNK_SC_TX has left, and tx_busy falls (R677). -/
def execScMessageSent (p : Port) (s : State) : Host.Outcome State Fault Refusal :=
  if (s.port p).scq = [] then .next (s.p (Reg.lnkScCtl (portDie p) (portLoc p)) Reg.lnkScCtl_tx_busy 0) else .next s

/-- A write of 1 to LNK_SC_CTL.rx_pop of port `q` removes the oldest received message. -/
def State.scRxPop (s : State) (q : Nat) : State :=
  let x := s.port q
  s.setPort q { x with scRx := x.scRx.tail }

/-- SC_RX_POP (R676). -/
def execScRxPop (r : Requester) (p : Port) (s : State) : Host.Outcome State Fault Refusal :=
  .next (s.regWr r (Reg.lnkScCtl (portDie p) (portLoc p)) (fun s => s.scRxPop p))

/-- Queue a received side-channel message for the wardens (R676). -/
def State.scQueue (s : State) (q : Nat) (m : List Byte) : State :=
  let x := s.port q
  if 16 ≤ x.scRx.length then (s.dbrk (portDie q) (72 + 5 * portLoc q + 3) 1).portRaise q 4
  else s.setPort q { x with scRx := x.scRx ++ [padTo 0 64 m] }

/-! ## Frames -/

/-- The frame a port sends next when it has nothing else to send: its ack, its nak and its credits (R612, R616, R619). -/
def State.idleFrame (s : State) (q : Nat) (nak : Bool) : State :=
  let x := s.port q
  s.emit (.frame q ⟨false, 0, nak, x.lastSeq, x.crFields, [], []⟩)

/-- A receiver discards a frame, or meets one out of sequence: it asks for replay once (R619). -/
def State.askReplay (s : State) (q : Nat) : State :=
  let x := s.port q
  if x.nakSent then s else (s.setPort q { x with nakSent := true }).idleFrame q true

/-- Drop the held frames an ack covers (R617). -/
def dropAcked (ack : Nat) (held : List FrameOut) : List FrameOut :=
  match held.findIdx? (fun f => f.seq == ack) with
  | some i => held.drop (i + 1)
  | none => held

/-- Take one returned-credit field (R612, R615). -/
def takeCredit (x : PortS) (w : Nat) : PortS := { x with returned := x.returned.set (w / 16384 % 4) (w % 16384) }

/-- Send every held frame again (R620). -/
def State.resend (s : State) (q : Nat) : State := s.emitAll ((s.port q).held.map (Emit.frame q))

/-- A nak replays every held frame, and counts it (R620, R621). -/
def State.replay (s : State) (q : Nat) : State :=
  let x := s.port q
  match x.held with
  | [] => s
  | f :: _ =>
    let n := if x.replays != 0 && x.replaySeq == f.seq then x.replays + 1 else 1
    ((s.setPort q { x with replaySeq := f.seq, replays := n }).resend q).dcnt (portDie q) (80 + 5 * portLoc q + 2) 1

/-- The whole packets of a stream, and the bytes left; a 0 byte where a header would begin is fill to the end (R636,
R637). -/
def parseStream : Nat → List Byte → List Packet × List Byte
  | 0, bs => ([], bs)
  | n + 1, bs =>
    if bs = [] ∨ byteAt bs 0 = 0 then ([], [])
    else
      let m := 24 + (leAt bs 14 2 + 7) / 8 * 8
      if bs.length < m ∨ bs.length < 24 then ([], bs)
      else
        let (ks, rest) := parseStream n (bs.drop m)
        (parsePacket bs :: ks, rest)

/-- Hand received packets to the cross, returning their credits (R660); in state 6 they are discarded (R1098). -/
def State.rxPackets (s : State) (q : Nat) : List Packet → State
  | [] => s
  | k :: ks =>
    let d := portDie q
    let x := s.port q
    let v := k.vc.toNat
    let s1 := s.setPort q { x with given := x.given.set v ((x.given.getD v 0 + k.credits) % 16384) }
    (if s.portState q = 6 then s1.pktBad d
      else (s1.dcnt d (80 + 5 * portLoc q + 1) k.payload.length).emit (.deliver k)).rxPackets q ks

/-- Take the side-channel bytes of a frame; a whole message is handed on (R673). -/
def State.rxSide (s : State) (q : Nat) (bs : List Byte) : State :=
  let x := s.port q
  let m := x.scIn ++ bs
  if m.length < 64 then s.setPort q { x with scIn := m }
  else (s.setPort q { x with scIn := m.drop 64 }).emit (.scArrived q (m.take 64))

/-- Take a data frame of the next sequence number. -/
def State.rxData (s : State) (q : Nat) (bs : List Byte) : State :=
  let x := s.port q
  let s1 := (s.setPort q { x with lastSeq := leAt bs 0 2 % 4096, nakSent := false }).rxSide q
    (slice bs 8 (min 4 (leAt bs 2 2 / 4096 % 8)))
  let y := s1.port q
  let (ks, rest) := parseStream 64 (y.rxbuf ++ slice bs 12 626)
  ((s1.setPort q { y with rxbuf := rest }).rxPackets q ks).idleFrame q false

/-- An accepted frame (R615 to R620). -/
def State.rxFrame (s : State) (q : Nat) (bs : List Byte) : State :=
  let w0 := leAt bs 0 2
  let ack := leAt bs 2 2 % 4096
  let x0 := s.port q
  let x1 := takeCredit (takeCredit x0 (leAt bs 4 2)) (leAt bs 6 2)
  let held := dropAcked ack x0.held
  let x2 := { x1 with held := held, link := { x1.link with lastRx := s.now }
                      replays := if held.length < x0.held.length then 0 else x1.replays }
  let s1 := s.setPort q x2
  let s2 := if nbit w0 14 then s1.replay q else s1
  let s3 := if w0 / 4096 % 4 = 1 then
      (if w0 % 4096 = (x0.lastSeq + 1) % 4096 then s2.rxData q bs else s2.askReplay q)
    else s2
  (s3.pump q ((s3.port q).txq.length + 1)).scPump q ((s3.port q).scq.length + 1)

/-- FRAME_RECEIVE (R611 to R620). -/
def execFrameReceive (p : Port) (f : FrameIn) (s : State) : Host.Outcome State Fault Refusal :=
  let d := portDie p
  let k := portLoc p
  if (s.portState p ≠ 5 ∧ s.portState p ≠ 6) ∨ f.bytes.length ≠ 642 then .next s
  else if !f.fecOk then .next ((s.dbrk d (72 + 5 * k) 1).askReplay p)
  else
    let s1 := s.dcnt d (80 + 5 * k + 3) f.corrected
    if crc32c (f.bytes.take 638) ≠ leAt f.bytes 638 4 then .next ((s1.dbrk d (72 + 5 * k + 1) 1).askReplay p)
    else .next (s1.rxFrame p f.bytes)

/-! ## Training -/

/-- Look up again every packet queued for a port that leaves state 5 (R653). -/
def State.requeue (s : State) (d : Nat) : List Packet → State
  | [] => s
  | k :: ks => (s.route d { k with ttl := k.ttl + 1 } 2).requeue d ks

/-- A port leaves state 5 for another state. -/
def State.leaveUp (s : State) (q v : Nat) : State :=
  let x := s.port q
  if s.portState q = 5 then
    ((s.setPort q { x with txq := [], rxbuf := [] }).setPortState q v).requeue (portDie q) x.txq
  else s.setPortState q v

/-- A port begins training (R622); trainings after the first are counted. -/
def State.trainStart (s : State) (q : Nat) : State :=
  let s1 := s.leaveUp q 1
  let x := s1.port q
  let s2 := s1.setPort q { x with link := { x.link with trained := true, openLanes := 0, shortLanes := 0 }, replays := 0 }
  if x.link.trained then s2.dbrk (portDie q) (72 + 5 * portLoc q + 2) 1 else s2

/-- PORT_RETRAIN (R622): a write of 1 to LNK_PORT_CTL.retrain. -/
def execPortRetrain (r : Requester) (p : Port) (s : State) : Host.Outcome State Fault Refusal :=
  let a := Reg.lnkPortCtl (portDie p) (portLoc p)
  .next (s.regWr r a (fun s => if s.on a Reg.lnkPortCtl_enable then s.trainStart p else s))

/-- RETRAIN_TRIGGER (R621): replay_max consecutive replays from one frame, or no frame accepted for 20 µs. -/
def execRetrainTrigger (p : Port) (timeout : Bool) (s : State) : Host.Outcome State Fault Refusal :=
  let x := s.port p
  let due := if timeout then decide (x.link.lastRx + 20000 ≤ s.now)
    else decide (s.g (Reg.lnkPortErrCfg (portDie p) (portLoc p)) Reg.lnkPortErrCfg_replay_max ≤ x.replays)
  if s.portState p = 5 ∧ due then .next (s.trainStart p) else .next s

/-- LANE_ERRORS (R629): a lane's corrected symbols of one millisecond exceed lane_err_max. -/
def execLaneErrors (p : Port) (lane : Fin 8) (errs : Nat) (s : State) : Host.Outcome State Fault Refusal :=
  let d := portDie p
  let k := portLoc p
  if s.portState p ≠ 5 ∨ errs ≤ s.g (Reg.lnkPortErrCfg d k) Reg.lnkPortErrCfg_lane_err_max then .next s
  else
    let x := s.port p
    let s1 := (s.setPort p { x with link := { x.link with errLanes := x.link.errLanes ||| 2 ^ lane.val } }).p
      (Reg.lnkPortLanes d k) (Reg.lnkPortLanes_cause lane) 4
    .next (s1.trainStart p)

/-- The causes of the eight lanes after lane identification (R625). -/
def laneCauses (s : State) (q : Nat) (seen : List LaneSeen) : List Nat :=
  let x := (s.port q).link
  let off := s.g (Reg.lnkPortCtl (portDie q) (portLoc q)) Reg.lnkPortCtl_lane_off
  (List.range 8).map (fun l =>
    match seen[l]? with
    | none => 1
    | some z =>
      if nbit off l then 5
      else if nbit x.errLanes l then 4
      else if nbit x.shortLanes l || z.dcFault then 2
      else if nbit x.openLanes l || !z.signal then 1
      else if !z.training then 3
      else if (seen.filter (fun y => y.signal && y.training && y.logical == z.logical)).length > 1 then 2
      else 0)

/-- Set the lane registers of a port from a list of (lane, cause, logical number). -/
def State.setLanes (s : State) (a : Nat) : List (Nat × Nat × Nat) → State
  | [] => s
  | (l, c, n) :: r => ((s.p a (Reg.lnkPortLanes_cause l) c).p a (Reg.lnkPortLanes_logical l) n).setLanes a r

/-- A port goes down (R627). -/
def State.portDown (s : State) (q : Nat) : State :=
  let s1 := s.leaveUp q 0
  let x := s1.port q
  (s1.setPort q { x with link := { x.link with downAt := s.now } }).portRaise q 1

/-- Lane identification ends (R623 to R627). -/
def State.laneIdent (s : State) (q : Nat) (res : TrainResult) : State :=
  let d := portDie q
  let k := portLoc q
  let causes := laneCauses s q res.lanes
  let inv := flagBits ((List.range 8).map (fun l => match res.lanes[l]? with
    | some z => z.inverted && causes.getD l 0 == 0 | none => false))
  let log (l : Nat) : Nat := match res.lanes[l]? with | some z => z.logical.val | none => 0
  let rx := (causes.filter (· == 0)).length
  let tx := popcount8 res.txGood.toNat
  let s1 := s.setLanes (Reg.lnkPortLanes d k) ((List.range 8).map (fun l => (l, causes.getD l 0, log l)))
  let a := Reg.lnkPortStatus d k
  let s2 := ((s1.p a Reg.lnkPortStatus_pol_fixed inv).p a Reg.lnkPortStatus_rx_width rx).p a Reg.lnkPortStatus_tx_width tx
  if rx < 4 ∨ tx < 4 then s2.portDown q else s2.setPortState q 4

/-- TRAINING_PHASE_END (R622 to R627): Detect, Adapt or lane identification ends; the identity phase ends under
PORT_IDENTITY. -/
def execTrainingPhaseEnd (p : Port) (res : TrainResult) (s : State) : Host.Outcome State Fault Refusal :=
  if !lnkClk s (portDie p) then .next s else
  match s.portState p with
  | 1 =>
    let x := s.port p
    let bits (f : LaneSeen → Bool) : Nat := flagBits ((List.range 8).map (fun l => match res.lanes[l]? with
      | some z => f z | none => true))
    .next ((s.setPort p { x with link := { x.link with
      openLanes := bits (fun z => !z.signal), shortLanes := bits (fun z => z.dcFault) } }).setPortState p 2)
  | 2 => .next (s.setPortState p 3)
  | 3 => .next (s.laneIdent p res)
  | _ => .next s

/-- PORT_DOWN_RETRY (R627): one second after a port went down it begins training again. -/
def execPortDownRetry (p : Port) (s : State) : Host.Outcome State Fault Refusal :=
  if s.portState p = 0 ∧ lnkClk s (portDie p) ∧ s.on (Reg.lnkPortCtl (portDie p) (portLoc p)) Reg.lnkPortCtl_enable ∧
      (s.port p).link.downAt + 1000000000 ≤ s.now
  then .next (s.trainStart p) else .next s

/-- A port comes up (R628, R632): held frames go again and queued traffic follows. -/
def State.portUp (s : State) (q : Nat) : State :=
  let a := Reg.lnkPortStatus (portDie q) (portLoc q)
  let x := s.port q
  let s1 := ((s.setPort q { x with link := { x.link with lastRx := s.now } }).setPortState q 5).portRaise q 0
  let s2 := if s.g a Reg.lnkPortStatus_tx_width < 8 ∨ s.g a Reg.lnkPortStatus_rx_width < 8 then s1.portRaise q 2 else s1
  let s3 := s2.resend q
  (s3.pump q ((s3.port q).txq.length + 1)).scPump q ((s3.port q).scq.length + 1)

/-- The peer's identity block is compared (R631 to R633): true when the port came up. -/
def State.identity (s : State) (q : Nat) (b : List Byte) : Bool × State :=
  let d := portDie q
  let k := portLoc q
  let a := Reg.lnkPortExpect d k
  if s.portState q ≠ 4 ∨ !s.on a Reg.lnkPortExpect_valid then (false, s)
  else if s.g a Reg.lnkPortExpect_expect_station = leAt b 0 2 ∧ s.g a Reg.lnkPortExpect_expect_port = byteAt b 2 then
    (true, s.portUp q)
  else
    let s1 := ((s.p (Reg.lnkPortPeer d k) Reg.lnkPortPeer_station (leAt b 0 2)).p (Reg.lnkPortPeer d k)
      Reg.lnkPortPeer_port (byteAt b 2 % 16))
    let s2 := (s1.wr (Reg.lnkPortPeerLo d k) (BitVec.ofNat 64 (leAt b 4 8))).wr (Reg.lnkPortPeerHi d k)
      (BitVec.ofNat 64 (leAt b 12 8))
    let s3 := (s2.setPortState q 6).portRaise q 3
    (false, s3.scPump q ((s3.port q).scq.length + 1))

/-! ## Combining (R662 to R672) -/

/-- The fields of a combine entry. -/
structure CombE where
  tag : Nat
  valid : Bool
  fanIn : Nat
  outIndex : Nat
  isLocal : Bool
  deriving DecidableEq, Repr

/-- Combine entry `n` of a die. -/
def combE (s : State) (d n : Nat) : CombE :=
  let w := (s.rd (Reg.lnkComb d n)).toNat
  ⟨nfld w 0 22, nbit w 22, nfld w 23 3 + 1, nfld w 26 3, nbit w 29⟩

/-- The input index, count and layout epoch of a combine packet. -/
def Packet.index (k : Packet) : Nat := nfld k.ext.toNat 0 3
def Packet.count (k : Packet) : Nat := nfld k.ext.toNat 16 16
def Packet.epoch (k : Packet) : Nat := nfld k.ext.toNat 8 8

/-- The contributions held in the round of entry `n`. -/
def combRound (s : State) (d n : Nat) : List Packet := ((s.die d).comb.held.filter (·.1 == n)).map (·.2)

/-- Forget the round of entry `n`. -/
def State.combFree (s : State) (d n : Nat) : State :=
  let x := s.die d
  s.setDie d { x with comb := { x.comb with held := x.comb.held.filter (·.1 != n) } }

/-- EV_LNK_COMB_BAD and its counter (R663, R668). -/
def State.combBad (s : State) (d : Nat) : State := (s.dbrk d 117 1).raise ⟨0x15, 0, 3⟩ (.die d)

/-- The F32 values of a payload. -/
def f32List (b : List Byte) : List XV := (List.range (b.length / 4)).map (fun i => f32.dec (leAt b (4 * i) 4))

/-- The emitted payload of a round of F32 contributions (R666): exact sums, rounded once. -/
def sumPayload (ps : List (List Byte)) : List Byte :=
  let vs := ps.map f32List
  (List.range (((vs.map List.length).head?).getD 0)).flatMap (fun i =>
    leBytes 4 (r32 (XV.sum (vs.map (fun v => v.getD i XV.zero)))))

/-- The contribution of the lowest input index. -/
def lowest : List Packet → Option Packet
  | [] => none
  | k :: ks => match lowest ks with
    | some m => if m.index < k.index then some m else some k
    | none => some k

/-- Emit a packet of an entry: to this die's clearing engine, or by the route entry of its dst, this station's own
included (R670). -/
def State.combOut (s : State) (d : Nat) (e : CombE) (k : Packet) : State :=
  if e.isLocal then s.emit (.node d k) else (s.forward d k).2

/-- Emit the round of entry `n` over the contributions held (R665 to R670; header fields R665 leaves out: DEDUCED, log
entry 14); a mixed round is dropped (R668). -/
def State.combEmit (s : State) (d n : Nat) : State :=
  let e := combE s d n
  let ks := combRound s d n
  let s1 := s.combFree d n
  match lowest ks with
  | none => s1
  | some m =>
    if ks.any (fun k => k.typ != m.typ || k.len != m.len || k.addr != m.addr) then s1.combBad d
    else
      let count := min 65535 ((ks.map Packet.count).foldl (· + ·) 0)
      let pay := if m.typ = 0x10 then sumPayload (ks.map (·.payload))
        else ks.foldl (fun acc k => xorBytes acc k.payload) (List.replicate m.payload.length 0)
      s1.combOut d e { m with
        src := BitVec.ofNat 16 (s.g (Reg.lnkStation d) Reg.lnkStation_station), unit := BitVec.ofNat 8 (d + 66 * 2)
        ttl := BitVec.ofNat 6 (s.g (Reg.lnkCfg d) Reg.lnkCfg_ttl_init)
        ext := BitVec.ofNat 32 (e.outIndex + 2 ^ 8 * m.epoch + 2 ^ 16 * count), payload := pay }

/-- Pieces of the combine store in use: rounds of fan_in 1 take none (R671). -/
def combPieces (s : State) (d : Nat) : Nat := (s.die d).comb.held.length

/-- A contribution joins its round (R663, R664, R671). -/
def State.combAdd (s : State) (d : Nat) (k : Packet) : State :=
  let n := k.tag.toNat % 1024
  let e := combE s d n
  if !e.valid || e.tag != k.tag.toNat / 1024 then s.combBad d
  else if (combRound s d n).any (fun m => m.index == k.index) then (s.dbrk d 118 1).raise ⟨0x15, 0, 4⟩ (.die d)
  else
    let x := s.die d
    if e.fanIn ≠ 1 ∧ 2048 ≤ combPieces s d then
      (s.setDie d { x with comb := { x.comb with waits := x.comb.waits ++ [k] } }).dcnt d 120 1
    else
      let s1 := s.setDie d { x with comb := { x.comb with held := x.comb.held ++ [(n, k)] } }
      if e.fanIn ≤ (combRound s1 d n).length then s1.combEmit d n else s1

/-- A combine packet at a cross: routed on when it is for another station (R663). -/
def State.combine (s : State) (d : Nat) (k : Packet) (t : Nat) (act : State → State) : State :=
  if k.typ.toNat ≠ t then s
  else if k.bad then s.pktBad d
  else if !isOwn s d k.dst.toNat then s.route d k 2
  else act s

/-- COMBINE_F32 (R663 to R666). -/
def execCombineF32 (d : Die) (k : Packet) (s : State) : Host.Outcome State Fault Refusal :=
  .next (s.combine d k 0x10 (fun s => s.combAdd d k))

/-- COMBINE_XOR (R663 to R667). -/
def execCombineXor (d : Die) (k : Packet) (s : State) : Host.Outcome State Fault Refusal :=
  .next (s.combine d k 0x11 (fun s => s.combAdd d k))

/-- Emit the round of a flush (R669). -/
def State.combFlush (s : State) (d : Nat) (k : Packet) : State :=
  let n := k.tag.toNat % 1024
  let e := combE s d n
  if !e.valid || e.tag != k.tag.toNat / 1024 then s.combBad d
  else if combRound s d n != [] then s.combEmit d n
  else
    let x := k.ext.toNat
    s.combOut d e { k with
      typ := if nbit x 24 then 0x11 else 0x10, len := BitVec.ofNat 16 (nfld x 0 16)
      src := BitVec.ofNat 16 (s.g (Reg.lnkStation d) Reg.lnkStation_station), unit := BitVec.ofNat 8 (d + 66 * 2)
      ext := BitVec.ofNat 32 (e.outIndex + 2 ^ 8 * nfld x 16 8), payload := List.replicate (nfld x 0 16) 0 }

/-- COMBINE_FLUSH (R669). -/
def execCombineFlush (d : Die) (k : Packet) (s : State) : Host.Outcome State Fault Refusal :=
  .next (s.combine d k 0x12 (fun s => s.combFlush d k))

/-- COMB_STORE_FREE (R671): a piece of the store is free, and the oldest waiting contribution takes it. -/
def execCombStoreFree (d : Die) (s : State) : Host.Outcome State Fault Refusal :=
  let x := s.die d
  match x.comb.waits with
  | [] => .next s
  | k :: ks =>
    if 2048 ≤ combPieces s d then .next s
    else .next ((s.setDie d { x with comb := { x.comb with waits := ks } }).combAdd d k)

/-- A write of combine entry `n` (R672): refused while contributions are held in its round. -/
def State.combWrite (s : State) (d n : Nat) (v : Word) : State :=
  if combRound s d n != [] then (s.raise ⟨0x15, 0, 5⟩ (.die d)).fail .busy
  else s.wr (Reg.lnkComb d n) (BitVec.ofNat 64 (v.toNat % 2 ^ 30))

/-- LNK_COMB_WRITE (R672). -/
def execLnkCombWrite (r : Requester) (d : Die) (n : Fin 1024) (v : Word) (s : State) : Host.Outcome State Fault Refusal :=
  .next (s.regWr r (Reg.lnkComb d n) (fun s => s.combWrite d n v))

end Sys2Proof.Machine
end

