-- ==== Sys2Proof/Machine/Clr.lean ====
section
/-! DEFINITION. The clearing engine: tree reduction, direct form, GATHER, PLACE, PERMUTE, errors (R679 to R745, R793,
R794). -/

namespace Sys2Proof.Machine

/-! ## Descriptor fields (R741) -/

def clrA (x : Desc) : Nat := x.le 16 6
def clrB (x : Desc) : Nat := x.le 22 6
def clrC (x : Desc) : Nat := x.le 28 6
def clrN (x : Desc) : Nat := x.le 34 4
def clrRankA (x : Desc) : Nat := x.le 38 2
def clrRankB (x : Desc) : Nat := x.le 40 2
def clrDl (x : Desc) : Nat := x.le 42 2
def clrMin (x : Desc) : Nat := x.le 44 2
def clrLayer (x : Desc) : Nat := x.le 46 2
def clrKind (x : Desc) : Nat := nfld (x.b 48) 0 2
def clrMode16 (x : Desc) : Bool := nbit (x.b 48) 2
def clrLive (x : Desc) : Bool := nbit (x.b 48) 3
def clrW (x : Desc) : Nat := nfld (x.b 48) 4 4 + 1
def clrTile (x : Desc) : Nat := nfld (x.b 49) 0 6
def clrThin (x : Desc) : Nat := nfld (x.b 50) 0 3
def clrEp (x : Desc) : Nat := x.b 51
def clrStep (x : Desc) : Nat := x.b 52
def clrFmt (x : Desc) : Nat := nfld (x.b 53) 0 4
def clrSigned (x : Desc) : Bool := nbit (x.b 53) 4
def clrBwdFmt (x : Desc) : Nat := nfld (x.b 54) 0 4
/-- Bytes of the narrow image of a block (R726). -/
def clrImg (x : Desc) : Nat := 512 * qBits (clrFmt x)
/-- Bytes of an image and its column divisors (R726). -/
def clrPair (x : Desc) : Nat := clrImg x + 256

/-- The requester the engine is (R681). -/
def clrReq (d : Nat) : Requester := .clearing (Fin.ofNat 2 d)

/-- What a log record of a clearing descriptor says of it. -/
def clrInfo (q : QDesc) : Info :=
  { issue := q.issue, mark := q.desc.mark, layer := if clrKind q.desc = 3 then 0 else clrLayer q.desc }

/-! ## Route records (R686) -/

namespace Route

def owner (k : List Byte) : Nat := leAt k 0 2
def parent (k : List Byte) : Nat := leAt k 2 2
def index (k : List Byte) : Nat := nfld (byteAt k 4) 0 3
def fanIn (k : List Byte) : Nat := nfld (byteAt k 4) 3 3 + 1
def root (k : List Byte) : Bool := nbit (byteAt k 4) 6
def level (k : List Byte) : Nat := nfld (byteAt k 5) 0 3
def base (k : List Byte) : Nat := nfld (leAt k 6 2) 0 10
def start (k : List Byte) : Nat := leAt k 8 4
def len (k : List Byte) : Nat := leAt k 12 4
/-- Positions of the shard's stream (R688). -/
def npos (k : List Byte) : Nat := 4 * len k
def credit (k : List Byte) : Nat := nfld (leAt k 16 4) 0 31
def arrival (k : List Byte) : Nat := nfld (leAt k 20 4) 0 31
def grad (k : List Byte) : Nat := leAt k 24 6
def dir (k : List Byte) : Nat := leAt k 30 6
def inbox (k : List Byte) : Nat := leAt k 36 6
def partner (k : List Byte) : Nat := leAt k 42 2
def partnerArrival (k : List Byte) : Nat := nfld (leAt k 44 4) 0 31
def partnerInbox (k : List Byte) : Nat := leAt k 48 6
def partnerGrad (k : List Byte) : Nat := leAt k 54 6
def partnerDir (k : List Byte) : Nat := leAt k 60 6
/-- The credit tally of child input `i`. -/
def child (k : List Byte) (i : Nat) : Nat := nfld (leAt k (96 + 4 * (i - 1)) 4) 0 31

end Route

/-- The target of a shard in direct form (R713): station, arrival tally, inbox, gradient range, directory. -/
def ClrSlot.station (z : ClrSlot) : Nat := if z.down then Route.partner z.rec' else Route.owner z.rec'
def ClrSlot.tally (z : ClrSlot) : Nat := if z.down then Route.partnerArrival z.rec' else Route.arrival z.rec'
def ClrSlot.inbox (z : ClrSlot) : Nat := if z.down then Route.partnerInbox z.rec' else Route.inbox z.rec'
def ClrSlot.grad (z : ClrSlot) : Nat := if z.down then Route.partnerGrad z.rec' else Route.grad z.rec'
def ClrSlot.dir (z : ClrSlot) : Nat := if z.down then Route.partnerDir z.rec' else Route.dir z.rec'

/-! ## State of the engine -/

/-- Replace the engine's state. -/
def State.setClr (s : State) (d : Nat) (c : ClrS) : State := s.setDie d { s.die d with clr := c }

/-- The descriptor in flight of a number. -/
def clrOp (s : State) (d num : Nat) : Option ClrOp := (s.die d).clr.ops.find? (fun o => o.num == num)

/-- Put a descriptor in flight back. -/
def State.putOp (s : State) (d : Nat) (o : ClrOp) : State :=
  let c := (s.die d).clr
  s.setClr d { c with ops := c.ops.map (fun y => if y.num = o.num then o else y) }

/-- A node of a descriptor. -/
def ClrOp.node (o : ClrOp) (r : Nat) : Option ClrNode := o.nodes.find? (fun n => n.r == r)
/-- Put a node back. -/
def ClrOp.setNode (o : ClrOp) (n : ClrNode) : ClrOp :=
  { o with nodes := o.nodes.map (fun y => if y.r = n.r then n else y) }
/-- Put a slot back. -/
def ClrOp.setSlot (o : ClrOp) (z : ClrSlot) : ClrOp :=
  { o with slots := o.slots.map (fun y => if y.r = z.r then z else y) }
/-- Put a target's shard back. -/
def ClrOp.setTarget (o : ClrOp) (z : ClrSlot) : ClrOp :=
  { o with targets := o.targets.map (fun y => if y.r = z.r then z else y) }

/-- Packets of a descriptor to one destination that no ACK has answered. -/
def clrBusyTo (s : State) (d num r : Nat) : Bool :=
  ownerBusy s d (fun o => match o with | .clr n q _ => n == num && q == r | _ => false)

/-- Packets of a descriptor that no ACK has answered. -/
def clrBusy (s : State) (d num : Nat) : Bool :=
  ownerBusy s d (fun o => match o with | .clr n _ _ => n == num | _ => false)

/-- The engine issues accesses: its clock runs and none is failing (R545, R743). -/
def clrFree (s : State) (d : Nat) : Bool := s.fabClk d && (s.die d).clr.fails == [] && !(s.die d).clr.halted

/-- Raise an event once for a descriptor. -/
def State.clrOnce (s : State) (d : Nat) (o : ClrOp) (bit : Nat) : ClrOp × State :=
  if o.noted.contains bit then (o, s)
  else ({ o with noted := bit :: o.noted }, s.raise ⟨0x16, 0, bit⟩ (.die d) (clrInfo o.q))

/-! ## Failing accesses (R743) -/

/-- Halt the engine on a failing access. -/
def State.clrHalt (s : State) (d : Nat) (f : ClrFail) (q : QDesc) : State :=
  let w := BitVec.ofNat 64 (f.f.addr % 2 ^ 48 + (if f.f.write then 2 ^ 48 else 0) + 2 ^ 49 * (f.f.cause % 16))
  let s1 := s.wr (Reg.clrErr d) w
  (s1.setClr d { (s1.die d).clr with halted := true }).raise ⟨0x16, 0, 2⟩ (.die d)
    { clrInfo q with exc := true, detail := [w] }

/-- The descriptor a failing access belongs to. -/
def clrQOf (s : State) (d : Nat) (f : ClrFail) : QDesc :=
  match clrOp s d f.num, (s.die d).clrQ with
  | some o, _ => o.q
  | none, q :: _ => q
  | none, [] => ⟨[], 0, 0, 0⟩

/-- An access has failed: it waits for its next attempt, or halts the engine after the last one. -/
def State.clrFail (s : State) (d : Nat) (f : ClrFail) : State :=
  let c := (s.die d).clr
  if s.g (Reg.clrCfg d) Reg.clrCfg_retry_max < f.f.attempts && !c.halted then
    (s.setClr d { c with fails := f :: c.fails }).clrHalt d f (clrQOf s d f)
  else s.setClr d { c with fails := c.fails ++ [f] }

/-- Bytes read by the engine, or the failing access. -/
def State.clrRead (s : State) (d a n : Nat) : Except EngFail (List Byte) × State :=
  let (bs, s1) := s.readSpan (clrReq d) a n
  match whole bs with
  | some b => (.ok b, s1)
  | none => (.error (readFail s1 (clrReq d) a), s1)

/-- Bytes written by the engine: the failing access, if one fails. -/
def State.clrWrite (s : State) (d a : Nat) (bs : List Byte) : Option EngFail × State :=
  match s.prtWrite (clrReq d) (pieces a bs) with
  | (none, s1) => (none, s1)
  | (some (f, _), s1) => (some f, s1)

/-! ## Submission -/

/-- CLR_SUBMIT (R679, R1093). -/
def execClrSubmit (r : Requester) (d : Die) (v : Word) (s : State) : Host.Outcome State Fault Refusal :=
  .next (s.submit r d 66 (Reg.clrSubmit d) v.toNat)

/-- CLR_QUEUE_CLEAR (R745): a write of 1 to CLR_CTL.queue_clear. -/
def execClrQueueClear (r : Requester) (d : Die) (s : State) : Host.Outcome State Fault Refusal :=
  .next (s.regWr r (Reg.clrCtl d) (fun s => s.engFlush d 66))

/-! ## Validity and beginning (R680, R724, R730 to R732, R742) -/

/-- How far a descriptor's epoch lies behind CLR_EPOCH (R730). -/
def epochLag (s : State) (d e : Nat) : Nat := (s.g (Reg.clrEpoch d) Reg.clrEpoch_epoch + 256 - e) % 256

/-- Whether a clearing descriptor's own bytes are invalid (R731, R742). -/
def clrBad (s : State) (d : Nat) (x : Desc) : Bool :=
  let k := clrKind x
  let off (a : Nat) : Bool := a % 64 != 0
  decide (2 ≤ x.roundMode) || (k != 2 && x.roundMode != 0) || clrN x == 0 ||
  (k == 0 && (decide (clrRankB x ≤ clrRankA x) || clrDl x == 0)) ||
  (k == 1 && (clrRankA x == 0 || clrRankB x == 0)) ||
  (k == 3 && (x.le 54 2 == 0 || clrRankB x == 0)) ||
  ((k == 1 || k == 2) && decide (2 < clrFmt x)) ||
  off (clrA x) || off (clrB x) || (k != 2 && off (clrC x)) ||
  decide (x.b 49 / 64 ≠ 0) || decide (x.b 50 / 8 ≠ 0) || decide (x.b 53 / 32 ≠ 0) ||
  (decide (k ≤ 1) && x.le 54 2 != 0) ||
  (k == 2 && (clrC x != 0 || x.le 38 8 != 0 || nfld (x.b 54) 4 4 != 0)) ||
  (k == 3 && (decide (x.le 42 2 / 2 ^ 14 ≠ 0) || decide (x.le 46 2 / 2 ^ 14 ≠ 0))) ||
  decide (128 ≤ epochLag s d (clrEp x))

/-- Not due under thinning (R724). -/
def clrThinned (x : Desc) : Bool := clrThin x != 0 && clrStep x % 2 ^ clrThin x != 2 ^ clrThin x - 1

/-- The records of the ranks tile the layer in rank order (R682). -/
def recordsTile (n next : Nat) : List (List Byte) → Bool
  | [] => next == n
  | k :: ks => Route.start k == next && recordsTile n (next + Route.len k) ks

/-- A descriptor about to be in flight. -/
def clrFresh (s : State) (d : Nat) (q : QDesc) : ClrOp :=
  { num := (s.die d).clr.num, q := q, began := s.now, nodes := [], slots := [], targets := [], next := 0, phase := 0,
    since := s.now, marks := [], forced := false, noted := [], added := false, abort := false, gmax := 0 }

/-- The head descriptor begins: it leaves the queue and is in flight. -/
def State.clrEnter (s : State) (d : Nat) (o : ClrOp) : State :=
  let s1 := s.engPop d 66
  let c := (s1.die d).clr
  s1.setClr d { c with ops := c.ops ++ [o], num := c.num + 1 }

/-- An invalid head descriptor is discarded (R680). -/
def State.clrRefuse (s : State) (d : Nat) (q : QDesc) : State :=
  (s.raise ⟨0x16, 0, 1⟩ (.die d) { clrInfo q with exc := true, detail := [BitVec.ofNat 64 q.addr] }).engPop d 66

/-- What becomes of the head descriptor before its kind's own beginning: none when it has not begun or has been
disposed of. -/
def State.clrHead (s : State) (d kind : Nat) : Option QDesc × State :=
  match (s.die d).clrQ with
  | [] => (none, s)
  | q :: _ =>
    let x := q.desc
    if !clrFree s d || s.on (Reg.clrCtl d) Reg.clrCtl_hold || decide (4 ≤ (s.die d).clr.ops.length) ||
        !engReady s d 66 q || clrKind x != kind then (none, s)
    else if clrBad s d x then (none, s.clrRefuse d q)
    else if kind = 0 && epochLag s d (clrEp x) != 0 then
      (none, ((s.dbrk d 31 1).raise ⟨0x16, 0, 6⟩ (.die d) (clrInfo q)).engPop d 66)
    else if kind ≠ 3 && clrThinned x then (none, (s.dcnt d 24 1).engPop d 66)
    else (some q, s)

/-! ## Tree nodes -/

/-- The key of position `p` of a node (R690). -/
def clrKey (x : Desc) (k : List Byte) (p : Nat) : Nat :=
  (Route.base k + p % clrW x) % 1024 + 2 ^ 10 * (p / clrW x % 64) + 2 ^ 16 * clrStep x + 2 ^ 24 * clrEp x

/-- REDUCE works under R793. -/
def clrXorOn (s : State) (d : Nat) : Bool := s.on (Reg.clrXor d) Reg.clrXor_xor

/-- The die whose combine entries are a node's (R691). -/
def combDie (k : List Byte) : Nat := addrDie (Route.grad k)

/-- Arm the entry of position `p` (R692, R693): false when its round holds contributions and the write is refused
(R672). -/
def State.arm (s : State) (x : Desc) (k : List Byte) (p : Nat) : Bool × State :=
  let key := clrKey x k p
  let n := key % 1024
  if combRound s (combDie k) n != [] then (false, s.raise ⟨0x15, 0, 5⟩ (.die (combDie k)))
  else (true, s.wr (Reg.lnkComb (combDie k) n)
    (BitVec.ofNat 64 (key / 1024 + 2 ^ 22 + 2 ^ 23 * (Route.fanIn k - 1) + 2 ^ 29)))

/-- Arm the first lap of a node's entries: the address of the first refused write. -/
def State.armAll (s : State) (x : Desc) (k : List Byte) : List Nat → Option Nat × State
  | [] => (none, s)
  | e :: es =>
    match s.arm x k e with
    | (true, s1) => s1.armAll x k es
    | (false, s1) => (some (Reg.lnkComb (combDie k) (clrKey x k e % 1024)), s1)

/-- Arm every node: the first refused write. -/
def State.armNodes (s : State) (x : Desc) : List (List Byte) → Option Nat × State
  | [] => (none, s)
  | k :: ks =>
    match s.armAll x k (List.range (clrW x)) with
    | (none, s1) => s1.armNodes x ks
    | (some a, s1) => (some a, s1)

/-- The die and number of a tally in the cross-module form. -/
def tallyIx (a : Nat) : Nat × Nat := (nfld a 14 1, nfld a 0 14)

/-- Write the value of a tally to 0, at its bank (R697, R723, R736). -/
def State.tallyZero (s : State) (d n : Nat) : State := s.tallyQueue d n (.setState n (setFld (s.rd (Reg.tlyState d n)) 0 32 0))

/-- The value of a credit tally: 0 while the write of R697 waits at its bank. -/
def creditVal (s : State) (k : List Byte) : Nat :=
  let (d, n) := tallyIx (Route.credit k)
  if ((s.die d).banks.getD (n % 8) []).any (fun o => match o with | .setState m _ => m == n | _ => false) then 0
  else tVal s d n

/-- Entries two node sets have in common. -/
def combEntries (x : Desc) (k : List Byte) : List (Nat × Nat) :=
  (List.range (clrW x)).map (fun e => (combDie k, (Route.base k + e) % 1024))

/-- Entries of the descriptors in flight. -/
def usedEntries (s : State) (d : Nat) : List (Nat × Nat) :=
  (s.die d).clr.ops.flatMap (fun o => o.nodes.flatMap (fun n => combEntries o.q.desc n.rec'))

/-- A node as its REDUCE begins; one without positions has no part to play. -/
def nodeOf (s : State) (x : Desc) (r : Nat) (k : List Byte) : ClrNode :=
  { r := r, rec' := k, laps := List.replicate (clrW x) 0, own := 0, up := 0, waits := [], owed := 0, elig := 0, late := [],
    judged := false, oldestAt := s.now, waitAt := none, ended := Route.len k == 0, stale := [], got := [], written := 0 }

/-- Bit `r` of the down bitmap. -/
def downBit (bm : List Byte) (r : Nat) : Bool := nbit (byteAt bm (r / 8)) (r % 8)

/-- Begin a REDUCE whose records and bitmap are read (R692, R697, R712, R713, R793). -/
def State.reduceStart (s : State) (d : Nat) (q : QDesc) (recs : List (List Byte)) (bm : List Byte) : State :=
  let x := q.desc
  let xr := clrXorOn s d
  let all := !xr && (clrMode16 x || s.on (Reg.clrCtl d) Reg.clrCtl_force16)
  let ranked := (List.range recs.length).zip recs
  let direct (r : Nat) : Bool := !xr && (all || downBit bm r)
  let trees := ranked.filter (fun p => !direct p.1)
  let zs : List ClrSlot := (ranked.filter (fun p => direct p.1 && Route.len p.2 != 0)).map
    (fun p => ⟨p.1, p.2, downBit bm p.1, 0, 0⟩)
  let es := trees.flatMap (fun p => combEntries x p.2)
  if es.any (fun e => (usedEntries s d).contains e) then s
  else
    match s.armNodes x (trees.map (·.2)) with
    | (some a, s1) => s1.clrFail d ⟨0, .begin, ⟨true, a, AccErr.busy.cause, 1, none⟩⟩
    | (none, s1) =>
      let s2 := (trees.filter (fun p => !Route.root p.2)).foldl (fun s p =>
        let (td, tn) := tallyIx (Route.credit p.2); s.tallyZero td tn) s1
      let o := { clrFresh s d q with
        nodes := trees.map (fun p => nodeOf s x p.1 p.2)
        slots := zs.filter (fun z => !isOwn s d z.station), targets := zs.filter (fun z => isOwn s d z.station) }
      s2.clrEnter d o

/-- Shards this member delivers are all delivered; true also where it delivers none. -/
def clrDelivered (s : State) (d : Nat) (o : ClrOp) : Bool :=
  o.targets.all (fun z => z.phase == 2) &&
    (clrXorOn s d || o.nodes.all (fun n => !Route.root n.rec' || n.written == Route.len n.rec'))

/-- The member delivers some shard. -/
def clrDelivers (s : State) (d : Nat) (o : ClrOp) : Bool :=
  o.targets != [] || (!clrXorOn s d && o.nodes.any (fun n => Route.root n.rec' && Route.len n.rec' != 0))

/-- A node's work is done. -/
def nodeDone (n : ClrNode) : Bool :=
  n.ended || (if Route.root n.rec' then n.written == Route.len n.rec' else n.up == Route.npos n.rec')

/-- A descriptor leaves the engine. -/
def State.clrLeave (s : State) (d num : Nat) : State :=
  let c := (s.die d).clr
  s.setClr d { c with ops := c.ops.filter (fun o => o.num != num) }

/-- A REDUCE makes its completion add when its shard is delivered (R705), and completes when its sending and node work
are done too; the target's arrival tally is then written to 0 (R723). -/
def State.reduceSettle (s : State) (d num : Nat) : State :=
  match clrOp s d num with
  | none => s
  | some o =>
    if o.abort then s else
    let s1 := if !o.added && clrDelivers s d o && clrDelivered s d o
      then (s.doneAdd d 66 o.q.desc).putOp d { o with added := true } else s
    let o1 := (clrOp s1 d num).getD o
    if o1.nodes.all nodeDone && o1.slots.all (fun z => z.phase == 2) && clrDelivered s1 d o1 then
      let s2 := o1.targets.foldl (fun s z => let (td, tn) := tallyIx z.tally; s.tallyZero td tn) s1
      let s3 := if o1.added then s2 else s2.doneAdd d 66 o1.q.desc
      s3.clrLeave d num
    else s1

/-- Read the records and the bitmap of a REDUCE and begin it (R682, R742). -/
def State.reduceBegin (s : State) (d : Nat) (q : QDesc) : State :=
  let x := q.desc
  let n := clrRankB x
  match s.clrRead d (clrB x) (128 * n) with
  | (.error f, s1) => s1.clrFail d ⟨0, .begin, f⟩
  | (.ok b, s1) =>
    let recs := chunks n 128 b
    if !recordsTile (clrN x) 0 recs then s1.clrRefuse d q
    else
      let (bm, s2) := if clrC x = 0 then (.ok [], s1) else s1.clrRead d (clrC x) ((n + 7) / 8)
      match bm with
      | .error f => s2.clrFail d ⟨0, .begin, f⟩
      | .ok bm =>
        let num := (s2.die d).clr.num
        (s2.reduceStart d q recs bm).reduceSettle d num

/-! ## Contributions (R684, R685, R793) -/

/-- A source block of global block `g`: `n` bytes from `off` of its values, and its count. -/
def State.contrib (s : State) (d : Nat) (x : Desc) (g off n : Nat) (note : Bool) : Except EngFail (List Byte × Nat) × State :=
  match s.clrRead d (clrA x + g * 16) 16 with
  | (.error f, s1) => (.error f, s1)
  | (.ok e, s1) =>
    let go (s : State) (count : Nat) : Except EngFail (List Byte × Nat) × State :=
      match s.clrRead d (leAt e 0 6 + off) n with
      | (.error f, s2) => (.error f, s2)
      | (.ok b, s2) => (.ok (b, count), s2)
    if clrXorOn s1 d then go s1 1
    else match s1.clrRead d (leAt e 6 6) 8 with
      | (.error f, s2) => (.error f, s2)
      | (.ok h, s2) =>
        if nbit (byteAt h 6) 0 && leAt h 4 2 == clrLayer x then go s2 (leAt h 0 2)
        else (.ok (List.replicate n 0, 0), if note then s2.dbrk d 24 1 else s2)

/-- A combine packet of a node (R689, R690, R793). -/
def combPkt (s : State) (d : Nat) (x : Desc) (k : List Byte) (p dst index count : Nat) (pay : List Byte) : Packet :=
  { mkPkt s d (if clrXorOn s d then 0x11 else 0x10) dst 66 (Route.grad k + 0x4000 * (p / 4) + 0x1000 * (p % 4))
      (index + 2 ^ 8 * clrEp x + 2 ^ 16 * (count % 2 ^ 16)) pay with
    tag := BitVec.ofNat 32 (clrKey x k p) }

/-- The own station word of a die. -/
def ownStation (s : State) (d : Nat) : Nat := s.g (Reg.lnkStation d) Reg.lnkStation_station

/-- The number of the position an entry of a node is at. -/
def entryPos (x : Desc) (n : ClrNode) (e : Nat) : Nat := n.laps.getD e 0 * clrW x + e

/-- The oldest position of a node that no round has been emitted for. -/
def oldestPos (x : Desc) (n : ClrNode) : Nat :=
  (List.range (clrW x)).foldl (fun m e => min m (entryPos x n e)) (entryPos x n 0)

/-- A node may send position `p` to its parent (R696). -/
def mayUp (s : State) (x : Desc) (n : ClrNode) (p : Nat) : Bool := decide (p < clrW x + creditVal s n.rec')

/-- A position goes to the parent. -/
def State.sendUp (s : State) (d : Nat) (x : Desc) (n : ClrNode) (p count : Nat) (pay : List Byte) : State :=
  (s.route d (combPkt s d x n.rec' p (Route.parent n.rec') (Route.index n.rec') count pay) 2).dcnt d 20 pay.length

/-- The own contribution of a node to position `p` (R691): input 0 of its own entry, or a leaf's packet to its parent. -/
def State.sendOwn (s : State) (d : Nat) (o : ClrOp) (n : ClrNode) : State :=
  let x := o.q.desc
  let p := n.own
  let k := n.rec'
  match s.contrib d x (Route.start k + p / 4) (0x1000 * (p % 4)) 0x1000 (p % 4 == 0) with
  | (.error f, s1) => s1.clrFail d ⟨o.num, .position n.r, f⟩
  | (.ok (b, c), s1) =>
    if Route.fanIn k = 1 ∧ !Route.root k then
      (s1.sendUp d x n p c b).putOp d (o.setNode { n with own := p + 1, up := p + 1, waitAt := none })
    else
      (s1.route d (combPkt s1 d x k p (ownStation s1 d) 0 c b) 2).putOp d (o.setNode { n with own := p + 1 })

/-- A node has a position ready and no credit for it. -/
def State.creditHeld (s : State) (d : Nat) (o : ClrOp) (n : ClrNode) : State :=
  (s.putOp d (o.setNode { n with waitAt := some (n.waitAt.getD s.now) })).dcnt d 23 1

/-- One position of a node: an emitted round that waits for credit, else the next own contribution. -/
def State.position (s : State) (d : Nat) (o : ClrOp) (n : ClrNode) : State :=
  let x := o.q.desc
  let k := n.rec'
  match n.waits.find? (fun w => mayUp s x n w.1) with
  | some (p, m) =>
    (s.sendUp d x n p m.count m.payload).putOp d
      (o.setNode { n with waits := n.waits.erase (p, m), up := n.up + 1, waitAt := none })
  | none =>
    let leaf := Route.fanIn k == 1 && !Route.root k
    if n.own < Route.npos k ∧ (if leaf then mayUp s x n n.own else n.laps.getD (n.own % clrW x) 0 == n.own / clrW x)
    then s.sendOwn d o n
    else if n.waits ≠ [] ∨ (leaf ∧ n.own < Route.npos k) then s.creditHeld d o n
    else s

/-- The descriptor in flight at place `i`, while the engine may issue accesses. -/
def clrAt (s : State) (d i : Nat) : Option ClrOp :=
  if clrFree s d then ((s.die d).clr.ops[i]?).bind (fun o => if o.abort then none else some o) else none

/-- POSITION_SEND (R689, R691, R695, R696). -/
def execPositionSend (d : Die) (i : Fin 4) (r : Nat) (s : State) : Host.Outcome State Fault Refusal :=
  match clrAt s d i with
  | none => .next s
  | some o =>
    match o.node r with
    | none => .next s
    | some n => if n.ended then .next s else .next ((s.position d o n).reduceSettle d o.num)

/-! ## Rounds (R693 to R704) -/

/-- Rounds of a node that earn its children a grant (R696). -/
def eligible (x : Desc) (n : ClrNode) : Nat := Route.npos n.rec' - clrW x

/-- Add the owed grants to the credit tally of each child that is not late. -/
def State.grantAll (s : State) (d : Nat) (n : ClrNode) (amount : Nat) : State :=
  (((List.range (Route.fanIn n.rec')).drop 1).filter (fun i => !n.late.contains i)).foldl
    (fun s i => s.addTally d 66 (Route.child n.rec' i + 2 ^ 31) amount) s

/-- Count the grant of the round emitted at position `p`; a full batch, or the last one, is added (R696). -/
def State.grant (s : State) (d : Nat) (x : Desc) (n : ClrNode) (p : Nat) : ClrNode × State :=
  if Route.npos n.rec' ≤ p + clrW x then (n, s)
  else
    let n1 := { n with owed := n.owed + 1, elig := n.elig + 1 }
    if (clrW x + 1) / 2 ≤ n1.owed ∨ n1.elig = eligible x n then ({ n1 with owed := 0 }, s.grantAll d n n1.owed)
    else (n1, s)

/-- Send pads for inputs at a position (R710): zero payload, count 0, into the own cross. -/
def State.pads (s : State) (d : Nat) (o : ClrOp) (n : ClrNode) (p : Nat) : List Nat → State
  | [] => s
  | i :: is =>
    let s1 := (s.route d (combPkt s d o.q.desc n.rec' p (ownStation s d) i 0 (List.replicate 4096 0)) 2).dbrk d 25 1
    (if o.forced then s1.dbrk d 31 1 else s1).pads d o n p is

/-- A round of a node has been emitted, its entry armed again: grants, pads of late inputs at the new position. -/
def State.advanceEntry (s : State) (d : Nat) (o : ClrOp) (n : ClrNode) (p : Nat) : ClrNode × State :=
  let (n1, s1) := s.grant d o.q.desc n p
  let q := p + clrW o.q.desc
  (n1, if q < Route.npos n.rec' then s1.pads d o n1 q n1.late else s1)

/-- The largest magnitude of F32 values, as an F32 encoding; a NaN gives the canonical NaN. -/
def maxAbs32 (vs : List XV) : Nat :=
  if vs.any XV.isNan then f32.nan else r32 (maxMag vs)

/-- A delivered block's directory entry, and whether its values are replaced by zeros (R701 to R703). -/
def blockVerdict (x : Desc) (counts : List Nat) : Bool × Bool × Nat :=
  let hi := counts.foldl max 0
  let lo := counts.foldl min hi
  if lo ≠ hi then (true, false, dirEntry 0 hi (clrLayer x) true false false)
  else if hi < clrMin x then (false, true, dirEntry 0 hi (clrLayer x) true false false)
  else (false, false, dirEntry hi 0 (clrLayer x) true false (hi == 65535))

/-- Write a delivered block's entry, and zeros over its values where R702 or R703 empties it; the weighhouse takes its
max-abs and count (R701 to R704). -/
def State.blockDeliver (s : State) (d : Nat) (o : ClrOp) (grad dir i : Nat) (counts : List Nat) (maxAbs : Nat) :
    Except EngFail ClrOp × State :=
  let x := o.q.desc
  let (split, quorum, entry) := blockVerdict x counts
  let (z, s1) := if split || quorum then s.clrWrite d (grad + 0x4000 * i) (List.replicate 0x4000 0) else (none, s)
  match z with
  | some f => (.error f, s1)
  | none =>
    match s1.clrWrite d (dir + i * 8) (leBytes 8 entry) with
    | (some f, s2) => (.error f, s2)
    | (none, s2) =>
      if split then let (o1, s3) := (s2.dbrk d 28 1).clrOnce d o 5; (.ok o1, s3)
      else if quorum then let (o1, s3) := (s2.dbrk d 29 1).clrOnce d o 4; (.ok o1, s3)
      else
        let count := counts.foldl max 0
        if count = 0 then (.ok o, s2)
        else
          (.ok { o with gmax := max o.gmax maxAbs }, s2.normBlock d (clrTile x) (clrLayer x) (f32.dec maxAbs) count)

/-- The shard is delivered: the weighhouse observes the largest max-abs and judges (R239, R705). -/
def State.shardEnd (s : State) (d : Nat) (o : ClrOp) : State :=
  let (g, s1) := s.largest o.gmax
  (s1.observeG d (clrTile o.q.desc) (clrLayer o.q.desc) g).normJudge d (clrTile o.q.desc) (clrLayer o.q.desc)

/-- All four positions of block `i` are written at the root (R701, R794). -/
def State.rootBlock (s : State) (d : Nat) (o : ClrOp) (n : ClrNode) (i : Nat) : State :=
  let mine := n.got.filter (fun g => g.1 / 4 == i)
  let counts := mine.map (fun g => g.2.1)
  let n1 := { n with got := n.got.filter (fun g => g.1 / 4 != i), written := n.written + 1 }
  let x := o.q.desc
  if clrXorOn s d then
    let short := counts.any (fun c => decide (c < clrMin x))
    let s1 := s.putOp d (o.setNode n1)
    if short then (s1.dbrk d 33 1).record ⟨0x16, 3, 0⟩ (.die d)
      { clrInfo o.q with exc := true, detail := [BitVec.ofNat 64 (Route.grad n.rec' + 0x4000 * i)] } else s1
  else
    let m := mine.foldl (fun m g => slotMax m g.2.2) 0
    match s.blockDeliver d o (Route.grad n.rec') (Route.dir n.rec') i counts m with
    | (.error f, s1) => s1.clrFail d ⟨o.num, .rootEnd n.r i, f⟩
    | (.ok o1, s1) =>
      let s2 := s1.putOp d (o1.setNode n1)
      if n1.written = Route.len n.rec' then s2.shardEnd d o1 else s2

/-- The root writes an emitted round (R700), and ends the block when its four positions are written. -/
def State.rootWrite (s : State) (d : Nat) (o : ClrOp) (n : ClrNode) (p : Nat) (k : Packet) : State :=
  match s.clrWrite d k.addr.toNat k.payload with
  | (some f, s1) => s1.clrFail d ⟨o.num, .rootPos n.r p k, f⟩
  | (none, s1) =>
    let n1 := { n with got := n.got ++ [(p, k.count, maxAbs32 (f32List k.payload))] }
    let o1 := o.setNode n1
    let s2 := s1.putOp d o1
    if (n1.got.filter (fun g => g.1 / 4 == p / 4)).length = 4 then s2.rootBlock d o1 n1 (p / 4) else s2

/-- An emitted round of a node: the entry is armed for its next lap, or flushed where that is refused; the round goes
up, waits for credit, or is written at the root (R693 to R696, R700). -/
def State.nodeRound (s : State) (d : Nat) (o : ClrOp) (n : ClrNode) (e : Nat) (k : Packet) : State :=
  let x := o.q.desc
  let p := entryPos x n e
  let old := oldestPos x n
  let n1 := { n with laps := n.laps.set e (n.laps.getD e 0 + 1) }
  let n2 := if oldestPos x n1 = old then n1 else { n1 with oldestAt := s.now }
  let s1 := s.dcnt d 21 k.payload.length
  let (n3, s2) := match s1.arm x n.rec' (p + clrW x) with
    | (true, s2) => s2.advanceEntry d o n2 p
    | (false, s2) =>
      let fl := { mkPkt s2 d 0x12 (ownStation s2 d) 66 k.addr.toNat
          (4096 + 2 ^ 16 * clrEp x + (if clrXorOn s2 d then 2 ^ 24 else 0)) [] with
        tag := BitVec.ofNat 32 (clrKey x n.rec' p) }
      ({ n2 with stale := e :: n2.stale }, (s2.dbrk d 27 1).route d fl 2)
  if Route.root n.rec' then (s2.putOp d (o.setNode n3)).rootWrite d (o.setNode n3) n3 p k
  else if n3.waits = [] ∧ mayUp s2 x n3 p then
    (s2.sendUp d x n3 p k.count k.payload).putOp d (o.setNode { n3 with up := n3.up + 1, waitAt := none })
  else s2.putOp d (o.setNode { n3 with waits := n3.waits ++ [(p, k)], waitAt := some (n3.waitAt.getD s2.now) })

/-- The round a flush emitted is discarded and the entry armed (R694). -/
def State.staleRound (s : State) (d : Nat) (o : ClrOp) (n : ClrNode) (e : Nat) : State :=
  let x := o.q.desc
  let p := entryPos x n e - clrW x
  let n1 := { n with stale := n.stale.erase e }
  match s.arm x n.rec' (p + clrW x) with
  | (true, s1) => let (n2, s2) := s1.advanceEntry d o n1 p; s2.putOp d (o.setNode n2)
  | (false, s1) => s1.putOp d (o.setNode n1)

/-- The descriptor, node and entry a round belongs to. -/
def roundOf (s : State) (d : Nat) (k : Packet) : Option (ClrOp × ClrNode × Nat) :=
  let m := k.tag.toNat % 1024
  ((s.die d).clr.ops.flatMap (fun o => o.nodes.map (fun n => (o, n)))).findSome? (fun (o, n) =>
    let e := (m + 1024 - Route.base n.rec') % 1024
    if e < clrW o.q.desc ∧ !n.ended ∧ !o.abort ∧ (n.stale.contains e ∨ entryPos o.q.desc n e < Route.npos n.rec')
    then some (o, n, e) else none)

/-- A round handed to the engine. -/
def State.takeRound (s : State) (d : Nat) (k : Packet) : State :=
  match roundOf s d k with
  | none => s
  | some (o, n, e) =>
    if n.stale.contains e then s.staleRound d o n e else (s.nodeRound d o n e k).reduceSettle d o.num

/-- NODE_ROUND (R693 to R705, R794): a round emitted to the engine; it waits while an access of the engine fails. -/
def execNodeRound (d : Die) (k : Packet) (s : State) : Host.Outcome State Fault Refusal :=
  if !s.fabClk d then .next s
  else if !clrFree s d then .next (s.setClr d { (s.die d).clr with held := (s.die d).clr.held ++ [k] })
  else .next (s.takeRound d k)

/-! ## Deadlines (R706 to R711, R699) -/

/-- The deadline of a node or a target in always-on nanoseconds (R706, R734). -/
def clrDue (s : State) (d : Nat) (o : ClrOp) (k : List Byte) : Bool :=
  o.forced || decide (o.began + 1000 * (clrDl o.q.desc + Route.level k * s.g (Reg.clrCfg d) Reg.clrCfg_level_us) ≤ s.now)

/-- Child inputs missing from the round of position `p` that are not late yet. -/
def missing (s : State) (x : Desc) (n : ClrNode) (p : Nat) : List Nat :=
  let held := (combRound s (combDie n.rec') (clrKey x n.rec' p % 1024)).map Packet.index
  ((List.range (Route.fanIn n.rec')).drop 1).filter (fun i => !n.late.contains i && !held.contains i)

/-- Pad an input at every open position that lacks it (R710). -/
def State.padOpen (s : State) (d : Nat) (o : ClrOp) (n : ClrNode) (late : List Nat) : List Nat → State
  | [] => s
  | e :: es =>
    let p := entryPos o.q.desc n e
    let held := (combRound s (combDie n.rec') (clrKey o.q.desc n.rec' p % 1024)).map Packet.index
    let s1 := if p < Route.npos n.rec' then s.pads d o n p (late.filter (fun i => !held.contains i)) else s
    s1.padOpen d o n late es

/-- Declare late the children missing from the oldest round. -/
def State.declareLate (s : State) (d : Nat) (o : ClrOp) (n : ClrNode) : State :=
  let x := o.q.desc
  let late := missing s x n (oldestPos x n)
  let n1 := { n with judged := true, late := n.late ++ late }
  if late = [] then s.putOp d (o.setNode n1)
  else
    let (o1, s1) := s.clrOnce d (o.setNode n1) 3
    (s1.putOp d o1).padOpen d o1 n1 late (List.range (clrW x))

/-- The node at work that a deadline command names. -/
def clrNodeAt (s : State) (d i r : Nat) : Option (ClrOp × ClrNode) :=
  match clrAt s d i with
  | none => none
  | some o =>
    match o.node r with
    | none => none
    | some n => if n.ended ∨ Route.npos n.rec' ≤ oldestPos o.q.desc n then none else some (o, n)

/-- CLR_DEADLINE (R706, R707, R710, R734). -/
def execClrDeadline (d : Die) (i : Fin 4) (r : Nat) (s : State) : Host.Outcome State Fault Refusal :=
  match clrNodeAt s d i r with
  | none => .next s
  | some (o, n) => if n.judged || !clrDue s d o n.rec' then .next s else .next (s.declareLate d o n)

/-- CLR_STALL_LATE (R708, R710). -/
def execClrStallLate (d : Die) (i : Fin 4) (r : Nat) (s : State) : Host.Outcome State Fault Refusal :=
  match clrNodeAt s d i r with
  | none => .next s
  | some (o, n) =>
    if n.judged ∧ n.oldestAt + 1000 * s.g (Reg.clrCfg d) Reg.clrCfg_stall_us ≤ s.now then .next (s.declareLate d o n)
    else .next s

/-- CREDIT_ABANDON (R699). -/
def execCreditAbandon (d : Die) (i : Fin 4) (r : Nat) (s : State) : Host.Outcome State Fault Refusal :=
  match clrAt s d i with
  | none => .next s
  | some o =>
    match o.node r with
    | none => .next s
    | some n =>
      match n.waitAt with
      | none => .next s
      | some t =>
        let p := match n.waits with | (p, _) :: _ => p | [] => n.own
        if n.ended ∨ mayUp s o.q.desc n p ∨ s.now < t + 1000 * s.g (Reg.clrCfg d) Reg.clrCfg_stall_us then .next s
        else .next (((s.putOp d (o.setNode { n with ended := true, waits := [] })).dbrk d 26
          (Route.npos n.rec' - n.up)).reduceSettle d o.num)

/-! ## Direct form (R712 to R723) -/

/-- Values are sent as F16 (R712). -/
def clr16 (s : State) (d : Nat) (x : Desc) : Bool := clrMode16 x || s.on (Reg.clrCtl d) Reg.clrCtl_force16

/-- Bytes of a block in a slot (R716). -/
def slotBlock (h16 : Bool) : Nat := 64 + 4096 * (if h16 then 2 else 4)

/-- The address of rank `r`'s slot in the target's inbox (R716). -/
def slotAddr (x : Desc) (z : ClrSlot) (h16 : Bool) (r : Nat) : Nat :=
  z.inbox + (clrStep x % 2 * clrRankB x + r) * (64 + Route.len z.rec' * slotBlock h16)

/-- The scale exponent of a block (R718, R719): a block with a value that is not finite has no stated live scale, which
is then a free value (DESIGN CHOICE, log entry 41). -/
def State.liveExp (s : State) (d : Nat) (x : Desc) (vs : List XV) : Int × State :=
  let a := Reg.wghHist1 d (clrTile x) (histIx (clrLayer x))
  if clrLive x || s.on (Reg.clrCtl d) Reg.clrCtl_force16 || !s.on a Reg.wghHist1_g_valid then
    if vs.any (fun v => !v.isFinite) then (let (n, s1) := s.draw; (sgn 8 n, s1))
    else match maxMag vs with
      | .fin _ n m => (if n = 0 then 0 else clampI (-128) 127 (14 - XV.floorLog2 n m), s)
      | _ => (0, s)
  else (sgn 8 (s.g a Reg.wghHist1_xchg_exp), s)

/-- The header line and the values of a block as sent (R716, R717). -/
def State.slotBytes (s : State) (d : Nat) (x : Desc) (count : Nat) (b : List Byte) : (List Byte × List Byte) × State :=
  if clr16 s d x then
    let vs := f32List b
    let (e, s1) := s.liveExp d x vs
    let rs := vs.map (fun v => f16.round 0 0 false false (v.scale e))
    ((leBytes 2 count ++ leBytes 1 (encS 8 e) ++ leBytes 61 0, rs.flatMap (fun r => leBytes 2 r.bits)),
      s1.dbrk d 30 (rs.filter (·.sat)).length)
  else ((leBytes 2 count ++ leBytes 62 0, b), s)

/-- Send bytes of a descriptor to a destination in WRITE packets of up to 4 096 bytes. -/
def State.clrSend (s : State) (d num r dst a : Nat) : List (List Byte) → State
  | [] => s
  | b :: bs => (s.sendPkt d (.clr num r 1) (mkPkt s d 1 dst 66 a 0 b)).clrSend d num r dst (a + b.length) bs

/-- Send the next block of a slot (R716 to R719). -/
def State.slotSend (s : State) (d : Nat) (o : ClrOp) (z : ClrSlot) : State :=
  let x := o.q.desc
  match s.contrib d x (Route.start z.rec' + z.next) 0 0x4000 true with
  | (.error f, s1) => s1.clrFail d ⟨o.num, .slot z.r, f⟩
  | (.ok (b, c), s1) =>
    let h16 := clr16 s d x
    let ((h, v), s2) := s1.slotBytes d x c b
    let a := slotAddr x z h16 (clrRankA x) + 64 + z.next * slotBlock h16
    ((s2.clrSend d o.num z.r z.station a (h :: chunks 4 4096 v)).dcnt d 20 v.length).putOp d
      (o.setSlot { z with next := z.next + 1 })

/-- DIRECT_SLOT_SEND (R712 to R719): the next block of the slot of shard `r`. -/
def execDirectSlotSend (d : Die) (i : Fin 4) (r : Nat) (s : State) : Host.Outcome State Fault Refusal :=
  match clrAt s d i with
  | none => .next s
  | some o =>
    match o.slots.find? (fun z => z.r == r) with
    | none => .next s
    | some z => if z.phase = 0 ∧ z.next < Route.len z.rec' then .next (s.slotSend d o z) else .next s

/-- SLOT_HEADER_WRITE (R720): every other write of the slot is acknowledged, and the header line goes; its ACK makes the
arrival add. -/
def execSlotHeaderWrite (d : Die) (i : Fin 4) (r : Nat) (s : State) : Host.Outcome State Fault Refusal :=
  match clrAt s d i with
  | none => .next s
  | some o =>
    match o.slots.find? (fun z => z.r == r) with
    | none => .next s
    | some z =>
      if z.phase ≠ 0 ∨ z.next < Route.len z.rec' ∨ clrBusyTo s d o.num r then .next s
      else
        let x := o.q.desc
        let h16 := clr16 s d x
        let h := leBytes 2 (clrRankA x) ++ leBytes 1 (clrStep x) ++ leBytes 1 (clrEp x) ++
          leBytes 1 (h16.toNat + 2) ++ leBytes 59 0
        .next ((s.putOp d (o.setSlot { z with phase := 1 })).clrSend d o.num r z.station (slotAddr x z h16 (clrRankA x)) [h])

/-- Read the headers of the other ranks' slots: whether each has arrived (R721), with its F16 flag. -/
def State.slotHeads (s : State) (d : Nat) (x : Desc) (z : ClrSlot) : List Nat → Except EngFail (List (Nat × Option Bool)) × State
  | [] => (.ok [], s)
  | r :: rs =>
    if r = clrRankA x then
      (match s.slotHeads d x z rs with
        | (.ok l, s1) => (.ok ((r, none) :: l), s1)
        | e => e)
    else match s.clrRead d (slotAddr x z (clr16 s d x) r) 64 with
      | (.error f, s1) => (.error f, s1)
      | (.ok h, s1) =>
        let here := nbit (byteAt h 4) 1 && leAt h 0 2 == r && byteAt h 2 == clrStep x && byteAt h 3 == clrEp x
        match s1.slotHeads d x z rs with
        | (.ok l, s2) => (.ok ((r, if here then some (nbit (byteAt h 4) 0) else none) :: l), s2)
        | e => e

/-- Add one contribution to the sums of a block (R722). -/
def addScaled (acc : List Nat) (vs : List XV) (e : Int) : List Nat :=
  (acc.zip vs).map (fun (a, v) => r32 (XV.add (f32.dec a) (v.scale (-e))))

/-- Sum block `i` over the ranks in ascending order: sums and count (R722). -/
def State.sumBlock (s : State) (d : Nat) (x : Desc) (z : ClrSlot) (i : Nat) (acc : List Nat) (count : Nat) :
    List (Nat × Option Bool) → Except EngFail (List Nat × Nat) × State
  | [] => (.ok (acc, count), s)
  | (r, fl) :: rs =>
    if r = clrRankA x then
      match s.contrib d x (Route.start z.rec' + i) 0 0x4000 true with
      | (.error f, s1) => (.error f, s1)
      | (.ok (b, c), s1) => s1.sumBlock d x z i (addScaled acc (f32List b) 0) (satAdd 65535 count c) rs
    else match fl with
      | none => s.sumBlock d x z i acc count rs
      | some h16 =>
        let a := slotAddr x z (clr16 s d x) r + 64 + i * slotBlock (clr16 s d x)
        match s.clrRead d a (slotBlock h16) with
        | (.error f, s1) => (.error f, s1)
        | (.ok b, s1) =>
          let v := b.drop 64
          let vs := if h16 then (List.range 4096).map (fun j => f16.dec (leAt v (2 * j) 2)) else f32List v
          (s1.dcnt d 21 v.length).sumBlock d x z i (addScaled acc vs (sgn 8 (byteAt b 2)))
            (satAdd 65535 count (leAt b 0 2)) rs

/-- Sum and deliver the blocks of a target's shard from block `i` on (R722, R700 to R705). -/
def State.sumShard (s : State) (d : Nat) (o : ClrOp) (z : ClrSlot) (heads : List (Nat × Option Bool)) (i : Nat) :
    Nat → Except EngFail ClrOp × State
  | 0 => (.ok o, s)
  | n + 1 =>
    match s.sumBlock d o.q.desc z i (List.replicate 4096 0) 0 heads with
    | (.error f, s1) => (.error f, s1)
    | (.ok (acc, count), s1) =>
      match s1.clrWrite d (z.grad + 0x4000 * i) (acc.flatMap (leBytes 4)) with
      | (some f, s2) => (.error f, s2)
      | (none, s2) =>
        match s2.blockDeliver d o z.grad z.dir i [count] (maxAbs32 (acc.map f32.dec)) with
        | (.error f, s3) => (.error f, s3)
        | (.ok o1, s3) => s3.sumShard d o1 z heads (i + 1) n

/-- The target re-reads the headers, and sums when every slot has arrived or its deadline has passed (R721, R722). -/
def State.targetCheck (s : State) (d : Nat) (o : ClrOp) (z : ClrSlot) : State :=
  let x := o.q.desc
  match s.slotHeads d x z (List.range (clrRankB x)) with
  | (.error f, s1) => s1.clrFail d ⟨o.num, .target z.r, f⟩
  | (.ok heads, s1) =>
    if !(heads.all (fun h => h.1 == clrRankA x || h.2.isSome)) && !clrDue s1 d o z.rec' then s1
    else match s1.sumShard d o z heads 0 (Route.len z.rec') with
      | (.error f, s2) => s2.clrFail d ⟨o.num, .target z.r, f⟩
      | (.ok o1, s2) => ((s2.shardEnd d o1).putOp d (o1.setTarget { z with phase := 2 })).reduceSettle d o.num

/-- ARRIVAL_CHECK (R721 to R723): the target looks at the slots of shard `r`. -/
def execArrivalCheck (d : Die) (i : Fin 4) (r : Nat) (s : State) : Host.Outcome State Fault Refusal :=
  match clrAt s d i with
  | none => .next s
  | some o =>
    match o.targets.find? (fun z => z.r == r) with
    | none => .next s
    | some z => if z.phase = 2 then .next s else .next (s.targetCheck d o z)

/-! ## GATHER and PLACE (R726 to R729) -/

/-- Entries of 16 bytes of a list. -/
def State.clrList (s : State) (d a n : Nat) : Except EngFail (List (List Byte)) × State :=
  match s.clrRead d a (16 * n) with
  | (.error f, s1) => (.error f, s1)
  | (.ok b, s1) => (.ok (chunks n 16 b), s1)

/-- Send one block to every destination, in list order. -/
def State.gatherTo (s : State) (d num : Nat) (x : Desc) (i : Nat) (pair : List Byte) : Nat → List (List Byte) → State
  | _, [] => s
  | r, e :: es =>
    (s.clrSend d num r (leAt e 0 2) (leAt e 6 6 + i * clrPair x) [pair]).gatherTo d num x i pair (r + 1) es

/-- Send the blocks of a GATHER from where it stands (R726). -/
def State.gatherRun (s : State) (d : Nat) (o : ClrOp) (dests : List (List Byte)) : Nat → State
  | 0 => s.putOp d o
  | n + 1 =>
    let x := o.q.desc
    let i := o.next
    if clrN x ≤ i then s.putOp d o else
    match s.clrRead d (clrA x + i * clrImg x) (clrImg x) with
    | (.error f, s1) => (s1.putOp d o).clrFail d ⟨o.num, .run, f⟩
    | (.ok img, s1) =>
      match s1.clrRead d (clrC x + 256 * ((x.le 42 4 + i) % clrRankB x)) 256 with
      | (.error f, s2) => (s2.putOp d o).clrFail d ⟨o.num, .run, f⟩
      | (.ok dv, s2) => (s2.gatherTo d o.num x i (img ++ dv) 0 dests).gatherRun d { o with next := i + 1 } dests n

/-- The widened element of a column with divisor `c` (R728, R729). -/
def widen (x : Desc) (code : Nat) (c : XV) : Nat :=
  if !divisorOk c then 0
  else ((ffmt (clrBwdFmt x)).round x.roundMode 0 false false
    ((XV.mul (XV.ofInt (reading (clrFmt x) (clrSigned x) code)) c).scale (sgn 8 (x.b 55)))).bits

/-- Write the rows of an image into a weight set (R728). -/
def State.placeRows (s : State) (d wset : Nat) : List (List Byte) → Option EngFail × State
  | [] => (none, s)
  | b :: bs =>
    match s.clrWrite d wset b with
    | (some f, s1) => (some f, s1)
    | (none, s1) => s1.placeRows d (wset + 128) bs

/-- Place one block (R728, R729). -/
def State.placeBlock (s : State) (d : Nat) (x : Desc) (i : Nat) (e : List Byte) : Option EngFail × State :=
  match s.clrRead d (clrA x + i * clrPair x) (clrPair x) with
  | (.error f, s1) => (some f, s1)
  | (.ok b, s1) =>
    let img := b.take (clrImg x)
    let cs := (List.range 64).map (fun j => f32.dec (leAt b (clrImg x + 4 * j) 4))
    let (f1, s2) := if leAt e 0 6 = 0 then (none, s1)
      else s1.placeRows d (leAt e 0 6) (chunks 64 (8 * qBits (clrFmt x)) img)
    match f1 with
    | some f => (some f, s2)
    | none =>
      if leAt e 6 6 = 0 then (none, s2)
      else
        let codes := unpack img (qBits (clrFmt x))
        let z := fmtSize (clrBwdFmt x)
        let vals := (List.range 4096).flatMap (fun j => leBytes z (widen x (codes.getD j 0) (cs.getD (j % 64) XV.zero)))
        match s2.clrWrite d (leAt e 6 6) vals with
        | (some f, s3) => (some f, s3)
        | (none, s3) => (none, if clrFmt x = 2 then s3.dbrk d 32 (codes.filter (· == 2)).length else s3)

/-- Place blocks from where the PLACE stands; the last one completes it. -/
def State.placeRun (s : State) (d : Nat) (o : ClrOp) (l : List (List Byte)) : Nat → State
  | 0 => s.putOp d o
  | n + 1 =>
    if clrN o.q.desc ≤ o.next then (s.doneAdd d 66 o.q.desc).clrLeave d o.num else
    match s.placeBlock d o.q.desc o.next (l.getD o.next []) with
    | (some f, s1) => (s1.putOp d o).clrFail d ⟨o.num, .run, f⟩
    | (none, s1) => s1.placeRun d { o with next := o.next + 1 } l n

/-! ## PERMUTE (R733 to R737) -/

/-- Send the moves of a PERMUTE from where it stands (R735). -/
def State.moveRun (s : State) (d : Nat) (o : ClrOp) (l : List (List Byte)) : Nat → State
  | 0 => s.putOp d o
  | n + 1 =>
    let x := o.q.desc
    if clrN x ≤ o.next then s.putOp d { o with phase := 2, since := s.now } else
    let e := l.getD o.next []
    match s.clrRead d (leAt e 0 6) (leAt e 12 4) with
    | (.error f, s1) => (s1.putOp d o).clrFail d ⟨o.num, .run, f⟩
    | (.ok b, s1) =>
      (s1.clrSend d o.num (leAt e 6 2) (leAt e 6 2) (clrB x + leAt e 8 4) (chunks (b.length / 4096 + 1) 4096 b)).moveRun d
        { o with next := o.next + 1 } l n

/-- Add 1 to arrive_tally of every station of a PERMUTE whose writes are all acknowledged (R735). -/
def State.moveAdds (s : State) (d : Nat) (o : ClrOp) : List Nat → State
  | [] => s
  | st :: sts =>
    let o1 := (clrOp s d o.num).getD o
    if o1.marks.contains st || clrBusyTo s d o.num st then s.moveAdds d o sts
    else
      let tally := nfld (o.q.desc.le 42 2) 0 14 + 2 ^ 14 * d + 2 ^ 15 * st + 2 ^ 31
      ((s.putOp d { o1 with marks := st :: o1.marks }).addTally d 66 tally 1).moveAdds d o sts

/-- The stations of a move list. -/
def moveStations (l : List (List Byte)) : List Nat := (l.map (fun e => leAt e 6 2)).eraseDups

/-- Copy the staging of a PERMUTE to its final place in 64 KiB pieces (R736); `next` counts past the moves. -/
def State.finalRun (s : State) (d : Nat) (o : ClrOp) : Nat → State
  | 0 => s.putOp d o
  | n + 1 =>
    let x := o.q.desc
    let j := o.next - clrN x
    if clrRankB x ≤ j then
      ((s.tallyZero d (nfld (x.le 42 2) 0 14)).doneAdd d 66 x).clrLeave d o.num
    else match s.clrRead d (clrB x + 0x10000 * j) 0x10000 with
      | (.error f, s1) => (s1.putOp d o).clrFail d ⟨o.num, .run, f⟩
      | (.ok b, s1) =>
        match s1.clrWrite d (clrC x + 0x10000 * j) b with
        | (some f, s2) => (s2.putOp d o).clrFail d ⟨o.num, .run, f⟩
        | (none, s2) => s2.finalRun d { o with next := o.next + 1 } n

/-- Go on with the blocks or moves of a descriptor. -/
def State.clrRun (s : State) (d : Nat) (o : ClrOp) : State :=
  let x := o.q.desc
  match clrKind x with
  | 1 =>
    match s.clrList d (clrB x) (clrRankA x) with
    | (.error f, s1) => s1.clrFail d ⟨o.num, .run, f⟩
    | (.ok l, s1) => s1.gatherRun d o l (clrN x + 1)
  | 2 =>
    match s.clrList d (clrB x) (clrN x) with
    | (.error f, s1) => s1.clrFail d ⟨o.num, .run, f⟩
    | (.ok l, s1) => s1.placeRun d o l (clrN x + 1)
  | 3 =>
    if o.phase = 3 then s.finalRun d o (clrRankB x + 1)
    else match s.clrList d (clrA x) (clrN x) with
      | (.error f, s1) => s1.clrFail d ⟨o.num, .run, f⟩
      | (.ok l, s1) => (s1.moveRun d o l (clrN x + 1)).moveAdds d o (moveStations l)
  | _ => s

/-- Judge the list of a GATHER or a PLACE, then begin it (R742). -/
def State.listBegin (s : State) (d : Nat) (q : QDesc) (n : Nat) (bad : List Byte → Bool) : State :=
  match s.clrList d (clrB q.desc) n with
  | (.error f, s1) => s1.clrFail d ⟨0, .begin, f⟩
  | (.ok l, s1) =>
    if l.any bad then s1.clrRefuse d q
    else
      let o := clrFresh s1 d q
      (s1.clrEnter d o).clrRun d o

/-- The list of a GATHER entry or a PLACE entry offends (R742). -/
def gatherBad (e : List Byte) : Bool := leAt e 6 6 % 64 != 0 || leAt e 12 4 != 0 || decide (2 ^ 31 ≤ leAt e 2 4)
def placeBad (x : Desc) (e : List Byte) : Bool :=
  leAt e 0 6 % 64 != 0 || leAt e 6 6 % 64 != 0 || leAt e 12 4 != 0 ||
    (leAt e 6 6 != 0 && !(7 ≤ clrBwdFmt x && clrBwdFmt x ≤ 10))

/-- The beginning of a descriptor of each kind. -/
def State.clrStart (s : State) (d : Nat) (q : QDesc) : State :=
  match clrKind q.desc with
  | 0 => s.reduceBegin d q
  | 1 => s.listBegin d q (clrRankA q.desc) gatherBad
  | 2 => s.listBegin d q (clrN q.desc) (placeBad q.desc)
  | _ => s.clrEnter d (clrFresh s d q)

/-- The head descriptor of a kind begins. -/
def State.clrBegin (s : State) (d kind : Nat) : State :=
  match s.clrHead d kind with
  | (none, s1) => s1
  | (some q, s1) => s1.clrStart d q

/-- REDUCE (R682, R692, R697, R712, R713, R724, R732, R793). -/
def execReduce (d : Die) (s : State) : Host.Outcome State Fault Refusal := .next (s.clrBegin d 0)
/-- GATHER (R724, R726). -/
def execGather (d : Die) (s : State) : Host.Outcome State Fault Refusal := .next (s.clrBegin d 1)
/-- PLACE (R724, R728, R729). -/
def execPlace (d : Die) (s : State) : Host.Outcome State Fault Refusal := .next (s.clrBegin d 2)
/-- PERMUTE (R733). -/
def execPermute (d : Die) (s : State) : Host.Outcome State Fault Refusal := .next (s.clrBegin d 3)

/-- GATHER_ARRIVAL_ADD (R727): every write to destination `r` is acknowledged; the last add completes the GATHER. -/
def execGatherArrivalAdd (d : Die) (i : Fin 4) (r : Nat) (s : State) : Host.Outcome State Fault Refusal :=
  match clrAt s d i with
  | none => .next s
  | some o =>
    let x := o.q.desc
    if clrKind x ≠ 1 ∨ o.next < clrN x ∨ clrRankA x ≤ r ∨ o.marks.contains r ∨ clrBusyTo s d o.num r then .next s
    else match s.clrRead d (clrB x + 16 * r) 16 with
      | (.error f, s1) => .next (s1.clrFail d ⟨o.num, .run, f⟩)
      | (.ok e, s1) =>
        let o1 := { o with marks := r :: o.marks }
        let tally := nfld (leAt e 2 4) 0 31 + 2 ^ 31
        let s2 := (s1.putOp d o1).addTally d 66 tally 1
        if o1.marks.length = clrRankA x then .next ((s2.doneAdd d 66 x).clrLeave d o.num) else .next s2

/-- A REDUCE of an older epoch is in flight. -/
def olderReduce (s : State) (d : Nat) : Bool :=
  (s.die d).clr.ops.any (fun o => clrKind o.q.desc == 0 && epochLag s d (clrEp o.q.desc) != 0 &&
    decide (epochLag s d (clrEp o.q.desc) < 128))

/-- Force the older REDUCEs of a die to their deadline (R734). -/
def State.forceOlder (s : State) (d : Nat) : State :=
  let c := (s.die d).clr
  s.setClr d { c with ops := c.ops.map (fun o =>
    if clrKind o.q.desc = 0 ∧ epochLag s d (clrEp o.q.desc) ≠ 0 ∧ epochLag s d (clrEp o.q.desc) < 128
    then { o with forced := true } else o) }

/-- The epoch of a PERMUTE is written and its moves are sent (R735). -/
def State.permuteMove (s : State) (d : Nat) (o : ClrOp) : State :=
  (s.p (Reg.clrEpoch d) Reg.clrEpoch_epoch (clrEp o.q.desc)).clrRun d { o with phase := 1 }

/-- PERMUTE_FENCE_END (R733 to R735). -/
def execPermuteFenceEnd (d : Die) (i : Fin 4) (s : State) : Host.Outcome State Fault Refusal :=
  match clrAt s d i with
  | none => .next s
  | some o =>
    let x := o.q.desc
    if clrKind x ≠ 3 then .next s
    else match o.phase with
      | 0 =>
        if clrMin x ≤ tVal s d (nfld (x.le 46 2) 0 14) then .next (s.permuteMove d o)
        else if o.began + 1000 * x.le 54 2 ≤ s.now then
          let s1 := (s.forceOlder d).raise ⟨0x16, 0, 7⟩ (.die d) (clrInfo o.q)
          .next (if olderReduce s1 d then s1.putOp d { o with phase := 1 } else s1.permuteMove d o)
        else .next s
      | 1 => if olderReduce s d ∨ o.next ≠ 0 then .next s else .next (s.permuteMove d o)
      | _ => .next s

/-- PERMUTE_ARRIVE_END (R736, R737). -/
def execPermuteArriveEnd (d : Die) (i : Fin 4) (s : State) : Host.Outcome State Fault Refusal :=
  match clrAt s d i with
  | none => .next s
  | some o =>
    let x := o.q.desc
    if clrKind x ≠ 3 ∨ o.phase ≠ 2 then .next s
    else if clrRankA x ≤ tVal s d (nfld (x.le 42 2) 0 14) then .next (s.clrRun d { o with phase := 3 })
    else if o.since + 1000 * x.le 54 2 ≤ s.now then
      .next ((s.clrLeave d o.num).raise ⟨0x16, 0, 8⟩ (.die d) (clrInfo o.q))
    else .next s

/-! ## Acknowledgements, retries, resume, abort (R743) -/

/-- A packet of the engine is answered: its descriptor is `num`, its destination `r`, its attempt `n`. -/
def State.clrAck (s : State) (d num r n : Nat) (k : Packet) (status cause : Nat) : State :=
  match clrOp s d num with
  | none => s
  | some o =>
    if o.abort then (if clrBusy s d num then s else s.clrLeave d num)
    else if status ≠ 0 then s.clrFail d ⟨num, .packet r, ⟨true, k.addr.toNat, cause, n, some k⟩⟩
    else match clrKind o.q.desc with
      | 0 =>
        match o.slots.find? (fun z => z.r == r) with
        | some z =>
          if z.phase = 1 ∧ !clrBusyTo s d num r then
            ((s.putOp d (o.setSlot { z with phase := 2 })).addTally d 66 (z.tally + 2 ^ 31) 1).reduceSettle d num
          else s
        | none => s
      | 3 => if o.phase = 2 then s.moveAdds d o [r] else s
      | _ => s

/-- Do again what a failing access belongs to. -/
def State.clrAgain (s : State) (d : Nat) (f : ClrFail) (n : Nat) : State :=
  match f.what, f.f.pkt, clrOp s d f.num with
  | .begin, _, _ => (match (s.die d).clrQ with | q :: _ => s.clrStart d q | [] => s)
  | .packet r, some k, some _ => s.sendPkt d (.clr f.num r n) k
  | .position r, _, some o => (match o.node r with | some m => (s.position d o m).reduceSettle d f.num | none => s)
  | .rootPos r p k, _, some o =>
    (match o.node r with | some m => (s.rootWrite d o m p k).reduceSettle d f.num | none => s)
  | .rootEnd r i, _, some o => (match o.node r with | some m => (s.rootBlock d o m i).reduceSettle d f.num | none => s)
  | .slot r, _, some o => (match o.slots.find? (fun z => z.r == r) with | some z => s.slotSend d o z | none => s)
  | .target r, _, some o => (match o.targets.find? (fun z => z.r == r) with | some z => s.targetCheck d o z | none => s)
  | .run, _, some o => s.clrRun d o
  | _, _, _ => s

/-- Take the rounds held while an access failed. -/
def State.takeHeld (s : State) (d : Nat) : Nat → State
  | 0 => s
  | n + 1 =>
    let c := (s.die d).clr
    match c.fails, c.held with
    | [], k :: ks => ((s.setClr d { c with held := ks }).takeRound d k).takeHeld d n
    | _, _ => s

/-- Issue the failing access `f` at the front again; `n` is the number of this attempt. -/
def State.clrRedo (s : State) (d : Nat) (f : ClrFail) (n : Nat) : State :=
  let c := (s.die d).clr
  let s1 := (s.setClr d { c with fails := c.fails.tail, halted := false }).clrAgain d f n
  let c1 := (s1.die d).clr
  match c1.fails.getLast? with
  | some g =>
    if g.f.pkt.isNone ∧ g.f.addr = f.f.addr ∧ g.f.write = f.f.write ∧ !c1.halted ∧ c1.fails.length = c.fails.length then
      let g' : ClrFail := { g with f := { g.f with attempts := n } }
      let s2 := s1.setClr d { c1 with fails := g' :: c1.fails.dropLast }
      if s1.g (Reg.clrCfg d) Reg.clrCfg_retry_max < n then s2.clrHalt d g' (clrQOf s2 d g') else s2
    else s1
  | none => s1.takeHeld d c1.held.length

/-- CLR_RETRY (R542, R743). -/
def execClrRetry (d : Die) (s : State) : Host.Outcome State Fault Refusal :=
  match (s.die d).clr.fails with
  | f :: _ => if (s.die d).clr.halted || !s.fabClk d then .next s else .next (s.clrRedo d f (f.f.attempts + 1))
  | [] => .next s

/-- Resume a halted engine (R546, R743). -/
def State.clrResume (s : State) (d : Nat) : State :=
  match (s.die d).clr.halted, (s.die d).clr.fails with
  | true, f :: _ => (s.p (Reg.clrErr d) Reg.clrErr_cause 0).clrRedo d f 1
  | _, _ => s

/-- CLR_RESUME (R743). -/
def execClrResume (r : Requester) (d : Die) (s : State) : Host.Outcome State Fault Refusal :=
  .next (s.regWr r (Reg.clrCtl d) (fun s => s.clrResume d))

/-- Abort every descriptor in flight, and one whose beginning fails (R547, R743, R782): each completes without its
completion add once its packets are answered. -/
def State.clrAbort (s : State) (d : Nat) : State :=
  let c := (s.die d).clr
  let s1 := if c.fails.any (fun f => f.what == .begin) then s.engPop d 66 else s
  let ops := (c.ops.filter (fun o => clrBusy s d o.num)).map (fun o => { o with abort := true })
  s1.setClr d { c with ops := ops, fails := [], halted := false, held := [] }

/-- CLR_ABORT (R743). -/
def execClrAbort (r : Requester) (d : Die) (s : State) : Host.Outcome State Fault Refusal :=
  .next (s.regWr r (Reg.clrCtl d) (fun s => s.clrAbort d))

end Sys2Proof.Machine
end

