-- ==== Sys2Proof/Machine/Acks.lean ====
section
/-! DEFINITION. Acknowledgements and acknowledgement timeouts, and what they mean to each source unit (R393, R597, R640
to R644, R1091, R1097). -/

namespace Sys2Proof.Machine

/-- A parity delta cannot be delivered (R597). -/
def State.parityLost (s : State) (d t : Nat) : State :=
  let s1 := s.inc32 (Reg.prtParLost d) 1
  (s1.p (Reg.prtTable0 d t) Reg.prtTable0_par_stale 1).raise ⟨0x17, 0, 3⟩ (.die d) { source := t }

/-- The source unit of a tracked packet takes its status: 0, or an access error or a loss under its own rules (R644). -/
def State.ownerTakes (s : State) (d : Nat) (x : Track) (status cause : Nat) : State :=
  let a := x.pkt.addr.toNat
  let bad := status != 0
  match x.owner with
  | .tallyAdd addr => if bad then s.remoteLost d addr else s
  | .cnv t issue => if bad then s.withhold d t issue 0x03 a cause else s
  | .mirror n => (if bad then s.mirrorLost d n a cause else s).mirrorSettle d
  | .parity t => if bad then s.parityLost d t else s
  | .porter n => s.prtAck d n x.pkt status cause
  | .chan c b n => s.chAck (.die (Fin.ofNat 2 d) (Fin.ofNat 16 c)) b n x.pkt.payload status cause
  | .clr m r n => s.clrAck d m r n x.pkt status cause
  | .warden => s

/-- Release a tracked packet; the oldest held one, if any, takes its place (R641). -/
def State.untrack (s : State) (d tag : Nat) : State :=
  let x := s.die d
  let s1 := s.setDie d { x with track := x.track.filter (fun t => t.tag != tag), heldPkts := x.heldPkts.tail }
  match x.heldPkts with
  | (o, k) :: _ => s1.sendPkt d o k
  | [] => s1

/-- The tracked packet of a tag. -/
def tracked (s : State) (d tag : Nat) : Option Track := (s.die d).track.find? (fun t => t.tag == tag)

/-- ACK (R643, R644, R1097). -/
def execAckPkt (k : Packet) (s : State) : Host.Outcome State Fault Refusal :=
  let d := k.unit.toNat % 2
  if k.typ ≠ 2 ∨ !isOwn s d k.dst.toNat then .next s
  else if k.bad then .next (s.pktBad d)
  else match tracked s d k.tag.toNat with
    | none => .next (s.dbrk d 116 1)
    | some x => .next ((s.untrack d x.tag).ownerTakes d x (nfld k.ext.toNat 0 4) (nfld k.ext.toNat 4 4))

/-- ACK_TIMEOUT (R642): the packet of tag `n` has had no ACK for ack_timeout_us. -/
def execAckTimeout (d : Die) (n : Nat) (s : State) : Host.Outcome State Fault Refusal :=
  match tracked s d n with
  | none => .next s
  | some x =>
    if x.sent + 1000 * s.g (Reg.lnkCfg d) Reg.lnkCfg_ack_timeout_us ≤ s.now then
      .next ((((s.dbrk d 115 1).raise ⟨0x15, 0, 2⟩ (.die d)).untrack d n).ownerTakes d x 4 0)
    else .next s

end Sys2Proof.Machine
end

