-- ==== Sys2Proof/Machine/Flash.lean ====
section
/-! DEFINITION. The flash devices and what the steward keeps in them: the image directory, version floors, key-state
entries, firmware slots (R1014 to R1028, R1039 to R1042). -/

namespace Sys2Proof.Machine

/-- SHAKE256 with 32 output bytes (PRESUMED, log entry 6). -/
def shake32 (x : List Byte) : List Byte := padTo 0 32 (Config.shake256 x 32)

/-- KMAC256 with a 32-byte tag (PRESUMED, log entry 6). -/
def kmac32 (key x : List Byte) (custom : String) : List Byte :=
  padTo 0 32 (Config.kmac256 key x 32 (custom.toList.map (fun c => BitVec.ofNat 8 c.toNat)))

/-! ## Bytes -/

/-- Size of a flash device. -/
def flashSize : Nat := 2 ^ 27

/-- One byte of flash device `v` (0 A, 1 B). -/
def flashByte (s : State) (v off : Nat) : Byte := SMap.get (fun _ => (0xFF : Byte)) s.m.flash.bytes (v * flashSize + off)

/-- `n` bytes of a flash device. -/
def flashRead (s : State) (v off n : Nat) : List Byte := (List.range n).map (fun i => flashByte s v (off + i))

/-- Replace the flash bytes. -/
def State.setFlash (s : State) (f : FlashS) : State := s.setM { s.m with flash := f }

/-- Set consecutive flash bytes by key. -/
def flashPutBytes (m : List (Nat × Byte)) (k : Nat) : List Byte → List (Nat × Byte)
  | [] => m
  | b :: bs => flashPutBytes (SMap.set (fun _ => (0xFF : Byte)) m k b) (k + 1) bs

/-- Program bytes of a flash device: a bit changes only from 1 to 0 (DESIGN CHOICE, log entry 20). -/
def State.flashWrite (s : State) (v off : Nat) (bs : List Byte) : State :=
  let old := flashRead s v off bs.length
  s.setFlash { s.m.flash with
    bytes := flashPutBytes s.m.flash.bytes (v * flashSize + off) ((old.zip bs).map (fun p => p.1 &&& p.2)) }

/-- Erase a range of a flash device: every byte reads 0xFF. -/
def State.flashErase (s : State) (v off n : Nat) : State :=
  let lo := v * flashSize + off
  s.setFlash { s.m.flash with bytes := SMap.drop (fun k => decide (lo ≤ k ∧ k < lo + n)) s.m.flash.bytes }

/-- Write a region held in both devices: device A, then device B (R1015). -/
def State.flashBoth (s : State) (off : Nat) (bs : List Byte) : State := (s.flashWrite 0 off bs).flashWrite 1 off bs

/-- A piece of flash is fully erased. -/
def erased (bs : List Byte) : Bool := bs.all (· == 0xFF)

/-- Replace the security state. -/
def State.setSec (s : State) (x : SecS) : State := s.setM { s.m with sec := x }

/-- Raise an event of the SEC block. -/
def State.secRaise (s : State) (bit : Nat) : State := s.raise ⟨0x22, 0, bit⟩ .module

/-! ## Image directory (R1021, R1026) -/

/-- A directory entry: sequence, slot, mode. -/
structure DirE where
  seq : Nat
  slot : Nat
  mode : Nat
  deriving DecidableEq, Repr

/-- A directory entry that counts: its CRC matches (R1021). -/
def imageEntry (b : List Byte) : Option DirE :=
  if !erased b && crc32 (b.take 60) == leAt b 60 4 then some ⟨leAt b 0 8, byteAt b 8, byteAt b 9⟩ else none

/-- The counting entries of both devices. -/
def dirEntries (s : State) : List DirE :=
  [0, 1].flatMap (fun v => (chunks 1024 64 (flashRead s v 0 65536)).filterMap imageEntry)

/-- The entry of highest sequence among a list. -/
def newest (p : DirE → Bool) : List DirE → Option DirE
  | [] => none
  | e :: es => match newest p es with
    | some x => if p e && x.seq ≤ e.seq then some e else some x
    | none => if p e then some e else none

/-- The latest entry (R1022). -/
def latestDir (s : State) : Option DirE := newest (fun _ => true) (dirEntries s)

/-- The first erased position of a device's directory. -/
def dirFree (s : State) (v : Nat) : Option Nat :=
  (chunks 1024 64 (flashRead s v 0 65536)).findIdx? erased

/-- Erase and rewrite a full directory with the latest entry, device B first (R1026). -/
def State.dirCompact (s : State) : State :=
  let keep := (latestDir s).bind (fun e => [0, 1].findSome? (fun v =>
    (chunks 1024 64 (flashRead s v 0 65536)).find? (fun b => imageEntry b == some e)))
  match keep with
  | some b => (((s.flashErase 1 0 65536).flashWrite 1 0 b).flashErase 0 0 65536).flashWrite 0 0 b
  | none => s

/-- Write a directory entry: sequence one above the highest in either device, to device A and then B (R1015, R1021). -/
def State.dirWrite (s : State) (slot mode version : Nat) : State :=
  let s1 := if (dirFree s 0).isNone || (dirFree s 1).isNone then s.dirCompact else s
  let seq := match latestDir s1 with | some e => e.seq + 1 | none => 0
  let b := padTo 0 60 (leBytes 8 seq ++ [BitVec.ofNat 8 slot, BitVec.ofNat 8 mode, 0, 0] ++ leBytes 4 version)
  let e := b ++ leBytes 4 (crc32 b)
  let put (s : State) (v : Nat) : State := match dirFree s v with | some i => s.flashWrite v (64 * i) e | none => s
  put (put s1 0) 1

/-! ## Version floor (R1027, R1028) -/

/-- Offset of the version-floor records: behind the open-pitch record's 4 KiB (DESIGN CHOICE, log entry 20). -/
def floorOff : Nat := 0x301000
/-- How many version-floor records the region holds. -/
def floorMax : Nat := 960

/-- The tag of a version-floor record. -/
def floorTag (b : List Byte) : List Byte :=
  kmac32 Config.deviceKey (b.take 32) "SL4 FLOOR"

/-- Version-floor records whose tag matches: (sequence, floor). -/
def floors (s : State) : List (Nat × Nat) :=
  [0, 1].flatMap (fun v => (chunks floorMax 64 (flashRead s v floorOff (64 * floorMax))).filterMap (fun b =>
    if b.drop 32 = floorTag b then some (leAt b 4 8, leAt b 0 4) else none))

/-- The record of highest sequence. -/
def topFloor : List (Nat × Nat) → Option (Nat × Nat)
  | [] => none
  | x :: xs => match topFloor xs with
    | some y => if y.1 ≤ x.1 then some x else some y
    | none => some x

/-- The version floor (R1027, R1028). -/
def versionFloor (s : State) : Nat := match topFloor (floors s) with | some (_, f) => f | none => 0

/-- Write a version-floor record to both devices. -/
def State.floorWrite (s : State) (v : Nat) : State :=
  let seq := match topFloor (floors s) with | some (n, _) => n + 1 | none => 0
  let b := padTo 0 32 (leBytes 4 v ++ leBytes 8 seq)
  let r := b ++ floorTag b
  let put (s : State) (dev : Nat) : State :=
    match (chunks floorMax 64 (flashRead s dev floorOff (64 * floorMax))).findIdx? erased with
    | some i => s.flashWrite dev (floorOff + 64 * i) r
    | none => (s.flashErase dev floorOff (64 * floorMax)).flashWrite dev floorOff r
  (put (put s 0) 1).p Reg.secVersion Reg.secVersion_floor v

/-! ## Firmware slots (R1017 to R1020) -/

/-- Offset of block `n` of a slot. -/
def imageOff (n : Nat) : Nat := 0x1000000 + 4096 * n

/-- Block `n` of slot `v`. -/
def imageBlock (s : State) (v n : Nat) : List Byte := flashRead s v (imageOff n) 4096

/-- The sections of an image header: first payload block and block count of steward, warden and shell. -/
def imageSection (h : List Byte) (k : Nat) : Nat × Nat := (leAt h (16 + 8 * k) 4, leAt h (20 + 8 * k) 4)

/-- The header digest (R1019). -/
def headerDigest (h : List Byte) : List Byte := shake32 (h.take 192)

/-- Check 2 of R1020. -/
def headOk (h : List Byte) : Bool :=
  let n := leAt h 12 4
  leAt h 0 4 == 0x534C4657 && leAt h 4 2 == 1 && decide (1 ≤ n ∧ n ≤ 4091) &&
    [0, 1, 2].all (fun k => decide ((imageSection h k).1 + (imageSection h k).2 ≤ n))

/-- Checks 2 to 6 of R1020 on an image header: 0 when all pass. -/
def headCause (s : State) (h : List Byte) : Nat :=
  if !headOk h then 2
  else if shake32 (slice h 192 68) ≠ Config.fwKeyDigest then 3
  else if !Config.xmssVerify (slice h 192 68) (headerDigest h) (slice h 260 2820) then 4
  else if byteAt h 6 < s.m.sec.epoch then 5
  else if leAt h 8 4 < versionFloor s then 6
  else 0

/-- The first `n` entries of the check table of a slot, as bytes (R1018). -/
def checkTable (s : State) (v n : Nat) : List Byte := flashRead s v (imageOff 1) (4 * n)

/-- Check 7 of R1020. -/
def tableOk (s : State) (v : Nat) (h : List Byte) : Bool :=
  decide (shake32 (checkTable s v (leAt h 12 4)) = slice h 160 32)

/-- Check 8 of R1020 on payload block `b` with contents `c`. -/
def blockOk (s : State) (v b : Nat) (c : List Byte) : Bool := crc32 c == leAt (flashRead s v (imageOff 1 + 4 * b) 4) 0 4

/-- Checks 8 and 9 on section `k` of a slot: the failing check, or 0. -/
def sectionCause (s : State) (v : Nat) (h : List Byte) (k : Nat) : Nat :=
  let (first, n) := imageSection h k
  if !(List.range n).all (fun i => blockOk s v (first + i) (imageBlock s v (5 + first + i))) then 8
  else if shake32 (flashRead s v (imageOff (5 + first)) (4096 * n)) ≠ slice h (64 + 32 * k) 32 then 9
  else 0

/-- The cause code of a slot, reading the sections of `ks`; `ans` says whether the device answers (R1020). -/
def imageCause (s : State) (v : Nat) (ans : Bool) (ks : List Nat) : Nat :=
  let h := imageBlock s v 0
  if !ans then 1
  else if headCause s h ≠ 0 then headCause s h
  else if !tableOk s v h then 7
  else ((ks.map (sectionCause s v h)).find? (· != 0)).getD 0

/-! ## Identity key (R1039 to R1042) -/

/-- Index block `b` is reserved (R1039). -/
def keyReserved (s : State) (b : Nat) : Bool :=
  [0, 1].any (fun v => !erased (flashRead s v (0x200000 + 8 * b) 8))

/-- One above the highest reserved block, among the first `n`. -/
def keyNextBlock (s : State) : Nat → Nat
  | 0 => 0
  | n + 1 => if keyReserved s n then n + 1 else keyNextBlock s n

/-- Unreserved blocks. -/
def keyLeft (s : State) : Nat := 4096 - keyNextBlock s 4096

/-- The next index to sign with; 2^20 when spent (SEC_KEY). -/
def keyIndex (s : State) : Nat :=
  match s.m.sec.keyBlk with
  | some r => if s.m.sec.keyNext < 256 then 256 * r + s.m.sec.keyNext else 256 * keyNextBlock s 4096
  | none => 256 * keyNextBlock s 4096

/-- Offset of the node cache (R1014). -/
def cacheOff : Nat := 0x400000

/-- The bytes a device lists in the node cache's region, by offset. -/
def cacheBytes (s : State) (v : Nat) : List (Nat × Byte) :=
  let lo := v * flashSize + cacheOff
  (s.m.flash.bytes.filter (fun e => decide (lo ≤ e.1 ∧ e.1 < lo + 0x400000))).map (fun e => (e.1 - lo, e.2))

/-- Show in SEC_KEY.cache_ok whether a device holds a node cache that passes its digest (R1043). -/
def State.cacheShow (s : State) : State :=
  s.p Reg.secKey Reg.secKey_cache_ok (Config.nodeCacheOk (cacheBytes s 0) || Config.nodeCacheOk (cacheBytes s 1)).toNat

/-- Show the key state in SEC_KEY, and raise EV_SEC_KEY_LOW once per start (R1042). -/
def State.keyShow (s : State) : State :=
  let s1 := (s.p Reg.secKey Reg.secKey_next_index (keyIndex s)).p Reg.secKey Reg.secKey_blocks_left (keyLeft s)
  if keyLeft s < 64 ∧ !s.m.sec.lowSaid then (s1.setSec { s1.m.sec with lowSaid := true }).secRaise 6 else s1

/-- Reserve the next index block (R1040); false when none is left. -/
def State.keyReserve (s : State) : Bool × State :=
  let r := keyNextBlock s 4096
  if r < 4096 then
    let s1 := s.flashBoth (0x200000 + 8 * r) (leBytes 4 r ++ leBytes 4 (0xFFFFFFFF - r))
    (true, s1.setSec { s1.m.sec with keyBlk := some r, keyNext := 0 })
  else (false, s)

/-- Rebuild the node cache in both devices where its digest failed (R1043). -/
def State.cacheRebuild (s : State) : State :=
  if s.on Reg.secKey Reg.secKey_cache_ok then s
  else (((s.flashErase 0 cacheOff 0x400000).flashErase 1 cacheOff 0x400000).flashBoth cacheOff
    (Config.nodeCache.take 0x400000)).p Reg.secKey Reg.secKey_cache_ok 1

/-- Sign a message with the identity key (R1040, R1041): none when no index remains. -/
def State.sign (s : State) (msg : List Byte) : Option (List Byte) × State :=
  let (ok, s1) := match s.m.sec.keyBlk with
    | some _ => if s.m.sec.keyNext < 256 then (true, s) else s.keyReserve
    | none => s.keyReserve
  match ok, s1.m.sec.keyBlk with
  | true, some r =>
    let s1 := s1.cacheRebuild
    let sig := padTo 0 2820 (Config.xmssSign (256 * r + s1.m.sec.keyNext) msg)
    (some sig, (s1.setSec { s1.m.sec with keyNext := s1.m.sec.keyNext + 1 }).keyShow)
  | _, _ => (none, s1.secRaise 7)

end Sys2Proof.Machine
end

