-- ==== Sys2Proof/Machine/Furnish.lean ====
section
/-! DEFINITION. The furnish: validating the two copies, choosing identity and settings, and what the wardens write from
it (R868 to R882). -/

namespace Sys2Proof.Machine

/-- Offset of the furnish region in each device, and its size (R882). -/
def furnOff : Nat := 0x100000
def furnSize : Nat := 0x100000

/-- `n` bytes at `off` of the furnish copy in device `v`. -/
def furnRead (s : State) (v off n : Nat) : List Byte := flashRead s v (furnOff + off) n

/-- The fields of a furnish header (R869). -/
structure FurnHead where
  magic : Nat
  length : Nat
  seq : Nat
  identVer : Nat
  setVer : Nat
  identOff : Nat
  identLen : Nat
  setOff : Nat
  setLen : Nat
  crcOk : Bool
  identDigest : List Byte
  setDigest : List Byte
  deriving DecidableEq, Repr

/-- The header of a copy. -/
def furnHead (s : State) (v : Nat) : FurnHead :=
  let h := furnRead s v 0 128
  { magic := leAt h 0 4, length := leAt h 4 4, seq := leAt h 8 4, identVer := leAt h 12 2, setVer := leAt h 14 2
    identOff := leAt h 16 4, identLen := leAt h 20 4, setOff := leAt h 24 4, setLen := leAt h 28 4
    crcOk := crc32 (h.take 32) == leAt h 32 4, identDigest := slice h 64 32, setDigest := slice h 96 32 }

/-- The identity and settings parts of a copy. -/
def furnIdent (s : State) (v : Nat) : List Byte := furnRead s v (furnHead s v).identOff (furnHead s v).identLen
def furnSet (s : State) (v : Nat) : List Byte := furnRead s v (furnHead s v).setOff (furnHead s v).setLen

/-- The module serial as bytes. -/
def serialBytes : List Byte := leBytes 16 Config.serial.toNat

/-- The settings format version the firmware expects. -/
def setExpect : Nat := 2
/-- The length of that format (R871). -/
def setBytes' : Nat := 48

/-- Check 3 of R876: the length and both parts lie within 1 MiB and do not overlap. -/
def furnFits (h : FurnHead) : Bool :=
  decide (h.length ≤ furnSize ∧ h.identOff + h.identLen ≤ furnSize ∧ h.setOff + h.setLen ≤ furnSize) &&
    decide (h.identOff + h.identLen ≤ h.setOff ∨ h.setOff + h.setLen ≤ h.identOff)

/-- The cause code of a copy that is not valid; 0 when it is valid (R876). -/
def furnCause (s : State) (v : Nat) (ans : Bool) : Nat :=
  let h := furnHead s v
  let id := furnIdent s v
  let st := leAt id 16 2
  if !ans then 1
  else if h.magic ≠ 0x4D464E53 ∨ !h.crcOk then 2
  else if !furnFits h then 3
  else if shake32 id ≠ h.identDigest then 4
  else if h.identVer ≠ 1 ∨ h.identLen ≠ 262912 then 5
  else if id.take 16 ≠ serialBytes then 6
  else if nbit st 15 && st % 8 ≠ 0 then 8
  else 0

/-- The settings part of a copy is damaged (R875, R877). -/
def furnDamaged (s : State) (v : Nat) : Bool :=
  let h := furnHead s v
  decide (shake32 (furnSet s v) ≠ h.setDigest) || decide (h.setLen < setBytes' ∧ setExpect ≤ h.setVer)

/-- One row of the settings table: bytes, default, lowest and highest value (R871). -/
structure SetRow where
  bytes : Nat
  dflt : Nat
  lo : Nat
  hi : Nat
  deriving DecidableEq, Repr

/-- Settings 0 to 31, in order of offset (R871). -/
def setRows : List SetRow :=
  [⟨2, 2400, 600, 2400⟩, ⟨1, 0, 0, 1⟩, ⟨1, 1, 0, 1⟩, ⟨1, 64, 0, 192⟩, ⟨1, 24, 0, 168⟩, ⟨1, 3, 0, 15⟩, ⟨1, 0, 0, 3⟩,
   ⟨2, 0x0300, 1, 0xFFFF⟩, ⟨2, 0x4444, 0, 0xFFFF⟩, ⟨1, 3, 0, 15⟩, ⟨1, 10, 0, 255⟩, ⟨2, 0x0400, 0, 0xFFFF⟩, ⟨1, 8, 1, 15⟩,
   ⟨1, 63, 1, 63⟩, ⟨2, 4096, 1, 65535⟩, ⟨2, 1000, 1, 65535⟩] ++
  [⟨2, 100, 1, 65535⟩, ⟨1, 5, 1, 15⟩, ⟨1, 3, 1, 9⟩, ⟨2, 10, 1, 65535⟩, ⟨2, 20, 1, 65535⟩, ⟨2, 100, 1, 65535⟩,
   ⟨2, 10000, 1, 65535⟩, ⟨2, 20, 0, 65535⟩, ⟨2, 50, 1, 65535⟩, ⟨1, 32, 0, 255⟩, ⟨1, 0, 0, 1⟩, ⟨2, 2000, 1, 65535⟩,
   ⟨2, 60, 1, 65535⟩, ⟨2, 500, 1, 65535⟩, ⟨1, 3, 0, 7⟩, ⟨1, 0, 0, 0⟩]

/-- Every setting at its default. -/
def setDefaults : List Nat := setRows.map (·.dflt)

/-- Read settings by row: each value, and whether it fell to its default (R872). -/
def readSettings (bs : List Byte) : List SetRow → List (Nat × Bool)
  | [] => []
  | r :: rs =>
    let v := leAt bs 0 r.bytes
    (if r.lo ≤ v ∧ v ≤ r.hi then (v, false) else (r.dflt, true)) :: readSettings (bs.drop r.bytes) rs

/-- Setting `n` in force; its default while no furnish was read. -/
def setting (s : State) (n : Nat) : Nat := s.m.furn.settings.getD n (setDefaults.getD n 0)

/-- Raise an event of the MGT block. -/
def State.mgtRaise (s : State) (bit : Nat) : State := s.raise ⟨0x23, 0, bit⟩ .module

/-- Whether MGT_STATUS.alert is 1 beside R881: a sensor status bit, or a connector supply off (R1073). -/
def sensAlert (s : State) : Bool :=
  s.rd Reg.mgtSensStatus != 0 || s.g Reg.mgtConn Reg.mgtConn_cbl_off != 0 || s.g Reg.mgtConn Reg.mgtConn_cage_off != 0

/-- The steward reads no valid copy (R881). -/
def State.furnNone (s : State) : State :=
  let s1 := s.setM { s.m with furn := { ident := [], settings := setDefaults } }
  (s1.p Reg.mgtStatus Reg.mgtStatus_alert 1).mgtRaise 1

/-- Where the settings come from: 0 the defaults, 1 copy A, 2 copy B (R879). -/
def furnSource (s : State) (ok : Nat → Bool) (i : Nat) : Nat :=
  let o := 1 - i
  if !furnDamaged s i then i + 1
  else if ok o && !furnDamaged s o && decide ((furnHead s o).identDigest = (furnHead s i).identDigest) then o + 1
  else 0

/-- Take the settings from their source (R872 to R874, R879). -/
def State.furnSettings (s : State) (src : Nat) : State :=
  if src = 0 then
    let s1 := s.setM { s.m with furn := { s.m.furn with settings := setDefaults } }
    s1.mgtRaise 4
  else
    let v := src - 1
    let ver := (furnHead s v).setVer
    if ver < setExpect then
      (s.setM { s.m with furn := { s.m.furn with settings := setDefaults } }).mgtRaise 2
    else
      let vals := readSettings (furnSet s v) setRows
      let s1 := s.setM { s.m with furn := { s.m.furn with settings := vals.map (·.1) } }
      let mask := flagBits (vals.map (·.2))
      let s2 := ((s1.p Reg.mgtFurnRange Reg.mgtFurnRange_defaulted mask).p Reg.mgtFurnStat
        Reg.mgtFurnStat_settings_version ver).p Reg.mgtFurnStat Reg.mgtFurnStat_settings_src src
      let s3 := if setExpect < ver then s2.mgtRaise 3 else s2
      if mask = 0 then s3 else s3.mgtRaise 5

/-- The copy the identity comes from, of two of which one is valid (R878). -/
def furnPick (s : State) (ok : Nat → Bool) : Nat :=
  if ok 0 && (!ok 1 || decide ((furnHead s 1).seq ≤ (furnHead s 0).seq)) then 0 else 1

/-- Phase 4 of R858: read both copies, choose identity and settings (R876 to R881). `ansA` and `ansB` say whether the
devices answer their reads. -/
def State.furnRead (s : State) (ansA ansB : Bool) : State :=
  let cause (v : Nat) : Nat := furnCause s v (if v = 0 then ansA else ansB)
  let ok (v : Nat) : Bool := cause v == 0
  let shown (v : Nat) : Nat := if ok v && furnDamaged s v then 7 else cause v
  let s1 := (s.p Reg.mgtFurnStat Reg.mgtFurnStat_cause_a (shown 0)).p Reg.mgtFurnStat Reg.mgtFurnStat_cause_b (shown 1)
  let bad (s : State) (v : Nat) : State := if shown v = 0 then s else s.mgtRaise 0
  let s2 := bad (bad s1 0) 1
  if !ok 0 && !ok 1 then s2.furnNone
  else
    let i := furnPick s ok
    let s3 := s2.setM { s2.m with furn := { s2.m.furn with ident := furnIdent s i } }
    let s4 := (s3.p Reg.mgtFurnStat Reg.mgtFurnStat_ident_src (i + 1)).p Reg.mgtFurnStat Reg.mgtFurnStat_sequence
      (furnHead s i).seq
    s4.furnSettings (furnSource s ok i)

/-! ## The held identity (R870) -/

/-- Station word of the held identity. -/
def identStation (s : State) : Nat := leAt s.m.furn.ident 0x10 2
/-- The installation key K (R837). -/
def instKey (s : State) : List Byte := slice s.m.furn.ident 0x20 32
/-- Route entry `n` of a die in the held identity. -/
def identRoute (s : State) (d n : Nat) : Nat := leAt s.m.furn.ident (0x300 + 131072 * d + 2 * n) 2
/-- The neighbour-map entry of a port. -/
def identExpect (s : State) (q : Nat) : Nat := leAt s.m.furn.ident (0x60 + 8 * q) 8
/-- The time source and reference port. -/
def identTime (s : State) : Nat := byteAt s.m.furn.ident 0x12
def identRef (s : State) : Nat := byteAt s.m.furn.ident 0x13

/-! ## What the wardens write from it (R868, R871) -/

/-- Write the route tables of a die from the held identity, words from `n` on. -/
def State.writeRoutes (s : State) (d n : Nat) : Nat → State
  | 0 => s
  | k + 1 =>
    (s.wr (Reg.lnkRoute d n) (BitVec.ofNat 64 (leAt s.m.furn.ident (0x300 + 131072 * d + 8 * n) 8))).writeRoutes d
      (n + 1) k

/-- Apply a function to every element of a list, in order. -/
def State.each {α : Type} (s : State) (f : State → α → State) : List α → State
  | [] => s
  | x :: xs => (f s x).each f xs

/-- The settings that go to every tile. -/
def State.tileSettings (s : State) (d t : Nat) : State :=
  let v := setting s
  let b := v 8
  let s1 := (s.p (Reg.fwdCtl d t) Reg.fwdCtl_default_prec (v 2)).p (Reg.cpyCfg d t) Reg.cpyCfg_retry_max (v 5)
  let s2 := ((s1.p (Reg.wghNormCfg d t) Reg.wghNormCfg_policy (v 6)).p (Reg.wghNormCfg d t) Reg.wghNormCfg_jump_lg
    (v 7)).p (Reg.wghNormCfg d t) Reg.wghNormCfg_beta_n (nfld b 0 4)
  let h := Reg.wghHistCfg d t
  let s3 := ((((s2.p h Reg.wghHistCfg_beta_q (nfld b 4 4)).p h Reg.wghHistCfg_beta_g (nfld b 8 4)).p h
    Reg.wghHistCfg_beta_dx (nfld b 12 4)).p h Reg.wghHistCfg_headroom (v 9)).p h Reg.wghHistCfg_out_lg (v 11)
  s3.p (Reg.seqCtl d t) Reg.seqCtl_sleep_delay (v 25)

/-- The settings that go to a Haldif port, the neighbour-map entry with its valid bit (DEDUCED, log entry 33). -/
def State.portSettings (s : State) (q : Nat) : State :=
  let d := portDie q
  let k := portLoc q
  let e := Reg.lnkPortErrCfg d k
  (((s.p e Reg.lnkPortErrCfg_replay_max (setting s 12)).p e Reg.lnkPortErrCfg_lane_err_max (setting s 14)).wr
    (Reg.lnkPortExpect d k) (BitVec.ofNat 64 (identExpect s q % 2 ^ 21)))

/-- What the wardens write on a die (R868, R871). -/
def State.dieSettings (s : State) (d : Nat) : State :=
  let v := setting s
  let st := identStation s
  let s1 := (s.wr (Reg.lnkStation d) (BitVec.ofNat 64 (st + 2 ^ 16 * st))).writeRoutes d 0 16384
  let s2 := s1.each (fun s t => s.tileSettings d t) (List.range 64)
  let s3 := (s2.rcResize d (BitVec.ofNat 64 (v 3))).p (Reg.mapCtl d) Reg.mapCtl_scrub_en (if v 4 = 0 then 0 else 1)
  let s4 := if v 4 = 0 then s3 else s3.p (Reg.mapCtl d) Reg.mapCtl_scrub_hours (v 4)
  let s5 := ((s4.p (Reg.dcpCfg d) Reg.dcpCfg_retry_max (v 5)).p (Reg.prtCfg d) Reg.prtCfg_retry_max (v 5)).p (Reg.clrCfg d)
    Reg.clrCfg_retry_max (v 5)
  let s6 := ((s5.p (Reg.updCfg d) Reg.updCfg_wg_gap (v 10)).p (Reg.lnkCfg d) Reg.lnkCfg_ttl_init (v 13)).p (Reg.lnkCfg d)
    Reg.lnkCfg_ack_timeout_us (v 15)
  let s7 := ((s6.p (Reg.lnkHbCfg d) Reg.lnkHbCfg_hb_us (v 16)).p (Reg.lnkHbCfg d) Reg.lnkHbCfg_miss (v 17)).p
    (Reg.lnkHbCfg d) Reg.lnkHbCfg_wd_ms (v 19)
  let s8 := (s7.p (Reg.clrCfg d) Reg.clrCfg_level_us (v 23)).p (Reg.clrCfg d) Reg.clrCfg_stall_us (v 24)
  s8.each (fun s k => s.portSettings (8 * d + k)) (List.range 8)

/-- The settings and identity fields of an Ethernet port (R868, R870). -/
def State.ethSettings (s : State) (e : Nat) : State :=
  let a := Reg.ethPortCfg e
  let w := leAt s.m.furn.ident (0xE0 + 64 * e + 6) 2
  (((s.p a Reg.ethPortCfg_vlan (nfld w 0 12)).p a Reg.ethPortCfg_prio (nfld w 12 3)).p a Reg.ethPortCfg_pfc_prio
    (setting s 30)).p a Reg.ethPortCfg_ack_us (setting s 29)

/-- What the wardens write in phase 8 of R861 (R868, R871, R935). -/
def State.furnWrite (s : State) : State :=
  let s1 := (s.dieSettings 0).dieSettings 1
  let s2 := s1.each State.ethSettings (List.range 8)
  let s3 := (s2.p Reg.pwrCtl Reg.pwrCtl_cap_w (setting s 0)).p Reg.ethPitchCfg Reg.ethPitchCfg_sleep (setting s 26)
  let s4 := (s3.p Reg.ethPitchCfg Reg.ethPitchCfg_window_ms (setting s 27)).p Reg.ethTollCfg Reg.ethTollCfg_ckpt_s (setting s 28)
  let s5 := (s4.p Reg.mckRefCfg Reg.mckRefCfg_ref_port (identRef s)).p Reg.timeCfg Reg.timeCfg_time_source (identTime s % 2)
  s5.p Reg.mckRefCfg Reg.mckRefCfg_root (if nbit (identExpect s (identRef s)) 20 then 0 else 1)

end Sys2Proof.Machine
end

