-- ==== Sys2Proof/Machine/Toll.lean ====
section
/-! DEFINITION. Pitch messages the module sends, toll counters and records, closing a pitch, and the power domains of dies
and tiles (R836 to R856, R863, R895, R910, R914 to R916). -/

namespace Sys2Proof.Machine

/-- Replace the pitch part. -/
def State.setPitch (s : State) (x : PitchS) : State := s.setM { s.m with pitch := x }

/-- The pitch state and id (ETH_PITCH_STAT). -/
def pstate (s : State) : Nat := s.g Reg.ethPitchStat Reg.ethPitchStat_pstate
def pitchId (s : State) : Nat := s.g Reg.ethPitchStat Reg.ethPitchStat_pitch

/-- The home station word the module knows: the held identity's, else none. -/
def homeWord (s : State) : Nat := identStation s

/-- The tag of a pitch message (R837). -/
def pitchTag (s : State) (x : List Byte) : List Byte :=
  kmac32 (instKey s) x "SL4 PITCH"

/-- The number of a module state in STATUS bodies (DESIGN CHOICE, log entry 21). -/
def ModState.code : ModState → Nat
  | .off => 0 | .standby => 1 | .warmReserve => 2 | .ready => 3 | .running => 4 | .draining => 5 | .recovery => 6

/-! ## Sending (R836, R841) -/

/-- The bytes of a pitch message the module sends: header, body, tag. -/
def pitchBytes (s : State) (typ seq pitch : Nat) (body : List Byte) : List Byte :=
  let h := leBytes 2 0x51DE ++ [1, BitVec.ofNat 8 typ] ++ leBytes 2 (homeWord s) ++ leBytes 2 body.length ++
    leBytes 4 pitch ++ leBytes 8 seq ++ leBytes 8 s.now ++ leBytes 4 0
  h ++ body ++ pitchTag s (h ++ body)

/-- Bytes of the frame that carries a UDP payload of `n` bytes to an address: Ethernet, VLAN tag, IP, UDP, FCS. -/
def udpFrame (s : State) (e : Nat) (dst : List Byte) (n : Nat) : Nat :=
  14 + (if s.g (Reg.ethPortCfg e) Reg.ethPortCfg_vlan = 0 then 0 else 4) + (if dst.length = 4 then 20 else 40) + 8 + n + 4

/-- Count frame bytes a port sends (CNT_ETH_TX_BYTES). -/
def State.ethTx (s : State) (e n : Nat) : State := s.inc64 (Reg.ethCntBytes e 0) n

/-- Send a pitch message from a port to an address: its seq is the larger of the last sent seq + 1 and the time base
(R841). Answers the bytes sent. -/
def State.pitchSend (s : State) (e : Nat) (dst : List Byte) (typ pitch : Nat) (body : List Byte) : List Byte × State :=
  let seq := max (s.m.pitch.sent + 1) s.now
  let m := pitchBytes s typ seq pitch body
  (m, ((s.setPitch { s.m.pitch with sent := seq }).emit (.eth e (.pitch dst m))).ethTx e
    (udpFrame s e dst m.length))

/-! ## Toll counters and records (R849 to R856) -/

/-- The toll counters of the open pitch: Ready, Running, Recovery, Draining, Warm reserve. -/
def tollCounts (s : State) : List Nat :=
  [Reg.ethTollReady, Reg.ethTollRunning, Reg.ethTollRecovery, Reg.ethTollDraining, Reg.ethTollWarm].map
    (fun a => (s.rd a).toNat)

/-- Flags of the toll record, beside interrupted (R855). -/
def tollFlags (s : State) : Nat :=
  let x := s.m.pitch
  (if x.served then 2 else 0) + (if x.stopped then 4 else 0) + (if x.skipped then 8 else 0)

/-- The record of the open pitch as its counters stand. -/
def openRec (s : State) : OpenRec :=
  { pitch := pitchId s, state := pstate s, openAt := (s.rd Reg.ethTollOpen).toNat, counts := tollCounts s
    energy := (s.rd Reg.ethTollEnergy).toNat, time := s.now, flags := tollFlags s, home := homeWord s
    served := s.g (Reg.lnkStation 0) Reg.lnkStation_station }

/-- Write the open pitch's counters, open time and state to flash (R853). -/
def State.tollWrite (s : State) : State :=
  (s.setFlash { s.m.flash with opened := if pstate s = 0 then none else some (openRec s) }).setPitch
    { s.m.pitch with wroteAt := s.now }

/-- A change of the pitch state: EVENT to the address of the last OFFER, and EV_ETH_PITCH (R842); the open record is
written to flash (R853). -/
def State.pitchTo (s : State) (v cause : Nat) : State :=
  let s1 := s.p Reg.ethPitchStat Reg.ethPitchStat_pstate v
  let (_, s2) := s1.pitchSend s.m.pitch.port s.m.pitch.peer 0x86 (pitchId s) [BitVec.ofNat 8 v, BitVec.ofNat 8 cause]
  (s2.raise ⟨0x21, 0, 0⟩ .module).tollWrite

/-- The number of the next toll record, and the digest of the previous one (R855; DESIGN CHOICE, log entry 22 for the first number). -/
def nextRecord (s : State) : Nat := match s.m.flash.tolls.getLast? with | some t => leAt t 28 4 + 1 | none => 0
def prevDigest (s : State) : List Byte :=
  match s.m.flash.tolls.getLast? with | some t => shake32 (t.take 2948) | none => List.replicate 32 0

/-- Bytes 0 to 127 of a toll record (R855). -/
def tollBody (s : State) (r : OpenRec) (interrupted : Bool) (close : Nat) : List Byte :=
  leBytes 2 1 ++ leBytes 2 (r.flags + interrupted.toNat) ++ leBytes 4 r.pitch ++ serialBytes ++ leBytes 2 r.home ++
    leBytes 2 r.served ++ leBytes 4 (nextRecord s) ++ leBytes 8 r.openAt ++ leBytes 8 close ++
    (padTo 0 5 r.counts).flatMap (leBytes 8) ++ leBytes 8 r.energy ++ prevDigest s

/-- Sign a toll record and write it to the flash ring of 4 096 records; the record, unless the key is spent (R855,
R1042). -/
def State.tollSign (s : State) (r : OpenRec) (interrupted : Bool) (close : Nat) : List Byte × State :=
  let body := tollBody s r interrupted close
  match s.sign body with
  | (some sig, s1) =>
    let t := body ++ sig
    let ring := s1.m.flash.tolls ++ [t]
    (t, s1.setFlash { s1.m.flash with tolls := ring.drop (ring.length - 4096), opened := none })
  | (none, s1) => ([], s1.setFlash { s1.m.flash with opened := none })

/-- Close the pitch written in flash, with flag interrupted; its close time is the last write (R854, R867, R895). -/
def State.tollInterrupted (s : State) : State :=
  match s.m.flash.opened with
  | some r => (s.tollSign r true r.time).2
  | none => s

/-- A power or thermal shutdown closes an open pitch (R895): the counters are written, the record closed, and the pitch
state is 0. -/
def State.pitchCut (s : State) : State :=
  if pstate s = 0 then s
  else (s.tollWrite.tollInterrupted).wr Reg.ethPitchStat 0

/-! ## Queue pairs (R831, R832, R847) -/

/-- Ethernet port `e`. -/
def ethPort (s : State) (e : Nat) : EthS := SMap.get (fun _ => EthS.reset) s.m.eth e

/-- Replace an Ethernet port. -/
def State.setEth (s : State) (e : Nat) (x : EthS) : State :=
  s.setM { s.m with eth := SMap.set (fun _ => EthS.reset) s.m.eth e x }

/-- Raise an event of an Ethernet port. -/
def State.ethRaise (s : State) (e bit : Nat) : State := s.raise ⟨0x21, 1, bit⟩ (.eth e) { source := e }

/-- Change a queue pair of a port. -/
def State.setQp (s : State) (e q : Nat) (x : QpS) : State :=
  let p := ethPort s e
  s.setEth e { p with qps := p.qps.map (fun y => if y.1 = q then (q, x) else y) }

/-- A queue pair enters the error state: its outstanding work is discarded (R831). -/
def State.qpError (s : State) (e q : Nat) : State :=
  match ((ethPort s e).qps.find? (·.1 == q)) with
  | some (_, x) =>
    if x.err then s else (s.setQp e q { x with err := true, out := [] }).ethRaise e 1
  | none => s

/-- An Ethernet port leaves the up state (R832). -/
def State.ethDown (s : State) (e : Nat) : State :=
  if s.on (Reg.ethPortStatus e) Reg.ethPortStatus_up then
    (s.p (Reg.ethPortStatus e) Reg.ethPortStatus_up 0).each (fun s q => s.qpError e q) ((ethPort s e).qps.map (·.1))
  else s

/-- Destroy every queue pair and memory region (R847 step 6, R865). -/
def State.ethDestroy (s : State) : State :=
  let s1 := s.each (fun s e =>
    let s1 := (s.setEth e { ethPort s e with qps := [] }).p (Reg.ethPortStatus e) Reg.ethPortStatus_qps 0
    s1.each (fun s q => (((s.wr (Reg.ethRing e q) 0).wr (Reg.ethRingCfg e q) 0).wr (Reg.ethSq e q) 0).wr
      (Reg.ethSqCfg e q) 0) (List.range 64)) (List.range 8)
  s1.each (fun s i => ((s.wr (Reg.ethMr i) 0).wr (Reg.ethMrLen i) 0).wr (Reg.ethMrKey i) 0) (List.range 64)

/-! ## Power domains (R910, R914 to R916, R863) -/

/-- Whether a device address belongs to memory or registers of a die. -/
def ofDie (d a : Nat) : Bool := (rgnOf a).die == some d

/-- A die's power domain switches off: its registers, memory and units lose their contents (R429, R466, R865). -/
def State.dieOff (s : State) (d : Nat) : State :=
  let s1 := ((s.dropMem (ofDie d)).dropValid (fun l => ofDie d (l * 64))).dropRegs (ofDie d)
  let s2 := (s1.dropFlaws (fun k => if k < 2 ^ 48 then ofDie d k else (k - 2 ^ 48) / 2 ^ 26 / 12 == d)).setLoose
    (s.loose.filter (fun x => !ofDie d x.lo))
  let s3 := ((s2.forgetTiles (fun k => k / 64 == d)).forgetDies (· == d)).forgetPorts (fun q => q / 8 == d)
  s3.setWaiting (s.waiting.filter (fun w => !ofDie d w.q.addr.toNat))

/-- A tile's power domain switches off: its SRAM and its unit registers are lost; MEM and OBS lie in the die domain
(R429, R434, R914), and with them the operation counters (R981). -/
def State.tileOff (s : State) (d t : Nat) : State :=
  let s1 := s.invalidate (slotBase d t) (slotBase d t + 0x1000000)
  let lost (a : Nat) : Bool := match rgnOf a with
    | .reg l => l.blk.isTile && l.d == d && l.t == t && l.blk != .mem && l.blk != .obs
    | _ => false
  (s1.dropRegs lost).setTile d t { TileS.reset with opc := (s.tile d t).opc }

/-- Replace the start-up part. -/
def State.setBoot (s : State) (x : BootS) : State := s.setM { s.m with boot := x }

/-- Set the module state. -/
def State.setMod (s : State) (v : ModState) : State := s.setM { s.m with st := v }

/-- Every member of the module's fault state that ends with its job (R803, R807, R847). -/
def FaultS.fresh (x : FaultS) : FaultS := { FaultS.reset with joins := x.joins, joined := x.joined, scrubbed := x.scrubbed }

/-- The module enters Standby: both dies lose power (R863, R466); Ethernet ports 0 and 4 alone stay up (R820); the
scrubbed bit becomes 1 (R810). -/
def State.toStandby (s : State) : State :=
  let s1 := ((s.dieOff 0).dieOff 1).each (fun s e => s.ethDown e) [1, 2, 3, 5, 6, 7]
  s1.setM { s1.m with
    st := .standby, plan := PlanS.none, boot := { BootS.reset with restart := s1.m.boot.restart }
    fault := { FaultS.reset with scrubbed := true } }
  |>.refUpdate

/-- The state code the wardens show in LNK_STATE_GEN of both dies. -/
def State.showState (s : State) (v : Nat) : State :=
  (s.p (Reg.lnkStateGen 0) Reg.lnkStateGen_state v).p (Reg.lnkStateGen 1) Reg.lnkStateGen_state v

/-- Write the state generation of both dies. -/
def State.setGen (s : State) (v : Nat) : State :=
  (s.p (Reg.lnkStateGen 0) Reg.lnkStateGen_gen v).p (Reg.lnkStateGen 1) Reg.lnkStateGen_gen v

/-- The own generation. -/
def ownGen (s : State) : Nat := s.g (Reg.lnkStateGen 0) Reg.lnkStateGen_gen

end Sys2Proof.Machine
end

