-- ==== Sys2Proof/Machine/Startup.lean ====
section
/-! DEFINITION. Start-up: cold and warm starts, the way from Standby to Ready, Warm reserve, and the furnish flash window
(R858 to R867, R881 to R884, R1022 to R1025). -/

namespace Sys2Proof.Machine

/-! ## Standby and Ready -/

/-- A request of R861 may be made: the module stands in Standby with an identity and nothing holds it there (R860, R881,
R896, R902, R912). -/
def mayLeave (s : State) : Bool :=
  s.m.st == .standby && s.m.furn.ident != [] && !s.m.sec.recovery && !s.m.pwr.hold && !s.m.pwr.low && !s.m.pwr.shut

/-- Standby is reached: the module goes on, or stays, by its identity and idle_state (R860). -/
def State.standbyExit (s : State) : State :=
  if !mayLeave s then s
  else if nbit (identStation s) 15 then s.setBoot { s.m.boot with want := true, warmNext := true }
  else if setting s 1 = 1 then s.setBoot { s.m.boot with want := true }
  else s

/-- A valid flow reading lies below flow_min (R1068, R1070). -/
def flowBelow (s : State) : Bool :=
  s.on Reg.mgtSensCool Reg.mgtSensCool_flow_valid &&
    decide (s.g Reg.mgtSensCool Reg.mgtSensCool_flow < s.g Reg.mgtSensCfg Reg.mgtSensCfg_flow_min)

/-- EV_SENS_FLOW_LOW. -/
def State.flowLowEvent (s : State) : State := s.raise ⟨0x23, 1, 1⟩ .module

/-- Setpoints of the rails in mV (R904). -/
def railMv (r : Nat) : Nat :=
  match r with
  | 0 => 800 | 1 => 3300 | 2 => Config.coreMv 0 | 3 => Config.coreMv 1 | 4 | 5 => 850 | 6 | 7 => 900 | 8 | 9 => 1100
  | 10 | 11 => 400 | 12 | 13 => 1050 | 14 | 15 => 500 | _ => 900

/-- Write a rail's setpoint; a rail that regulates at its output adds 25 mV (R905). -/
def State.setRail (s : State) (r mv : Nat) : State :=
  s.p (Reg.pwrRail r) Reg.pwrRail_set_mv (if (s.rd Reg.pwrSense).getLsbD r then mv + 25 else mv)

/-- A die's power domain comes on: its PLLs start (R861, R916, R945). -/
def State.dieUp (s : State) (d : Nat) : State :=
  (s.setDie d { DieS.reset with power := true, pllRun := 31, arrRoot := true }).wr (Reg.pwrTileOn d) 0

/-- READY_REQUEST (R861 phase 6, R907, R1070): `offs` are the current-sense offsets measured on the idle rails. -/
def execReadyRequest (offs : List Int) (s : State) : Host.Outcome State Fault Refusal :=
  if !mayLeave s || !s.m.boot.want || s.m.boot.up then .next s
  else if flowBelow s then .next ((s.setBoot { s.m.boot with want := false }).flowLowEvent)
  else
    let s1 := ((s.setBoot { s.m.boot with up := true }).dieUp 0).dieUp 1
    let s2 := s1.each (fun s r => s.setRail r (railMv r)) ((List.range 17).drop 2)
    .next (s2.setM { s2.m with pwr := { s2.m.pwr with offs := offs } })

/-- The PLLs of both dies are locked. -/
def allLocked (s : State) : Bool :=
  s.g (Reg.clkStatus 0) Reg.clkStatus_lock == 31 && s.g (Reg.clkStatus 1) Reg.clkStatus_lock == 31

/-- Set MGT_STATUS.phase. -/
def State.setPhase (s : State) (n : Nat) : State := s.p Reg.mgtStatus Reg.mgtStatus_phase n

/-- Phase 6 has ended: both dies are up and their PLLs locked (R861). -/
def phase6 (s : State) : Bool := s.m.st == .standby && s.m.boot.up && decide (6 ≤ s.g Reg.mgtStatus Reg.mgtStatus_phase)

/-- Phase 6 ends with the last lock. -/
def State.phaseSix (s : State) : State :=
  if s.m.st = .standby ∧ s.m.boot.up ∧ allLocked s ∧ s.g Reg.mgtStatus Reg.mgtStatus_phase < 6 then s.setPhase 6 else s

/-- Phase 9: the scrubbed bit is set and the module enters Ready (R861, R810). -/
def State.readyEnter (s : State) : State :=
  if s.m.st = .standby ∧ s.m.boot.loaded ∧ (s.die 0).initDone ∧ (s.die 1).initDone then
    let s1 := s.setM { s.m with
      st := .ready, boot := { s.m.boot with want := false }, fault := { s.m.fault with scrubbed := true } }
    (s1.setPhase 9).showState 0
  else s

/-- Both tiers of a die hold zero with valid check bytes, and every row-cache tag is invalid (R462). -/
def State.zeroExt (s : State) (d : Nat) : State :=
  let lost (a : Nat) : Bool := match rgnOf a with | .hbm e _ | .tr2 e _ => e == d | _ => false
  ((s.dropMem lost).dropFlaws (fun k => if k < 2 ^ 48 then lost k else (k - 2 ^ 48) / 2 ^ 26 / 12 == d)).setLoose
    (s.loose.filter (fun x => !lost x.lo))

/-- MEM_INIT_DONE (R462, R463, R861 phase 7). -/
def execMemInitDone (d : Die) (s : State) : Host.Outcome State Fault Refusal :=
  let x := s.die d
  if !phase6 s || x.initDone then .next s
  else
    let s1 := (s.zeroExt d).setDie d { x with initDone := true }
    let s2 := if (s1.die (1 - d.val)).initDone then s1.setPhase 7 else s1
    .next ((s2.release (· == .init d)).readyEnter)

/-- The enabled ports begin training (R622, R861 phase 8). -/
def State.trainAll (s : State) : State :=
  s.each (fun s q => if s.on (Reg.lnkPortCtl (portDie q) (portLoc q)) Reg.lnkPortCtl_enable then s.trainStart q else s)
    (List.range 16)

/-- WARDEN_LOAD_DONE (R861 phase 8, R868, R1020): the warden and shell sections verify, and the wardens write the blocks. -/
def execWardenLoadDone (s : State) : Host.Outcome State Fault Refusal :=
  let v := s.g Reg.secStatus Reg.secStatus_slot
  let h := imageBlock s v 0
  if !phase6 s || s.m.boot.loaded || sectionCause s v h 1 != 0 || sectionCause s v h 2 != 0 then .next s
  else .next ((((s.setBoot { s.m.boot with loaded := true }).furnWrite.trainAll).setPhase 8).readyEnter)

/-! ## Warm reserve (R862, R904, R910) -/

/-- Every tile domain of a die switches off. -/
def State.tilesOff (s : State) (d : Nat) : State :=
  (s.each (fun s t => if (s.rd (Reg.pwrTileOn d)).getLsbD t then s.tileOff d t else s) (List.range 64)).wr
    (Reg.pwrTileOn d) 0

/-- The array, HBM and tier-2 PLLs of a die stop (R953, R910). -/
def State.pllsWarm (s : State) (d : Nat) : State :=
  let x := s.die d
  ((s.setDie d { x with arrRoot := false, pllRun := 6 }).p (Reg.clkStatus d) Reg.clkStatus_arr_running 0).p
    (Reg.clkStatus d) Reg.clkStatus_lock (s.g (Reg.clkStatus d) Reg.clkStatus_lock &&& 6)

/-- WARM_RESERVE_ENTER (R862): a reserve in Ready. -/
def execWarmReserveEnter (s : State) : Host.Outcome State Fault Refusal :=
  if s.m.st ≠ .ready ∨ !nbit (identStation s) 15 ∨ s.m.fault.serving.isSome then .next s
  else
    let s1 := (((s.setMod .warmReserve).tilesOff 0).tilesOff 1).each (fun s e => s.ethDown e) [1, 2, 3, 5, 6, 7]
    let s2 := ((s1.pllsWarm 0).pllsWarm 1).setBoot { s1.m.boot with warmNext := false }
    .next (((s2.setRail 2 650).setRail 3 650).showState 4)

/-- A module leaves Warm reserve for Ready: memories and ports as it left them, stopped PLLs start (R862). -/
def State.warmExit (s : State) : State :=
  if s.m.st ≠ .warmReserve then s
  else
    let wake (s : State) (d : Nat) : State :=
      let x := s.die d
      s.setDie d { x with arrRoot := true, pllRun := 31 }
    ((((wake (wake s 0) 1).setMod .ready).setRail 2 (railMv 2)).setRail 3 (railMv 3)).showState 0

/-! ## Starts -/

/-- The switch of a feed stays open: its last opening was the third within 10 s (R900). -/
def feedLatched (x : PwrS) (f : Nat) : Bool :=
  let l := (x.opens.filter (fun y => y.1 == f)).map (·.2)
  match l.getLast? with
  | some t => decide (3 ≤ (l.filter (fun u => decide (t ≤ u + 10000000000))).length)
  | none => false

/-- Every domain at its Reset value; flash, fuses, the event log in flash, the pins and the feeds stay (R858, R866). -/
def State.allReset (s : State) : State :=
  let x := s.m.pwr
  { State.reset with
    out := s.out, free := s.free, reply := s.reply, pending := s.pending
    m := { ModS.reset with
      flashLog := s.m.flashLog, flash := s.m.flash
      sec := { SecS.reset with epoch := s.m.sec.epoch, pwSet := s.m.sec.pwSet, pwHash := s.m.sec.pwHash }
      pwr := { PwrS.reset with
        low := x.low, shut := x.shut, opens := x.opens.filter (fun y => feedLatched x y.1)
        sw := x.sw.filter (feedLatched x) }
      sens := { SensS.reset with gone := s.m.sens.gone } } }

/-- A cold reset: every domain at its Reset value, but for the connector's pins and the latched feeds (R858, R866). -/
def State.coldReset (s : State) : State :=
  let s1 := s.allReset
  (s1.wr Reg.mgtConn (s.rd Reg.mgtConn)).each (fun s f => s.p (Reg.pwrFeed f) Reg.pwrFeed_fault 1) s1.m.pwr.sw

/-- The fallback choice (R1022): the slot, none where recovery mode follows. -/
def fallback (s : State) (valid : Nat → Bool) : Option Nat :=
  let last := newest (fun e => e.mode == 0) (dirEntries s)
  match last with
  | some e => if valid e.slot then some e.slot else if valid 0 then some 0 else if valid 1 then some 1 else none
  | none => if valid 0 then some 0 else if valid 1 then some 1 else none

/-- Phase 2 of R858: the slot to run and the mode of the entry it starts from (R1022). -/
def State.bootChoice (s : State) (valid : Nat → Bool) : Option (Nat × Nat) × State :=
  let ver (v : Nat) : Nat := leAt (imageBlock s v 0) 8 4
  match latestDir s with
  | none => ((fallback s valid).map (fun v => (v, 4)), s)
  | some e =>
    match e.mode with
    | 0 =>
      if valid e.slot then (some (e.slot, 0), s)
      else if valid (1 - e.slot) then (some (1 - e.slot, 4), s.secRaise 0)
      else (none, s)
    | 1 =>
      let s1 := s.dirWrite e.slot 2 (ver e.slot)
      if valid e.slot then (some (e.slot, 2), s1)
      else
        let s2 := s1.dirWrite e.slot 3 (ver e.slot)
        ((fallback s2 valid).map (fun v => (v, 4)), s2)
    | 2 =>
      let s1 := (s.dirWrite e.slot 3 (ver e.slot)).secRaise 1
      ((fallback s1 valid).map (fun v => (v, 4)), s1)
    | _ => ((fallback s valid).map (fun v => (v, 4)), s)

/-- Set epoch fuse bits until the fused epoch is at least `n` (R1016, R1023). -/
def State.fuseEpoch (s : State) (n : Nat) : State :=
  if s.m.sec.epoch < n then
    (s.setSec { s.m.sec with epoch := n }).p Reg.secStatus Reg.secStatus_fused_epoch n else s

/-- Raise the version floor and the fused epoch to those of slot `v` when they are lower (R1024). -/
def State.raiseFloor (s : State) (v : Nat) : State :=
  let h := imageBlock s v 0
  (if versionFloor s < leAt h 8 4 then s.floorWrite (leAt h 8 4) else s).fuseEpoch (byteAt h 6)

/-- Recovery mode (R1035, R1036). -/
def State.recovery (s : State) : State := (s.setSec { s.m.sec with recovery := true }).secRaise 5

/-- The fuses show in SEC_STATUS. -/
def State.showFuses (s : State) : State :=
  (s.p Reg.secStatus Reg.secStatus_fused_epoch s.m.sec.epoch).p Reg.secStatus Reg.secStatus_pw_set s.m.sec.pwSet.toNat

/-- Phases 3 to 5 of R858, and what follows Standby (R854, R860, R881, R1042). -/
def State.startStandby (s : State) (ansA ansB : Bool) : State :=
  let s1 := ((s.cacheShow.tollInterrupted.furnRead ansA ansB).keyShow).setPhase 5
  (s1.setM { s1.m with
    st := .standby, fault := { FaultS.reset with scrubbed := true }, sec := { s1.m.sec with phase5 := s1.now } }).standbyExit

/-- COLD_START (R858): `ansA` and `ansB` say whether the flash devices answer their reads. -/
def execColdStart (ansA ansB : Bool) (s : State) : Host.Outcome State Fault Refusal :=
  if s.m.st ≠ .off ∨ s.m.pwr.low then .next s
  else
    let s0 := s.coldReset.showFuses
    let s1 := (s0.setPhase 1).p Reg.secVersion Reg.secVersion_floor (versionFloor s0)
    if s.m.pwr.shut then .next s1.recovery
    else
      let cause (v : Nat) : Nat := imageCause s1 v (if v = 0 then ansA else ansB) [0]
      let s2 := ((s1.p Reg.secStatus Reg.secStatus_cause_a (cause 0)).p Reg.secStatus Reg.secStatus_cause_b (cause 1)).setPhase 2
      let s3 := if (topFloor (floors s2)).isNone then s2.secRaise 3 else s2
      match s3.bootChoice (fun v => cause v == 0) with
      | (none, s4) => .next s4.recovery
      | (some (v, mode), s4) =>
        let s5 := ((s4.p Reg.secStatus Reg.secStatus_slot v).p Reg.secStatus Reg.secStatus_trial
          (if mode = 2 then 1 else 0)).p Reg.secVersion Reg.secVersion_running (leAt (imageBlock s4 v 0) 8 4)
        .next ((if mode = 0 then s5.raiseFloor v else s5).startStandby ansA ansB)

/-- Close an open pitch before a restart (R867). -/
def State.closeForRestart (s : State) : State :=
  if pstate s = 0 then s else s.tollInterrupted.wr Reg.ethPitchStat 0

/-- A cold restart takes the module to Off, from where COLD_START runs the phases. -/
def State.restartCold (s : State) : State := s.closeForRestart.coldReset

/-- A warm start (R859, R864, R865, R1025). -/
def State.restartWarm (s : State) : State :=
  let s1 := s.closeForRestart.toStandby.ethDestroy
  let s2 := s1.setM { s1.m with
    pitch := { s1.m.pitch with peer := [], reply := [], tag := [], loaded := false }, dist := DistS.reset
    sec := { s1.m.sec with keyBlk := none, keyNext := 0, lowSaid := false, op := none, last := none, phase5 := s1.now } }
  let s3 := (s2.p Reg.mgtStatus Reg.mgtStatus_warm 1).setPhase 5
  let v := s.g Reg.secStatus Reg.secStatus_slot
  if sectionCause s v (imageBlock s v 0) 0 ≠ 0 then s3.recovery else s3.keyShow.standbyExit

/-- A restart write (R866, R1031). -/
def State.restartWrite (s : State) (cold : Bool) (v : Word) : State :=
  if fld v 8 8 ≠ 0xA5 then s.mgtRaise 7
  else if s.on Reg.secStatus Reg.secStatus_busy then s.setBoot { s.m.boot with restart := some cold }
  else if cold then s.restartCold else s.restartWarm

/-- COLD_RESTART (R866, R867). -/
def execColdRestart (r : Requester) (v : Word) (s : State) : Host.Outcome State Fault Refusal :=
  .next (s.regWr r Reg.mgtCtl (fun s => s.restartWrite true v))

/-- WARM_RESTART (R864, R866, R867). -/
def execWarmRestart (r : Requester) (v : Word) (s : State) : Host.Outcome State Fault Refusal :=
  .next (s.regWr r Reg.mgtCtl (fun s => s.restartWrite false v))

/-- TRIAL_COMMIT (R1023): within 1 s of phase 5, the warden and shell sections of a trial image pass. -/
def execTrialCommit (s : State) : Host.Outcome State Fault Refusal :=
  let v := s.g Reg.secStatus Reg.secStatus_slot
  let h := imageBlock s v 0
  if !s.on Reg.secStatus Reg.secStatus_trial ∨ s.m.sec.phase5 + 1000000000 < s.now ∨ sectionCause s v h 1 ≠ 0 ∨
      sectionCause s v h 2 ≠ 0 then .next s
  else
    let s1 := (s.dirWrite v 0 (leAt h 8 4)).floorWrite (leAt h 8 4)
    .next (((s1.fuseEpoch (byteAt h 6)).p Reg.secStatus Reg.secStatus_trial 0).secRaise 2)

/-! ## The furnish flash window (R882 to R885) -/

/-- The buffer of the window. -/
def flashBuf (s : State) : List Byte := (List.range 32).flatMap (fun j => leBytes 8 (s.rd (Reg.mgtFlashData j)).toNat)

/-- What a command of the window does at device offset `off`: 1 read, 2 program, 3 erase (at once: DESIGN CHOICE, log
entry 20). -/
def State.flashDo (s : State) (op dev off : Nat) : State :=
  match op with
  | 1 => s.wrWords (Reg.mgtFlashData 0)
      ((List.range 32).map (fun j => BitVec.ofNat 64 (leAt (flashRead s dev (off + 8 * j) 8) 0 8)))
  | 2 => s.flashWrite dev off (flashBuf s)
  | _ => s.flashErase dev off 65536

/-- A write of MGT_FLASH_CMD (R883 to R885): op 0 starts no command; an offset that is not a multiple of the op's unit is
a reserved encoding (R10). -/
def State.flashCmd (s : State) (v : Word) : State :=
  let a := Reg.mgtFlashCmd
  if s.m.st ≠ .standby ∨ s.g Reg.mgtStatus Reg.mgtStatus_phase < 4 ∨ s.on a Reg.mgtFlashCmd_busy then
    (s.mgtRaise 6).fail .busy
  else
    let op := fld v 0 2
    let unit := if op = 3 then 65536 else 256
    let off := fld v 8 20
    let s1 := if off % unit = 0 then s.p a Reg.mgtFlashCmd_offset off else s.reserved 0
    let s2 := (s1.p a Reg.mgtFlashCmd_op op).p a Reg.mgtFlashCmd_device (fld v 2 1)
    if op = 0 then s2
    else (s2.p a Reg.mgtFlashCmd_busy 1).flashDo op (fld v 2 1) (furnOff + s2.g a Reg.mgtFlashCmd_offset / unit * unit)

/-- A write of MGT_FLASH_CMD with the op of a row. -/
def State.flashOp (s : State) (r : Requester) (op : Nat) (v : Word) : State :=
  s.regWr r Reg.mgtFlashCmd (fun s => s.flashCmd (setFld v 0 2 op))

/-- FLASH_READ (R883, R885). -/
def execFlashRead (r : Requester) (v : Word) (s : State) : Host.Outcome State Fault Refusal := .next (s.flashOp r 1 v)
/-- FLASH_PROGRAM (R883, R885). -/
def execFlashProgram (r : Requester) (v : Word) (s : State) : Host.Outcome State Fault Refusal := .next (s.flashOp r 2 v)
/-- FLASH_ERASE (R883, R885). -/
def execFlashErase (r : Requester) (v : Word) (s : State) : Host.Outcome State Fault Refusal := .next (s.flashOp r 3 v)

/-- FLASH_CMD_DONE (R885): a command ends; `ok` is 0 where the device failed it. -/
def execFlashCmdDone (ok : Bool) (s : State) : Host.Outcome State Fault Refusal :=
  let a := Reg.mgtFlashCmd
  if s.on a Reg.mgtFlashCmd_busy then
    .next ((s.p a Reg.mgtFlashCmd_busy 0).p a Reg.mgtFlashCmd_error (!ok).toNat)
  else .next s

end Sys2Proof.Machine
end

