-- ==== Sys2Proof/Machine/Plan.lean ====
section
/-! DEFINITION. What the wardens do with a plan: loading it (R398, R251, R807, R810), halting everything (R782 step 2),
ports enabled and disabled, and the ends of a pitch that other chapters bring about (R842). -/

namespace Sys2Proof.Machine

/-! ## Loading -/

/-- The wardens as requesters. -/
def wardenOf (d : Nat) : Requester := .warden (Fin.ofNat 2 d) 0

/-- Halt every sequencer whose tile is on (R398, R782). -/
def State.haltSeqs (s : State) : State :=
  s.each (fun s k => if s.tileOn (k / 64) (k % 64) then s.seqHalt (k / 64) (k % 64) 7 else s) (List.range 128)

/-- Power a tile's domain (R914). -/
def State.tileUp (s : State) (d t : Nat) : State := s.p (Reg.pwrTileOn d) ⟨t, 1⟩ 1

/-- Write WGH_STARTUP.end_pass (R252, R255, R256). -/
def State.setEndPass (s : State) (d t v : Nat) : State :=
  (s.p (Reg.wghStartup d t) Reg.wghStartup_end_pass v).startupEdge d t (startupOn s d t)

/-- R251 on one tile. -/
def State.startupTile (s : State) (d t : Nat) : State :=
  (s.histClear d t 64).setEndPass d t (s.g (Reg.seqPass d t) Reg.seqPass_pass + 64)

/-- R251 on every tile that is on. -/
def State.startupAll (s : State) : State :=
  s.each (fun s k => if s.tileOn (k / 64) (k % 64) then s.startupTile (k / 64) (k % 64) else s) (List.range 128)

/-- The start of a tile of a plan: generation, pc and pass. -/
def State.loadTile (s : State) (gen : Nat) (x : PlanTile) : State :=
  ((s.p (Reg.seqGen x.d x.t) Reg.seqGen_gen gen).p (Reg.seqPc x.d x.t) Reg.seqPc_pc x.pc).setPass x.d x.t x.pass

/-- Load a plan (R398): halt, write the generation, power the plan's tiles, load programs and tables, write each tile's
SEQ_GEN and SEQ_PC; R251 applies; the layout epoch is 0; the scrubbed bit becomes 0 (R810). -/
def State.loadPlan (s : State) (pl : PlanS) : State :=
  let s1 := s.haltSeqs
  let s2 := (s1.p (Reg.tlyPlanGen 0) Reg.tlyPlanGen_gen pl.gen).p (Reg.tlyPlanGen 1) Reg.tlyPlanGen_gen pl.gen
  let s3 := s2.each (fun s x => s.tileUp x.d x.t) pl.tiles
  let s4 := s3.each (fun s x => (s.writeSpan (wardenOf (addrDie x.1)) x.1 x.2).2) pl.mem
  let s5 := s4.each (fun s x => s.wr x.1 x.2) pl.regs
  let s6 := (s5.each (fun s x => s.loadTile pl.gen x) pl.tiles).startupAll
  let s7 := (s6.p (Reg.clrEpoch 0) Reg.clrEpoch_epoch 0).p (Reg.clrEpoch 1) Reg.clrEpoch_epoch 0
  s7.setM { s7.m with plan := pl, fault := { s7.m.fault with scrubbed := false } }

/-- The initial tally states of a plan are queued at their banks behind a clear of every tally (R799, R1095). -/
def State.restoreTallies (s : State) (pl : PlanS) : State :=
  ((s.tallyClear 0).tallyClear 1).each (fun s x => s.tallyQueue x.1 x.2.1 (.setState x.2.1 x.2.2)) pl.tallies

/-- The plan is loaded under R398: the generations of every tile it uses agree. -/
def planLoaded (s : State) : Bool :=
  s.m.plan.tiles.all (fun x => s.g (Reg.seqGen x.d x.t) Reg.seqGen_gen == s.g (Reg.tlyPlanGen x.d) Reg.tlyPlanGen_gen)

/-- Start the sequencers of every tile the plan uses (R399). -/
def State.startSeqs (s : State) : State := s.each (fun s x => s.seqStart x.d x.t) s.m.plan.tiles

/-! ## Halting (R782 step 2, R547) -/

/-- Abort every porter, clearing and copy operation in flight on a die. -/
def State.abortDie (s : State) (d : Nat) : State :=
  let s1 := (s.prtAbort d).clrAbort d
  let s2 := s1.each (fun s c => s.chAbort (.die (Fin.ofNat 2 d) c)) (List.finRange 16)
  s2.each (fun s t => (List.finRange 2).foldl
    (fun s c => (s.chHold (.tile (Fin.ofNat 2 d) t c)).chAbort (.tile (Fin.ofNat 2 d) t c)) s) (List.finRange 64)

/-- Set the holds of the update unit and the clearing engine of both dies. -/
def State.setHolds (s : State) (v : Nat) : State :=
  [0, 1].foldl (fun s d => (s.p (Reg.updCtl d) Reg.updCtl_hold v).p (Reg.clrCtl d) Reg.clrCtl_hold v) s

/-- Halt as step 2 of R782 lays down. -/
def State.haltAll (s : State) : State := ((s.haltSeqs.setHolds 1).abortDie 0).abortDie 1

/-! ## Ports -/

/-- Enable or disable a Haldif port. -/
def State.portEnable (s : State) (q : Nat) (on : Bool) : State :=
  let a := Reg.lnkPortCtl (portDie q) (portLoc q)
  if s.on a Reg.lnkPortCtl_enable = on then s
  else if on then
    let s1 := s.p a Reg.lnkPortCtl_enable 1
    if lnkClk s1 (portDie q) then s1.trainStart q else s1
  else (s.leaveUp q 0).p a Reg.lnkPortCtl_enable 0

/-- The ports whose LNK_PORT_EXPECT names a station. -/
def portsTo (s : State) (st : Nat) : List Nat :=
  (List.range 16).filter (fun q =>
    let a := Reg.lnkPortExpect (portDie q) (portLoc q)
    s.on a Reg.lnkPortExpect_valid && s.g a Reg.lnkPortExpect_expect_station == st)

/-- Set the route entry of a station on both dies. -/
def State.setRoute (s : State) (st : Nat) (f : Nat → Nat) : State :=
  [0, 1].foldl (fun s d => s.p (Reg.lnkRoute d (st / 4)) (Reg.lnkRoute_entry (st % 4)) (f d)) s

/-! ## Pitch ends -/

/-- The pitch goes to Draining (R842): `skip` where no checkpoint is due. -/
def State.drain (s : State) (cause : Nat) (skip : Bool) : State :=
  let s1 := ((s.setMod .draining).showState 2).setPitch { s.m.pitch with skipped := skip }
  s1.pitchTo 3 cause

/-- END with a cause is acted on in Running (R842). -/
def State.endRunning (s : State) (cause : Nat) : State := s.drain 1 (cause != 0)

/-- Write par_en 0 in every table entry of both dies. -/
def State.parityOff (s : State) : State :=
  s.each (fun s i => s.p (Reg.prtTable0 (i / 64) (i % 64)) Reg.prtTable0_par_en 0) (List.range 128)

end Sys2Proof.Machine
end

