-- ==== Sys2Proof/Machine/Fault.lean ====
section
/-! DEFINITION. Failure, reserve and rejoin: heartbeats, suspicion, declaration, substitution, recovery, fencing and
rejoin (R763 to R813), and side-channel messages received (R673 to R677). -/

namespace Sys2Proof.Machine

/-- Replace the fault part. -/
def State.setFault (s : State) (x : FaultS) : State := s.setM { s.m with fault := x }

/-- The station this module serves, and the reserve of a station's group. -/
def servedStation (s : State) : Nat := s.g (Reg.lnkStation 0) Reg.lnkStation_station
def ownHome (s : State) : Nat := s.g (Reg.lnkStation 0) Reg.lnkStation_home
def reserveOf (st : Nat) : Nat := 0x8000 + st % 0x8000 / 8 * 8

/-- The wardens run: the dies are up. -/
def wardensRun (s : State) : Bool := s.dieOn 0 && s.dieOn 1

/-- Raise a warden event. -/
def State.wardenRaise (s : State) (bit : Nat) : State := s.raise ⟨0x30, 0, bit⟩ (.die 0)

/-! ## Heartbeats (R763 to R768) -/

/-- Training state 5 or 6: the port carries the side channel (R675). -/
def scUp (s : State) (q : Nat) : Bool := s.portState q == 5 || s.portState q == 6

/-- HEARTBEAT_SEND (R763, R764). -/
def execHeartbeatSend (p : Port) (s : State) : Host.Outcome State Fault Refusal :=
  let d := portDie p
  let x := s.port p
  if !scUp s p || decide (s.now < x.link.hbSent + 1000 * s.g (Reg.lnkHbCfg d) Reg.lnkHbCfg_hb_us) then .next s
  else
    let gen := s.g (Reg.lnkStateGen d) Reg.lnkStateGen_gen
    let b7 := s.g (Reg.lnkFltStatus d) Reg.lnkFltStatus_alive + 2 * s.g (Reg.lnkStateGen d) Reg.lnkStateGen_state
    let body := leBytes 2 (s.g (Reg.lnkStation d) Reg.lnkStation_station) ++
      leBytes 2 (s.g (Reg.lnkStation d) Reg.lnkStation_home) ++ leBytes 1 p.val ++ leBytes 1 b7 ++ leBytes 4 gen ++ leBytes 4 0
    .next ((s.setPort p { x with link := { x.link with hbSent := s.now } }).scSend p (scMsg 0x10 body))

/-- HEARTBEAT (R765, R767, R768). -/
def execHeartbeat (p : Port) (m : List Byte) (s : State) : Host.Outcome State Fault Refusal :=
  let d := portDie p
  let k := portLoc p
  if !scUp s p || byteAt m 0 != 0x10 then .next s
  else
    let alive := nfld (byteAt m 7) 0 1
    let gen := leAt m 8 4
    let a := Reg.lnkPortHb d k
    let s1 := (((s.p a Reg.lnkPortHb_peer_alive alive).p a Reg.lnkPortHb_peer_state (nfld (byteAt m 7) 1 3)).p a
      Reg.lnkPortHb_peer_station (leAt m 2 2)).p a Reg.lnkPortHb_peer_gen gen
    let x := s1.port p
    let s2 := if alive = 1 then
        (s1.setPort p { x with link := { x.link with hbAt := s.now } }).p (Reg.lnkFltStatus d) ⟨k, 1⟩ 0 else s1
    .next (if gen = s.g (Reg.lnkStateGen d) Reg.lnkStateGen_gen then s2 else s2.raise ⟨0x15, 2, 8 + k⟩ (.die d))

/-- LNK_HB_SILENT (R767). -/
def execLnkHbSilent (p : Port) (s : State) : Host.Outcome State Fault Refusal :=
  let d := portDie p
  let k := portLoc p
  let x := s.port p
  let c := Reg.lnkHbCfg d
  let due := !scUp s p ||
    decide (x.link.hbAt + 1000 * (s.g c Reg.lnkHbCfg_miss * s.g c Reg.lnkHbCfg_hb_us) ≤ s.now)
  if !s.dieOn d || !due || (s.rd (Reg.lnkFltStatus d)).getLsbD k then .next s
  else
    let s1 := (s.p (Reg.lnkFltStatus d) ⟨k, 1⟩ 1).setPort p { x with link := { x.link with silentAt := s.now } }
    .next ((s1.dbrk d (72 + 5 * k + 4) 1).raise ⟨0x15, 2, k⟩ (.die d))

/-- LNK_WATCHDOG (R766): no kick for wd_ms. -/
def execLnkWatchdog (d : Die) (s : State) : Host.Outcome State Fault Refusal :=
  if s.on (Reg.lnkFltStatus d) Reg.lnkFltStatus_alive ∧
      (s.die d).kickAt + 1000000 * s.g (Reg.lnkHbCfg d) Reg.lnkHbCfg_wd_ms ≤ s.now then
    .next ((s.p (Reg.lnkFltStatus d) Reg.lnkFltStatus_alive 0).raise ⟨0x15, 2, 16⟩ (.die d))
  else .next s

/-- A write of 1 to LNK_HB_KICK restarts the watchdog time. -/
def State.hbKick (s : State) (d : Nat) : State :=
  (s.setDie d { s.die d with kickAt := s.now }).p (Reg.lnkFltStatus d) Reg.lnkFltStatus_alive 1

/-- HB_KICK (R766). -/
def execHbKick (r : Requester) (d : Die) (s : State) : Host.Outcome State Fault Refusal :=
  .next (s.regWr r (Reg.lnkHbKick d) (fun s => s.hbKick d))

/-- A port is silent (LNK_FLT_STATUS.silent_now), or quarantined. -/
def portSilent (s : State) (q : Nat) : Bool := (s.rd (Reg.lnkFltStatus (portDie q))).getLsbD (portLoc q)
def portLost (s : State) (q : Nat) : Bool := portSilent s q || s.portState q == 6

/-! ## Fault messages (R771 to R773) -/

/-- A fault message: type, destination, sender's station word, and body. -/
def fltMsg (s : State) (typ dst src : Nat) (body : List Byte) : List Byte :=
  scMsg typ (leBytes 2 dst ++ leBytes 2 src ++ [63, 0] ++ leBytes 4 (ownGen s) ++ leBytes 4 (pitchId s) ++ body)

/-- The fields of a received fault message. -/
def fltDst (m : List Byte) : Nat := leAt m 2 2
def fltSrc (m : List Byte) : Nat := leAt m 4 2
def fltTtl (m : List Byte) : Nat := byteAt m 6
def fltGen (m : List Byte) : Nat := leAt m 8 4
def fltPitch (m : List Byte) : Nat := leAt m 12 4

/-- The ports in state 5 other than one. -/
def upPorts (s : State) (but : Option Nat) : List Nat :=
  (List.range 16).filter (fun q => s.portState q == 5 && but != some q)

/-- Send a message on every port in state 5 other than one. -/
def State.sendPorts (s : State) (but : Option Nat) (m : List Byte) : State := s.each (fun s q => s.scSend q m) (upPorts s but)

/-- Send a message toward a station: out_a of its route entry in state 5, else out_b (R772). -/
def State.sendTo (s : State) (dst : Nat) (m : List Byte) : State :=
  let e := routeEntry s 0 dst
  s.scSend (if s.portState (nfld e 0 4) = 5 then nfld e 0 4 else nfld e 4 4) m

/-- Flood a message of this module; its own copy counts as seen (R773). -/
def State.flood (s : State) (m : List Byte) : State :=
  (s.setFault { s.m.fault with seen := s.m.fault.seen ++ [(byteAt m 0, fltSrc m, fltGen m)] }).sendPorts none m

/-- Forward a message addressed to another station (R772). -/
def State.fltForward (s : State) (m : List Byte) : State :=
  if fltTtl m ≤ 1 then s else s.sendTo (fltDst m) (overlay m 6 [BitVec.ofNat 8 (fltTtl m - 1)])

/-- A fault message of a type arrives at a port: a flood is forwarded the first time and acted on for the own pitch, a
message for another station is forwarded, any other is acted on (R772, R773). -/
def State.fltReceive (s : State) (p : Nat) (m : List Byte) (typ : Nat) (act : State → State) : State :=
  if byteAt m 0 ≠ typ ∨ !wardensRun s ∨ !scUp s p then s
  else if fltDst m = 0xFFFF then
    let key := (typ, fltSrc m, fltGen m)
    if s.m.fault.seen.contains key then s
    else
      let s1 := (s.setFault { s.m.fault with seen := s.m.fault.seen ++ [key] }).sendPorts (some p) m
      if fltPitch m = pitchId s then act s1 else s1
  else if fltDst m ≠ servedStation s ∧ fltDst m ≠ ownHome s then s.fltForward m
  else act s

/-- SIDE_CHANNEL_RECEIVE (R676, R772, R773): a message that no other command takes. Messages the ports consume never enter
the queue (R765, R972). -/
def execSideChannelReceive (p : Port) (m : List Byte) (s : State) : Host.Outcome State Fault Refusal :=
  let t := byteAt m 0
  if t = 0x10 ∨ t = 1 ∨ t = 2 ∨ !scUp s p then .next s
  else if 0x11 ≤ t ∧ t ≤ 0x1A then .next (s.fltReceive p m t (fun s => s.scQueue p m))
  else .next (s.scQueue p m)

/-! ## Faults of the own module (R770) -/

/-- The fault an event of R770 names holds; its duration is the event's. -/
def failHolds (s : State) : FailWhy → Bool
  | .tile d t =>
      let c := s.g (Reg.seqStatus d t) Reg.seqStatus_halt_cause
      (s.tile d t).run == .halted && decide (2 ≤ c ∧ c ≤ 6) && s.m.plan.tiles.any (fun x => x.d == d.val && x.t == t.val)
  | .engine d u =>
      if u = 65 then ((s.die d).prt.map (·.halted)).getD false
      else if u < 65 then false
      else if u = 66 then (s.die d).clr.halted
      else ((chan s (.die d (Fin.ofNat 16 (u - 67)))).map (·.halted)).getD false
  | .watchdog d => s.on (Reg.lnkFltEvents d) Reg.lnkFltEvents_watchdog

/-- Cause and number of a FAIL message (R771). -/
def failCode : FailWhy → Nat × Nat
  | .tile d t => (0, d.val * 64 + t.val)
  | .engine _ u => (1, u)
  | .watchdog _ => (2, 0)

/-- FLT_SELF_FAIL (R770). -/
def execFltSelfFail (why : FailWhy) (s : State) : Host.Outcome State Fault Refusal :=
  if s.m.st ≠ .running ∨ !failHolds s why then .next s
  else
    let st := servedStation s
    let (c, n) := failCode why
    let m := fltMsg s 0x12 (reserveOf st) st (leBytes 2 st ++ leBytes 1 c ++ leBytes 1 n)
    .next (((s.sendPorts none m).haltSeqs).wardenRaise 0)

/-! ## Suspicion and declaration (R774 to R777, R785, R802) -/

/-- A DECLARE that names a station was accepted. -/
def declared (s : State) (f : Nat) : Bool := s.m.fault.decls.any (fun x => x.f == f)

/-- Cause of a SUSPECT (R771): 0 ports down, 1 silent, 2 alive 0. -/
def suspectCause (s : State) (qs : List Nat) : Nat :=
  if qs.all (fun q => !scUp s q) then 0
  else if qs.any (fun q => scUp s q && !s.on (Reg.lnkPortHb (portDie q) (portLoc q)) Reg.lnkPortHb_peer_alive) then 2 else 1

/-- SUSPECT_SEND (R774): every port to active station `st` is silent or in state 6. -/
def execSuspectSend (st : Nat) (s : State) : Host.Outcome State Fault Refusal :=
  let qs := portsTo s st
  let last := (s.m.fault.sent.filter (·.1 == st)).getLast?
  let due := match last with | some (_, t) => decide (t + 1000000 * setting s 20 ≤ s.now) | none => true
  if !wardensRun s || nbit st 15 || qs == [] || !qs.all (portLost s) || declared s st || !due then .next s
  else
    let m := fltMsg s 0x11 (reserveOf st) (servedStation s) (leBytes 2 st ++ leBytes 1 (suspectCause s qs))
    let s1 := s.setFault { s.m.fault with sent := s.m.fault.sent.filter (·.1 != st) ++ [(st, s.now)] }
    .next (s1.sendTo (reserveOf st) m)

/-- A STOP is accepted (R803, R842): it acts only in pitch state 2. -/
def State.stopAct (s : State) : State :=
  if pstate s ≠ 2 then s
  else
    let s1 := (s.haltAll.wardenRaise 5).setPitch { s.m.pitch with stopped := true }
    s1.drain 4 true

/-- Flood STOP with a cause and the station concerned, and accept it (R802, R803). -/
def State.stopFlood (s : State) (cause st : Nat) : State :=
  (s.flood (fltMsg s 0x18 0xFFFF (servedStation s) (leBytes 1 cause ++ leBytes 2 st))).stopAct

/-- The reserve takes station F and loads its plan copy (R785, R811). -/
def State.takeStation (s : State) (f : Nat) (pl : PlanS) : State :=
  let s1 := s.warmExit
  let s2 := s1.each (fun s q => s.portEnable q false) (portsTo s1 f)
  let s3 := (s2.p (Reg.lnkStation 0) Reg.lnkStation_station f).p (Reg.lnkStation 1) Reg.lnkStation_station f
  let s4 := (s3.loadPlan pl).setPitch { s3.m.pitch with served := true }
  s4.setFault { s4.m.fault with serving := some f }

/-- The reserve declares F failed (R776), then takes its steps (R785), or stops the job (R802 causes 0 and 1). -/
def State.declare (s : State) (f : Nat) : State :=
  let g := ownGen s + 1
  let s1 := s.setGen g
  let home := ownHome s
  let x := s1.m.fault
  let s2 := s1.setFault { x with
    decls := x.decls ++ [⟨f, g, home, s.now, true⟩], readys := [], dones := [], resumes := [], step := none
    declaredAt := some s.now, refreshed := false }
  let s3 := (s2.flood (fltMsg s2 0x13 0xFFFF home (leBytes 2 f ++ leBytes 2 home ++ leBytes 8 s.now))).wardenRaise 1
  if x.serving.isSome then s3.stopFlood 0 f
  else if !s.m.plan.copies.contains f then s3.stopFlood 1 f
  else ((s3.takeStation f (Config.planCopy s.m.plan.gen f)).setMod .recovery).showState 3

/-- This module is the reserve of a station's group, and no DECLARE names the station yet. -/
def mayDeclare (s : State) (f : Nat) : Bool :=
  nbit (ownHome s) 15 && ownHome s == reserveOf f && !nbit f 15 && !declared s f

/-- Both own ports to F are silent, and SUSPECTs for F came from at least agree_min stations within agree_ms (R775). -/
def agreed (s : State) (f : Nat) : Bool :=
  let recent := s.m.fault.suspects.filter (fun x => x.1 == f && decide (s.now ≤ x.2.2 + 1000000 * setting s 20))
  (portsTo s f).all (portSilent s) && decide (setting s 18 ≤ (recent.map (·.2.1)).eraseDups.length)

/-- SUSPECT (R775, R776, R785). -/
def execSuspectMsg (p : Port) (m : List Byte) (s : State) : Host.Outcome State Fault Refusal :=
  .next (s.fltReceive p m 0x11 (fun s =>
    let f := leAt m 16 2
    let x := s.m.fault
    let s1 := s.setFault { x with suspects := x.suspects.filter (fun y => !(y.1 == f && y.2.1 == fltSrc m)) ++ [(f, fltSrc m, s.now)] }
    if mayDeclare s1 f && agreed s1 f then s1.declare f else s1))

/-- FAIL (R775, R776, R785). -/
def execFailMsg (p : Port) (m : List Byte) (s : State) : Host.Outcome State Fault Refusal :=
  .next (s.fltReceive p m 0x12 (fun s =>
    let f := fltSrc m
    if mayDeclare s f && decide (fltGen m = ownGen s) then s.declare f else s))

/-! ## Members (R777, R780, R782, R804) -/

/-- A module fences itself (R804). -/
def State.fence (s : State) : State :=
  let s1 := s.haltAll.each (fun s q => s.portEnable q false) (List.range 16)
  let s2 := s1.setGen 0
  ((s2.setM { s2.m with st := .ready, plan := PlanS.none, fault := s2.m.fault.fresh }).showState 0).wardenRaise 6

/-- The module runs the pitch as a member. -/
def isMember (s : State) : Bool := s.m.st == .running || s.m.st == .recovery

/-- Steps 1 to 3 of R782, and the causes of STOP a member finds in a DECLARE (R802 causes 2 and 3). -/
def State.acceptDeclare (s : State) (f g coord : Nat) : State :=
  let x := s.m.fault
  let newer := decide (ownGen s < g)
  let s1 := s.setFault { x with
    decls := x.decls ++ [⟨f, g, coord, s.now, false⟩], step := none
    readys := if newer then [] else x.readys, dones := if newer then [] else x.dones
    refreshed := !newer && x.refreshed, resumes := if newer then [] else x.resumes, rebuild := none }
  let s2 := (((s1.setGen g).setMod .recovery).showState 3).haltAll
  let s3 := s2.each (fun s q => s.portEnable q false) (portsTo s2 f)
  if x.reserveLost && reserveOf f == reserveOf (ownHome s) then s3.stopFlood 2 f
  else if s.m.plan.mirrors.any (fun y => (y.f == f && declared s y.other) || (y.other == f && declared s y.f)) then
    s3.stopFlood 3 f
  else s3

/-- DECLARE (R777, R782, R804). -/
def execDeclareMsg (p : Port) (m : List Byte) (s : State) : Host.Outcome State Fault Refusal :=
  .next (s.fltReceive p m 0x13 (fun s =>
    let f := leAt m 16 2
    let g := fltGen m
    if f = servedStation s then (if isMember s then s.fence else s)
    else if isMember s && decide (ownGen s ≤ g) && !s.m.fault.decls.any (fun x => x.f == f && x.gen == g) then
      s.acceptDeclare f g (leAt m 18 2)
    else s))

/-- The proxy of a station (R779). -/
def proxyOf (f : Nat) : Nat := if f % 8 < 7 then f + 1 else f - 1

/-- The rewritten route entry of F on a die (R780). -/
def routeAround (s : State) (f d : Nat) : Nat :=
  if reserveOf f = reserveOf (servedStation s) then 7 + 15 * 16 + 256 * 2 else routeEntry s d (proxyOf f)

/-- The update step of the window in progress: the least over the tiles the plan uses. -/
def windowStep (s : State) : Nat :=
  let of (x : PlanTile) : Nat := s.m.plan.step0 + s.g (Reg.seqPass x.d x.t) Reg.seqPass_pass / s.m.plan.perWin
  match s.m.plan.tiles with
  | [] => s.m.plan.step0
  | x :: xs => xs.foldl (fun n y => min n (of y)) (of x)

/-- Send READY to a coordinator (R771, R782 step 6). -/
def State.sendReady (s : State) (coord : Nat) : State :=
  let lines := (s.rd (Reg.prtParSent 0)).toNat + (s.rd (Reg.prtParSent 1)).toNat
  s.sendTo coord (fltMsg s 0x14 coord (servedStation s) (leBytes 6 (windowStep s) ++ leBytes 8 lines))

/-- DECLARE_SETTLE (R782 steps 4 to 6): ack_timeout_us after step 3 of the oldest DECLARE not settled. -/
def execDeclareSettle (s : State) : Host.Outcome State Fault Refusal :=
  let x := s.m.fault
  match x.decls.find? (fun y => !y.settled) with
  | none => .next s
  | some y =>
    if s.m.st ≠ .recovery ∨ s.now < y.since + 1000 * s.g (Reg.lnkCfg 0) Reg.lnkCfg_ack_timeout_us then .next s
    else
      let s1 := (s.setRoute y.f (routeAround s y.f)).setFault { x with
        decls := x.decls.map (fun z => if z = y then { z with settled := true } else z) }
      let coords := ((s1.m.fault.decls.filter (fun z => z.gen == ownGen s)).map (·.coord)).eraseDups
      .next (s1.each State.sendReady coords)

/-! ## Restore (R786 to R795) -/

/-- The accepted DECLARE of a coordinator at the own generation (R787). -/
def declOf (s : State) (coord : Nat) : Option Decl :=
  s.m.fault.decls.find? (fun x => x.coord == coord && x.gen == ownGen s)

/-- A porter ship of `n` 64-byte lines to a station under table entry 63 (R574, R788, R789). -/
def shipDesc (n src dst st : Nat) : Desc :=
  padTo 0 64 ([8] ++ List.replicate 15 0 ++ leBytes 6 src ++ leBytes 6 dst ++ leBytes 6 0 ++ leBytes 4 n ++ leBytes 2 1 ++
    leBytes 2 1 ++ leBytes 2 0 ++ [0xFF, 0x80] ++ leBytes 2 st ++ [0, 11])

/-- Bytes of memory as a warden reads them; zeros where the read is refused. -/
def State.wardenRead (s : State) (a n : Nat) : List Byte × State :=
  let (l, s1) := s.readSpan (wardenOf (addrDie a)) a n
  (l.map (fun x => x.getD 0), s1)

/-- Pass a descriptor from the wardens to an engine. -/
def State.push (s : State) (d u : Nat) (x : Desc) : State := (s.engPush d u ⟨x, 0, 0, 255⟩).2

/-- Ship one mirrored shard to F (R788, R789). -/
def State.shipShard (s : State) (x : Mirrored) : State :=
  let a := Reg.prtTable0 x.d 63
  let s0 := (((s.p a Reg.prtTable0_valid 1).p a Reg.prtTable0_par_en 0).p (Reg.prtTable2 x.d 63) Reg.prtTable2_d_m 0)
  let span := 64 + 0x4000 * ((1 + x.arrays) * x.units)
  let (h0, s1) := s0.wardenRead x.area 64
  let (h1, s2) := s1.wardenRead (x.area + span) 64
  let slot := if leAt h0 8 6 < leAt h1 8 6 then x.area + span else x.area
  let n := 0x4000 * x.units / 64
  let s3 := s2.push x.d 65 (shipDesc n (slot + 64) x.master x.f)
  let s4 := s3.each (fun s j => s.push x.d 65 (shipDesc n (slot + 64 + 0x4000 * ((1 + j) * x.units))
    (x.state + 0x4000 * (j * x.units)) x.f)) (List.range x.arrays)
  s4.push x.d 65 (shipDesc 1 slot x.hdr x.f)

/-- Send DONE to a coordinator (R771). -/
def State.sendDone (s : State) (coord : Nat) (ships rebuild short : Bool) : State :=
  s.sendTo coord (fltMsg s 0x16 coord (servedStation s) [BitVec.ofNat 8 (ships.toNat + 2 * rebuild.toNat), BitVec.ofNat 8 short.toNat])

/-- Rebuild units written short so far, by die. -/
def shortNow (s : State) : Nat × Nat := (fld (s.rd (Reg.dobCnt32 0 33)) 0 32, fld (s.rd (Reg.dobCnt32 1 33)) 0 32)

/-- Run clearing descriptors on a die: its engine is no longer held (DEDUCED, log entry 33). -/
def State.runClr (s : State) (x : Nat × Desc) : State := (s.p (Reg.clrCtl x.1) Reg.clrCtl_hold 0).push x.1 66 x.2

/-- The group's rebuild of F's parity region begins on this station (R793, R795). -/
def State.rebuildStart (s : State) (f : Nat) : State :=
  let mine := (s.m.plan.rebuilds.filter (·.1 == f)).map (·.2)
  if mine = [] then s
  else
    let s1 := (s.p (Reg.clrXor 0) Reg.clrXor_xor 1).p (Reg.clrXor 1) Reg.clrXor_xor 1
    (s1.each State.runClr mine).setFault { s1.m.fault with rebuild := some (shortNow s) }

/-- A station acts on RESTORE for F with replay step `sr` (R788, R791, R795). -/
def State.restoreAct (s : State) (f coord sr : Nat) (isCoord : Bool) : State :=
  let s1 := s.setFault { s.m.fault with step := some sr }
  let ms := s.m.plan.mirrors.filter (fun x => x.f == f)
  let s2 := s1.each State.shipShard ms
  let s3 := if ms = [] ∨ isCoord then s2 else s2.sendDone coord true false false
  let s4 := if isCoord then s3 else s3.each State.runClr ((s.m.plan.gathers.filter (·.1 == f)).map (·.2))
  if isCoord || reserveOf f == reserveOf (ownHome s) then s4.rebuildStart f else s4

/-- The stations of the job that no accepted DECLARE names (R786). -/
def aliveJob (s : State) : List Nat := s.m.plan.job.filter (fun st => !declared s st)

/-- The coordinator floods RESTORE once every READY is in and its own steps are done (R786). -/
def State.tryRestore (s : State) : State :=
  let x := s.m.fault
  match x.serving, x.step, x.declaredAt with
  | some f, none, some _ =>
    if (aliveJob s).all (fun st => x.readys.any (fun r => r.1 == st)) then
      let sr := match x.readys.map (·.2) with | [] => windowStep s | n :: ns => ns.foldl min n
      let home := ownHome s
      (s.flood (fltMsg s 0x15 0xFFFF home (leBytes 6 sr))).restoreAct f home sr true
    else s
  | _, _, _ => s

/-- READY (R786, R796). -/
def execReadyMsg (p : Port) (m : List Byte) (s : State) : Host.Outcome State Fault Refusal :=
  .next (s.fltReceive p m 0x14 (fun s =>
    let x := s.m.fault
    let src := fltSrc m
    if x.declaredAt.isNone || decide (fltGen m ≠ ownGen s) then s
    else
      let rcvd := (s.rd (Reg.prtParRcvd 0 (src % 8))).toNat + (s.rd (Reg.prtParRcvd 1 (src % 8))).toNat
      let s1 := if reserveOf src = ownHome s ∧ !declared s src ∧ leAt m 22 8 ≠ rcvd then s.wardenRaise 3 else s
      (s1.setFault { s1.m.fault with readys := x.readys.filter (·.1 != src) ++ [(src, leAt m 16 6)] }).tryRestore))

/-- RESTORE (R787, R788, R791, R795). -/
def execRestoreMsg (p : Port) (m : List Byte) (s : State) : Host.Outcome State Fault Refusal :=
  .next (s.fltReceive p m 0x15 (fun s =>
    match declOf s (fltSrc m) with
    | some y => if s.m.st = .recovery then s.restoreAct y.f y.coord (leAt m 16 6) false else s
    | none => s))

/-! ## Done and resume (R790, R791, R795, R799) -/

/-- Refresh one own shard at the reserve (R790). -/
def State.refreshShard (s : State) (x : Shard) : State :=
  let (h, s1) := s.wardenRead x.hdr 64
  let sm := leAt h 8 6
  let s2 := (s1.writeSpan (wardenOf x.d) (x.hdr + 8) (leBytes 6 (sm - 1))).2
  let s3 := (s2.writeSpan (wardenOf x.d) x.dir (List.replicate (8 * x.entries) 0)).2
  let b38 := BitVec.ofNat 8 (x.desc.b 38 - x.desc.b 38 / 16 % 2 * 16)
  let b39 := BitVec.ofNat 8 (x.desc.b 39 - x.desc.b 39 / 64 % 2 * 64)
  s3.push x.d 64 (overlay (overlay x.desc 38 [b38, b39]) 42 (leBytes 6 sm))

/-- Every partner of F has sent DONE with bit [0] set. -/
def shipsIn (s : State) : Bool :=
  s.m.plan.partners.all (fun st => declared s st || s.m.fault.dones.any (fun x => x.1 == st && x.2.1))

/-- The reserve refreshes F's shards, sends their images and runs F's PLACE descriptors (R790, R791). -/
def State.refresh (s : State) : State :=
  let s1 := s.each State.refreshShard s.m.plan.shards
  let s2 := s1.each State.runClr s.m.plan.runs
  s2.setFault { s2.m.fault with refreshed := true }

/-- The rebuild is over on every station of F's group, or F has none. -/
def rebuildIn (s : State) (f : Nat) : Bool :=
  !s.m.plan.rebuilds.any (·.1 == f) ||
    (s.m.fault.rebuild.isNone && (aliveJob s).all (fun st =>
      reserveOf st != ownHome s || s.m.fault.dones.any (fun x => x.1 == st && x.2.2)))

/-- A member resumes at the window of step `sr` (R799). -/
def State.resumeAct (s : State) (sr : Nat) : State :=
  let pl := s.m.plan
  let s1 := s.restoreTallies pl
  let s2 := s1.each (fun s x => (s.setPass x.d x.t x.pass).p (Reg.seqPc x.d x.t) Reg.seqPc_pc x.pc)
    (pl.restarts.filter (fun x => x.step == sr))
  let s3 := ((s2.setHolds 0).startSeqs.setMod .running).showState 1
  let s4 := (s3.wardenRaise 4).setFault { s3.m.fault with
    readys := [], dones := [], resumes := [], step := none, declaredAt := none, suspects := [], sent := [] }
  match s4.m.pitch.endHeld with
  | some c => (s4.setPitch { s4.m.pitch with endHeld := none }).endRunning c
  | none => s4

/-- The coordinator floods RESUME at the last DONE, and resumes itself. -/
def State.tryResume (s : State) : State :=
  let x := s.m.fault
  match x.serving, x.step, x.declaredAt with
  | some f, some sr, some _ =>
    if x.refreshed && shipsIn s && rebuildIn s f then
      (s.flood (fltMsg s 0x17 0xFFFF (ownHome s) (leBytes 6 sr))).resumeAct sr
    else s
  | _, _, _ => s

/-- Both rebuild REDUCEs of each die are over. -/
def rebuildOver (s : State) : Bool :=
  [0, 1].all (fun d => (s.die d).clrQ == [] && (s.die d).clr.ops == [])

/-- REBUILD_DONE (R795). -/
def execRebuildDone (s : State) : Host.Outcome State Fault Refusal :=
  match s.m.fault.rebuild with
  | none => .next s
  | some old =>
    if !rebuildOver s then .next s
    else
      let short := decide (shortNow s ≠ old)
      let s1 := ((s.p (Reg.clrXor 0) Reg.clrXor_xor 0).p (Reg.clrXor 1) Reg.clrXor_xor 0).parityOff
      let s2 := s1.setFault { s1.m.fault with rebuild := none }
      if s2.m.fault.serving.isSome then .next s2.tryResume
      else
        let coords := ((s2.m.fault.decls.filter (fun z => z.gen == ownGen s && reserveOf z.f == reserveOf (ownHome s))).map
          (·.coord)).eraseDups
        .next (s2.each (fun s c => s.sendDone c false true short) coords)

/-- DONE (R790, R791, R798). -/
def execDoneMsg (p : Port) (m : List Byte) (s : State) : Host.Outcome State Fault Refusal :=
  .next (s.fltReceive p m 0x16 (fun s =>
    let x := s.m.fault
    let src := fltSrc m
    if x.declaredAt.isNone || decide (fltGen m ≠ ownGen s) then s
    else
      let old := (x.dones.find? (·.1 == src)).getD (src, false, false)
      let s1 := s.setFault { x with dones := x.dones.filter (·.1 != src) ++
        [(src, old.2.1 || nbit (byteAt m 16) 0, old.2.2 || nbit (byteAt m 16) 1)] }
      let s2 := if shipsIn s1 && !s1.m.fault.refreshed then s1.refresh else s1
      s2.tryResume))

/-- RESUME (R787, R799). -/
def execResumeMsg (p : Port) (m : List Byte) (s : State) : Host.Outcome State Fault Refusal :=
  .next (s.fltReceive p m 0x17 (fun s =>
    match declOf s (fltSrc m) with
    | none => s
    | some _ =>
      if s.m.st ≠ .recovery then s
      else
        let x := s.m.fault
        let s1 := s.setFault { x with resumes := x.resumes ++ [fltSrc m] }
        let all := (x.decls.filter (fun y => y.gen == ownGen s)).all (fun y => s1.m.fault.resumes.contains y.coord)
        if all then s1.resumeAct (leAt m 16 6) else s1))

/-- STOP (R803). -/
def execStopMsg (p : Port) (m : List Byte) (s : State) : Host.Outcome State Fault Refusal :=
  .next (s.fltReceive p m 0x18 State.stopAct)

/-- RECOVER_TIMEOUT (R802 causes 4 and 5). -/
def execRecoverTimeout (s : State) : Host.Outcome State Fault Refusal :=
  let x := s.m.fault
  let late (t : Nat) : Bool := decide (t + 1000000 * setting s 22 ≤ s.now)
  match x.declaredAt with
  | some t => if s.m.st = .recovery ∧ late t then .next (s.stopFlood 4 (x.serving.getD 0)) else .next s
  | none =>
    match x.decls.getLast? with
    | some y =>
      if s.m.st = .recovery ∧ x.step.isNone ∧ x.resumes = [] ∧ late y.since then .next (s.stopFlood 5 y.f) else .next s
    | none => .next s

/-! ## Reserve lost, fencing, rejoin (R778, R804 to R809) -/

/-- Every port of a list has been silent or quarantined for agree_ms. -/
def silentLong (s : State) (qs : List Nat) : Bool :=
  qs.all (fun q => portLost s q && decide ((s.port q).link.silentAt + 1000000 * setting s 20 ≤ s.now))

/-- RESERVE_LOST (R778). -/
def execReserveLost (s : State) : Host.Outcome State Fault Refusal :=
  let st := ownHome s
  let qs := portsTo s (reserveOf st)
  if !wardensRun s || nbit st 15 || s.m.fault.reserveLost || qs == [] || !silentLong s qs || !qs.all (portSilent s) then .next s
  else .next ((s.parityOff.wardenRaise 2).setFault { s.m.fault with reserveLost := true })

/-- The ports whose LNK_PORT_EXPECT is valid. -/
def expectPorts (s : State) : List Nat :=
  (List.range 16).filter (fun q => s.on (Reg.lnkPortExpect (portDie q) (portLoc q)) Reg.lnkPortExpect_valid)

/-- FENCED (R804): every port with EXPECT.valid 1 has been silent or in state 6 for agree_ms. -/
def execFenced (s : State) : Host.Outcome State Fault Refusal :=
  if isMember s && silentLong s (expectPorts s) then .next s.fence else .next s

/-- The result of a JOIN (R809). -/
def joinResult (s : State) (m : List Byte) : Nat :=
  if declared s (fltSrc m) || s.m.fault.serving == some (fltSrc m) then 3
  else if fltGen m ≠ ownGen s then 1
  else if !nbit (byteAt m 32) 0 then 2
  else 0

/-- JOIN (R809). -/
def execJoinMsg (p : Port) (m : List Byte) (s : State) : Host.Outcome State Fault Refusal :=
  .next (s.fltReceive p m 0x19 (fun s =>
    let c := joinResult s m
    let s1 := s.scSend p (fltMsg s 0x1A (fltSrc m) (servedStation s) (leBytes 1 c))
    if c = 0 then s1.setFault { s1.m.fault with joins := s1.m.fault.joins.filter (· != fltSrc m) ++ [fltSrc m] }
    else s1.wardenRaise 7))

/-- JOIN_ANSWER (R808). -/
def execJoinAnswer (p : Port) (m : List Byte) (s : State) : Host.Outcome State Fault Refusal :=
  .next (s.fltReceive p m 0x1A (fun s =>
    if byteAt m 16 = 0 then s.setFault { s.m.fault with joined := true } else s))

/-- A module in Ready sends JOIN on a port that reaches state 5 (R808). -/
def State.joinSend (s : State) (q : Nat) : State :=
  if s.m.st ≠ .ready then s
  else
    let dst := s.g (Reg.lnkPortExpect (portDie q) (portLoc q)) Reg.lnkPortExpect_expect_station
    s.scSend q (fltMsg s 0x19 dst (servedStation s) (serialBytes ++ leBytes 1 s.m.fault.scrubbed.toNat))

/-- PORT_IDENTITY (R631 to R633, R808). -/
def execPortIdentity (p : Port) (ident : List Byte) (s : State) : Host.Outcome State Fault Refusal :=
  match s.identity p ident with
  | (true, s1) => .next (s1.joinSend p)
  | (false, s1) => .next s1

end Sys2Proof.Machine
end

