-- ==== Sys2Proof/Machine/Ether.lean ====
section
/-! DEFINITION. The Ethernet ports: link state, arriving frames, neighbours, the RoCEv2 subset and the send queues
(R814 to R835). -/

namespace Sys2Proof.Machine

/-! ## Ports and frames -/

/-- The states in which ports 0 and 4 alone are up (R820). -/
def lowEth (s : State) : Bool := s.m.st == .standby || s.m.st == .warmReserve

/-- A port may come up: the module has power, the port is enabled, and neither R820, R881, R1036 nor the supply and power
rules of its cage keep it down. -/
def ethMay (s : State) (e : Nat) : Bool :=
  s.on (Reg.ethPortCfg e) Reg.ethPortCfg_enable && !(ethPort s e).lowPower &&
    !(s.g Reg.mgtConn Reg.mgtConn_cage_off).testBit e &&
    (if s.m.sec.recovery then e == 0
     else s.m.st != .off && s.m.furn.ident != [] && (!lowEth s || e == 0 || e == 4))

/-- ETH_LINK_UP (R815, R820). -/
def execEthLinkUp (e : Fin 8) (optical : Bool) (s : State) : Host.Outcome State Fault Refusal :=
  if ethMay s e then
    .next ((s.p (Reg.ethPortStatus e) Reg.ethPortStatus_up 1).p (Reg.ethPortStatus e) Reg.ethPortStatus_optical
      optical.toNat)
  else .next s

/-- ETH_PORT_DOWN (R816, R832). -/
def execEthPortDown (e : Fin 8) (s : State) : Host.Outcome State Fault Refusal :=
  if s.m.st = .off ∧ !s.m.sec.recovery then .next s else .next ((s.ethDown e).ethRaise e 0)

/-- A port is up. -/
def ethUp (s : State) (e : Nat) : Bool := s.on (Reg.ethPortStatus e) Reg.ethPortStatus_up

/-- Drop an arriving packet (R819, R825). -/
def State.ethDrop (s : State) : State := s.mbrk (Reg.ethCnt32 0) 0x21 0 1

/-- Emit a frame of a port. -/
def State.ethEmit (s : State) (e : Nat) (f : EthOut) (n : Nat) : State := (s.emit (.eth e f)).ethTx e n

/-- The receive buffer beyond which a port sends pause (R833). -/
def pauseAbove : Nat := 0x180000

/-- Pause follows what the receive buffer holds (R833). -/
def State.pauseCheck (s : State) (e : Nat) : State :=
  let x := ethPort s e
  let on := decide (pauseAbove < x.held)
  if on = x.pausing then s
  else (s.setEth e { x with pausing := on }).ethEmit e (.pause (s.g (Reg.ethPortCfg e) Reg.ethPortCfg_pfc_prio) on) 64

/-! ## Send queues (R835) -/

/-- Queue pair `q` of a port. -/
def qpOf (s : State) (e q : Nat) : Option QpS := ((ethPort s e).qps.find? (·.1 == q)).map (·.2)

/-- Bytes of the frames that carry `n` bytes of RoCEv2 payload at a path MTU of 4 096: each frame Ethernet, IP, UDP, BTH,
ICRC, FCS. -/
def roceFrames (n : Nat) : Nat := n + max 1 ((n + 4095) / 4096) * 78

/-- Send a request, or send it again. -/
def State.sqSend (s : State) (e q : Nat) (x : SqReq) : State :=
  s.ethEmit e (.request q x.op x.va x.key x.data x.len) (roceFrames x.data.length)

/-- Send the entry after those in flight; the queue pair fails where the entry is reserved or its local data is
refused. -/
def State.sqOne (s : State) (e q n : Nat) (x : QpS) : State :=
  let who : Requester := .roce (Fin.ofNat 8 e)
  let a := s.g (Reg.ethSq e q) Reg.ethSq_base + 64 * (n % s.g (Reg.ethSqCfg e q) Reg.ethSqCfg_entries)
  match s.readLine who a with
  | (none, s1) => s1.qpError e q
  | (some bs, s1) =>
    let r : SqReq :=
      { entry := n, op := byteAt bs 0, tally := leAt bs 4 4, loc := leAt bs 8 6, va := leAt bs 16 8, key := leAt bs 24 4
        len := leAt bs 28 4, data := [] }
    if 3 ≤ r.op ∨ r.len = 0 ∨ 2 ^ 30 < r.len then s1.qpError e q
    else
      let (data, s2) := if r.op = 2 then (some [], s1) else
        (let (l, s') := s1.readSpan who r.loc r.len
         (whole l, s'))
      match data with
      | none => s2.qpError e q
      | some d =>
        let r := { r with data := d }
        (s2.setQp e q { x with out := x.out ++ [r], sentAt := if x.out = [] then s.now else x.sentAt }).sqSend e q r

/-- Send every entry up to the tail, unless the queue pair has failed or the port is paused. -/
def State.sqPump (s : State) (e q : Nat) : Nat → State
  | 0 => s
  | fuel + 1 =>
    let c := Reg.ethSqCfg e q
    match qpOf s e q with
    | none => s
    | some x =>
      let n := (s.g c Reg.ethSqCfg_head + x.out.length) % 65536
      if x.err || (ethPort s e).paused || !ethUp s e || n == s.g c Reg.ethSqCfg_tail then s
      else (s.sqOne e q n x).sqPump e q fuel

/-- A write of ETH_SQ_BELL of port `e`. -/
def State.sqBell (s : State) (e : Nat) (v : Word) : State :=
  let q := fld v 0 6
  let tail := fld v 32 16
  let c := Reg.ethSqCfg e q
  if s.g c Reg.ethSqCfg_entries < (tail + 65536 - s.g c Reg.ethSqCfg_head) % 65536 then (s.ethRaise e 1).fail .value
  else (s.p c Reg.ethSqCfg_tail tail).sqPump e q 65536

/-- SQ_BELL (R835). -/
def execSqBell (r : Requester) (e : Fin 8) (v : Word) (s : State) : Host.Outcome State Fault Refusal :=
  .next (s.regWr r (Reg.ethSqBell e) (fun s => s.sqBell e v))

/-- SQ_ENTRY_COMPLETE (R835, R387): the oldest request in flight is acknowledged; a READ brings `data`. -/
def execSqEntryComplete (e : Fin 8) (q : Fin 64) (data : List Byte) (s : State) : Host.Outcome State Fault Refusal :=
  match qpOf s e q with
  | some x =>
    match x.out with
    | r :: rest =>
      if x.err ∨ (r.op = 2 ∧ data.length ≠ r.len) then .next s
      else
        let (bad, s1) := if r.op = 2 then
            (let (b, s') := s.writeSpan (.roce e) r.loc data
             (b.isSome, s'))
          else (false, s)
        if bad then .next (s1.qpError e q)
        else
          let s2 := s1.setQp e q { x with out := rest, sentAt := s.now, resends := 0 }
          let s3 := s2.p (Reg.ethSqCfg e q) Reg.ethSqCfg_head ((r.entry + 1) % 65536)
          .next ((s3.addTally (addrDie (s.g (Reg.ethSq e q) Reg.ethSq_base)) 67 r.tally 1).sqPump e q 65536)
    | [] => .next s
  | none => .next s

/-- ROCE_RETRANSMIT (R831). -/
def execRoceRetransmit (e : Fin 8) (q : Fin 64) (s : State) : Host.Outcome State Fault Refusal :=
  match qpOf s e q with
  | some x =>
    if x.err ∨ x.out = [] ∨ s.now < x.sentAt + 1000 * s.g (Reg.ethPortCfg e) Reg.ethPortCfg_ack_us then .next s
    else if 7 ≤ x.resends then .next (s.qpError e q)
    else .next ((s.setQp e q { x with resends := x.resends + 1, sentAt := s.now }).each (fun s r => s.sqSend e q r) x.out)
  | none => .next s

/-- Line rate, in the unit of a queue pair's send rate. -/
def lineRate : Nat := 65536

/-- CNP_RECEIVE (R834). -/
def execCnpReceive (e : Fin 8) (q : Fin 64) (s : State) : Host.Outcome State Fault Refusal :=
  match qpOf s e q with
  | some x => .next (s.setQp e q { x with rate := x.rate / 2, rateAt := s.now })
  | none => .next s

/-- RATE_REGAIN (R834): 55 µs since the rate last changed. -/
def execRateRegain (e : Fin 8) (q : Fin 64) (s : State) : Host.Outcome State Fault Refusal :=
  match qpOf s e q with
  | some x =>
    if lineRate ≤ x.rate ∨ s.now < x.rateAt + 55000 then .next s
    else .next (s.setQp e q { x with rate := min lineRate (x.rate + lineRate / 16), rateAt := s.now })
  | none => .next s

/-! ## Arriving frames (R817, R819, R820, R825, R833, R834) -/

/-- A priority-flow-control frame: pause on the own priority stops and releases the send queues (R833). -/
def State.pfcTake (s : State) (e prio : Nat) (on : Bool) : State :=
  if prio ≠ s.g (Reg.ethPortCfg e) Reg.ethPortCfg_pfc_prio then s
  else
    let s1 := s.setEth e { ethPort s e with paused := on }
    if on then s1 else s1.each (fun s q => s.sqPump e q 65536) ((ethPort s e).qps.map (·.1))

/-- A RoCEv2 packet: its bytes stay in the receive buffer until the request it belongs to is served. -/
def State.roceTake (s : State) (e : Nat) (f : EthFrame) (icrcOk ce : Bool) (qp : Nat) : State :=
  let x := ethPort s e
  if lowEth s || !icrcOk || decide (2 ^ 21 < x.held + f.bytes) then s.ethDrop
  else
    let s1 := (s.setEth e { x with held := x.held + f.bytes }).pauseCheck e
    if ce then s1.ethEmit e (.cnp qp) (roceFrames 16) else s1

/-- ETH_FRAME_RECEIVE. -/
def execEthFrameReceive (e : Fin 8) (f : EthFrame) (s : State) : Host.Outcome State Fault Refusal :=
  if !ethUp s e then .next s
  else
    let s1 := s.inc64 (Reg.ethCntBytes e 1) f.bytes
    if 9216 < f.bytes ∨ 1 < f.tags then .next s1.ethDrop
    else
      let rec' := s.m.sec.recovery
      match f.kind with
      | .pitch | .ptp => .next (if rec' then s1.ethDrop else s1)
      | .own => .next s1
      | .recovery => .next (if rec' then s1 else s1.ethDrop)
      | .roce ok ce qp => .next (if rec' then s1.ethDrop else s1.roceTake e f ok ce qp)
      | .pfc prio on => .next (s1.pfcTake e prio on)
      | .fragment | .other => .next s1.ethDrop

/-- The MAC address of port 0 in recovery mode: that of a valid furnish copy, else 0x02 and the low 5 bytes of the serial
(R1036). -/
def recMac (s : State) : List Byte :=
  let ok (v : Nat) : Bool := furnCause s v true == 0
  if ok 0 || ok 1 then slice (furnIdent s (furnPick s ok)) 0xE0 6 else 0x02 :: serialBytes.take 5

/-- The own MAC address of a port: in the held identity (R814, R870), or in recovery mode (R1036). -/
def ownMac (s : State) (e : Nat) : List Byte :=
  if s.m.sec.recovery then recMac s else slice s.m.furn.ident (0xE0 + 64 * e) 6

/-- NEIGHBOUR_ANSWER (R818): `peer` is the sender's IP address. The two networks keep their caches at ports 0 and 4. -/
def execNeighbourAnswer (e : Fin 8) (peer : List Byte) (msg : NbrMsg) (s : State) : Host.Outcome State Fault Refusal :=
  if !ethUp s e then .next s
  else match msg with
  | .resolve => .next (s.ethEmit e (.reply peer (ownMac s e)) 64)
  | .echo payload => .next (s.ethEmit e (.reply peer payload) (max 64 (udpFrame s e peer payload.length)))
  | .answer mac =>
    let n := e.val / 4 * 4
    let x := ethPort s n
    let l := x.nbr.filter (fun y => y.1 != peer) ++ [(peer, mac)]
    .next (s.setEth n { x with nbr := l.drop (l.length - 64) })

/-! ## Incoming requests (R824 to R830) -/

/-- A request is served: its bytes leave the receive buffer. -/
def State.roceServed (s : State) (e : Nat) (r : RoceReq) : State :=
  let x := ethPort s e
  (s.setEth e { x with held := x.held - r.held }).pauseCheck e

/-- A request meets its queue pair: the port is up, RoCEv2 is served, and the queue pair is open and not in error. -/
def roceMeets (s : State) (e : Nat) (r : RoceReq) : Bool :=
  ethUp s e && !lowEth s && (match qpOf s e r.qp with | some x => !x.err | none => false)

/-- NAK, and its count (R824, R827). -/
def State.nak (s : State) (e : Nat) (f : EthOut) (counted : Bool) : State :=
  let s1 := s.ethEmit e f (roceFrames 0)
  if counted then s1.mbrk (Reg.ethCnt32 1) 0x21 1 1 else s1

/-- The region a request names lets it in (R827): key, range and access. -/
def mrGrants (s : State) (r : RoceReq) (n : Nat) (write : Bool) : Bool :=
  let i := r.key % 256
  let a := Reg.ethMr i
  decide (i < 64) && s.on a Reg.ethMr_valid && s.g (Reg.ethMrKey i) Reg.ethMrKey_key == r.key &&
    s.on a (if write then Reg.ethMr_wr else Reg.ethMr_rd) && decide (s.g a Reg.ethMr_base ≤ r.va) &&
    decide (r.va + n ≤ s.g a Reg.ethMr_base + s.g (Reg.ethMrLen i) Reg.ethMrLen_length)

/-- ROCE_WRITE (R827, R828). -/
def execRoceWrite (e : Fin 8) (r : RoceReq) (s : State) : Host.Outcome State Fault Refusal :=
  if !roceMeets s e r then .next s
  else
    let s0 := s.roceServed e r
    if !mrGrants s r r.data.length true then .next (s0.nak e (.nakAccess r.qp) true)
    else match s0.writeSpan (.roce e) r.va r.data with
      | (none, s1) => .next (s1.ethEmit e (.ack r.qp) (roceFrames 4))
      | (some _, s1) => .next (s1.nak e (.nakAccess r.qp) false)

/-- ROCE_READ (R827, R16 to R19). -/
def execRoceRead (e : Fin 8) (r : RoceReq) (s : State) : Host.Outcome State Fault Refusal :=
  if !roceMeets s e r then .next s
  else
    let s0 := s.roceServed e r
    if !mrGrants s r r.len false then .next (s0.nak e (.nakAccess r.qp) true)
    else
      let (l, s1) := s0.readSpan (.roce e) r.va r.len
      match whole l with
      | some bs => .next (s1.ethEmit e (.readResp r.qp bs) (roceFrames r.len))
      | none => .next (s1.nak e (.nakAccess r.qp) false)

/-- NAK_INVALID_REQUEST (R824): any opcode but SEND, WRITE and READ. -/
def execNakInvalidRequest (e : Fin 8) (r : RoceReq) (s : State) : Host.Outcome State Fault Refusal :=
  if !roceMeets s e r ∨ r.op < 3 then .next s
  else .next ((s.roceServed e r).nak e (.nakInvalid r.qp) true)

/-- The stations of the group that a reserve must take at plan load (R811): no JOIN of theirs was answered with
result 0. -/
def unjoined (s : State) (pl : PlanS) : List Nat :=
  if nbit (identStation s) 15 then pl.copies.filter (fun f => !s.m.fault.joins.contains f) else []

/-- The wardens act on a SEND while a plan is awaited: they load it (R398, R799), and a reserve takes the station of an
unjoined member (R811). -/
def State.planArrives (s : State) : State :=
  if pstate s ≠ 1 ∨ s.m.st ≠ .ready ∨ s.m.pitch.loaded then s
  else
    let pl := Config.plan s.m.pitch.planGen
    let s1 := (s.loadPlan pl).restoreTallies pl
    let s2 := match unjoined s pl with
      | f :: _ => s1.takeStation f (Config.planCopy pl.gen f)
      | [] => s1
    s2.setPitch { s2.m.pitch with loaded := true }

/-- ROCE_SEND (R829, R830). -/
def execRoceSend (e : Fin 8) (r : RoceReq) (s : State) : Host.Outcome State Fault Refusal :=
  if !roceMeets s e r then .next s
  else
    let s0 := s.roceServed e r
    let base := s.g (Reg.ethRing e r.qp) Reg.ethRing_base
    let c := Reg.ethRingCfg e r.qp
    let size := s.g c Reg.ethRingCfg_buf_bytes * 64
    let n := s.g c Reg.ethRingCfg_nbuf
    let d := addrDie base
    let line := e.val + 1
    if size < r.data.length then .next (s0.nak e (.nakInvalid r.qp) false)
    else if n ≤ s.g (Reg.dcpReq d (line / 8)) ⟨8 * (line % 8), 8⟩ then .next (s0.ethEmit e (.rnr r.qp 40) (roceFrames 4))
    else match s0.writeSpan (.roce e) (base + s.g c Reg.ethRingCfg_head * size) r.data with
      | (some _, s1) => .next (s1.nak e (.nakAccess r.qp) false)
      | (none, s1) =>
        let s2 := (s1.p c Reg.ethRingCfg_head ((s.g c Reg.ethRingCfg_head + 1) % n)).request true d 0 line
        .next ((s2.ethEmit e (.ack r.qp) (roceFrames 4)).planArrives)

end Sys2Proof.Machine
end

