-- ==== Sys2Proof/Machine/Pitch.lean ====
section
/-! DEFINITION. Pitch messages the module answers, the pitch states, the scrub and toll checkpoints (R836 to R856). -/

namespace Sys2Proof.Machine

/-! ## Accepting a message (R836 to R841) -/

/-- Fields of a pitch message. -/
def PitchMsg.typ (m : PitchMsg) : Nat := byteAt m.bytes 3
def PitchMsg.bodyLen (m : PitchMsg) : Nat := leAt m.bytes 6 2
def PitchMsg.pitch (m : PitchMsg) : Nat := leAt m.bytes 8 4
def PitchMsg.seq (m : PitchMsg) : Nat := leAt m.bytes 12 8
def PitchMsg.time (m : PitchMsg) : Nat := leAt m.bytes 20 8
def PitchMsg.body (m : PitchMsg) : List Byte := slice m.bytes 32 m.bodyLen
def PitchMsg.tag (m : PitchMsg) : List Byte := slice m.bytes (32 + m.bodyLen) 32

/-- The conditions of R838 on form and tag. -/
def pitchForm (s : State) (m : PitchMsg) : Bool :=
  leAt m.bytes 0 2 == 0x51DE && byteAt m.bytes 2 == 1 && leAt m.bytes 4 2 == homeWord s && decide (m.bodyLen ≤ 4000) &&
    m.bytes.length == 64 + m.bodyLen && m.tag == pitchTag s (m.bytes.take (32 + m.bodyLen))

/-- The distance of two times. -/
def dist (a b : Nat) : Nat := a - b + (b - a)

/-- The time base is synchronised. -/
def synced (s : State) : Bool := s.on Reg.timeStatus Reg.timeStatus_sync

/-- The message lies in the time window (R838). -/
def inWindow (s : State) (m : PitchMsg) : Bool :=
  decide (dist m.time s.now ≤ 1000000 * s.g Reg.ethPitchCfg Reg.ethPitchCfg_window_ms)

/-- A message is accepted (R838, R840). -/
def pitchOk (s : State) (m : PitchMsg) : Bool :=
  pitchForm s m && decide (s.g Reg.ethPitchSeq Reg.ethPitchSeq_last < m.seq) &&
    (if synced s then inWindow s m else m.typ == 1)

/-- A message repeats the last accepted one (R839). -/
def pitchRepeat (s : State) (m : PitchMsg) : Bool :=
  pitchForm s m && m.seq == s.g Reg.ethPitchSeq Reg.ethPitchSeq_last && m.tag == s.m.pitch.tag && s.m.pitch.reply != []

/-- The pitch id replies carry. -/
def replyPitch (s : State) : Nat := if pstate s = 0 then 0 else pitchId s

/-- A pitch message arrives at a port: a repeat is answered again, a refused one is counted, an accepted one of type `typ`
is acted on and answered with the type and body `act` gives. -/
def State.pitchIn (s : State) (e : Nat) (m : PitchMsg) (typ : Nat) (act : State → Nat × List Byte × State) : State :=
  if !ethUp s e || s.m.sec.recovery || s.m.furn.ident == [] then s
  else if pitchRepeat s m then
    (s.emit (.eth e (.pitch m.src s.m.pitch.reply))).ethTx e (udpFrame s e m.src s.m.pitch.reply.length)
  else if !pitchOk s m then s.mbrk (Reg.ethCnt32 2) 0x21 2 1
  else if m.typ ≠ typ then s
  else
    let s1 := (s.wr Reg.ethPitchSeq (BitVec.ofNat 64 m.seq)).setPitch { s.m.pitch with tag := m.tag, reply := [] }
    let (rt, body, s2) := act s1
    let (bytes, s3) := s2.pitchSend e m.src rt (replyPitch s2) body
    s3.setPitch { s3.m.pitch with reply := bytes }

/-- ANSWER: type answered, result 0 done or 1 wrong state (DESIGN CHOICE, log entry 21). -/
def ansBody (typ result : Nat) : List Byte := [BitVec.ofNat 8 typ, BitVec.ofNat 8 result]

/-! ## STATUS -/

/-- The body of STATUS (DESIGN CHOICE, log entry 21). -/
def statusBody (s : State) : List Byte :=
  [BitVec.ofNat 8 s.m.st.code, BitVec.ofNat 8 (pstate s)] ++ (tollCounts s).flatMap (leBytes 8) ++
    leBytes 8 (s.rd Reg.ethTollEnergy).toNat ++ serialBytes ++ leBytes 4 (nextRecord s)

/-- STATUS_REQ (R840). -/
def execStatusReq (e : Fin 8) (m : PitchMsg) (s : State) : Host.Outcome State Fault Refusal :=
  .next (s.pitchIn e m 0x01 (fun s => (0x81, statusBody s, s)))

/-! ## OFFER (R843, R826, R851, R823) -/

/-- The fields of an OFFER body. -/
structure OfferBody where
  notAfter : Nat
  gen : Nat
  regions : List (Nat × Nat × Bool × Bool)
  conns : List Conn
  deriving DecidableEq, Repr

/-- The OFFER a body spells; none when it is malformed: its length, its counts, or a port that does not exist. -/
def offerOf (b : List Byte) : Option OfferBody :=
  let nr := byteAt b 12
  let nq := byteAt b 13
  let regions := (List.range nr).map (fun i => Config.offerRegion (slice b (14 + 16 * i) 16))
  let conns := (List.range nq).map (fun i => Config.offerConn (slice b (14 + 16 * nr + 32 * i) 32))
  let crowded := (List.range 8).any (fun e => decide (64 < (conns.filter (fun c => c.port == e)).length))
  if b.length ≠ 14 + 16 * nr + 32 * nq ∨ 64 < nr ∨ conns.any (fun c => decide (8 ≤ c.port)) ∨ crowded then none
  else some ⟨leAt b 0 8, leAt b 8 4, regions, conns⟩

/-- No index of the identity key remains (R1042). -/
def keySpent (s : State) : Bool := decide (2 ^ 20 ≤ keyIndex s)

/-- The module is not ready for an OFFER: not scrubbed, held in Standby, debug access open, or no key index left (R843,
R896, R902, R912, R1042, R1048). -/
def notReady (s : State) : Bool :=
  !s.m.fault.scrubbed || s.m.pwr.hold || s.m.pwr.low || s.m.pwr.shut || s.on Reg.secStatus Reg.secStatus_dbg_open ||
    keySpent s

/-- Register the regions of an OFFER, from index `i` on; the keys. -/
def State.mrOpen (s : State) (i : Nat) : List (Nat × Nat × Bool × Bool) → List Nat × State
  | [] => ([], s)
  | (base, len, rd, wr) :: xs =>
    let (n, s1) := s.draw
    let key := i + 256 * (n % 2 ^ 24)
    let a := Reg.ethMr i
    let s2 := (((s1.wr a (BitVec.ofNat 64 (base % 2 ^ 48))).p a Reg.ethMr_valid 1).p a Reg.ethMr_rd rd.toNat).p a
      Reg.ethMr_wr wr.toNat
    let s3 := (s2.wr (Reg.ethMrLen i) (BitVec.ofNat 64 (len % 2 ^ 48))).wr (Reg.ethMrKey i) (BitVec.ofNat 64 key)
    let (ks, s4) := s3.mrOpen (i + 1) xs
    (key :: ks, s4)

/-- Open a queue pair on its port, with its receive ring. -/
def State.qpOpen (s : State) (c : Conn) : Nat × State :=
  let x := ethPort s c.port
  let q := x.qps.length
  let qp : QpS := { partner := c, err := false, out := [], sentAt := 0, resends := 0, rate := lineRate, rateAt := s.now }
  let s1 := s.setEth c.port { x with qps := x.qps ++ [(q, qp)] }
  let s2 := s1.p (Reg.ethPortStatus c.port) Reg.ethPortStatus_qps (q + 1)
  let s3 := s2.wr (Reg.ethRing c.port q) (BitVec.ofNat 64 (c.ring % 2 ^ 48))
  let r := Reg.ethRingCfg c.port q
  (q, ((s3.wr r 0).p r Reg.ethRingCfg_buf_bytes (c.buf / 64)).p r Reg.ethRingCfg_nbuf c.nbuf)

/-- Open every queue pair of an OFFER; their numbers. -/
def State.qpsOpen (s : State) : List Conn → List Nat × State
  | [] => ([], s)
  | c :: cs =>
    let (q, s1) := s.qpOpen c
    let (qs, s2) := s1.qpsOpen cs
    (q :: qs, s2)

/-- Every toll counter becomes 0, and the pitch opens now (R851). -/
def State.tollOpen (s : State) : State :=
  ([Reg.ethTollReady, Reg.ethTollRunning, Reg.ethTollRecovery, Reg.ethTollDraining, Reg.ethTollWarm,
    Reg.ethTollEnergy].foldl (fun s a => s.wr a 0) s).wr Reg.ethTollOpen (BitVec.ofNat 64 s.now)

/-- An OFFER is accepted: regions, queue pairs, toll counters, and the module heads for Ready (R842, R862). -/
def State.offerAccept (s : State) (e : Nat) (m : PitchMsg) (o : OfferBody) : Nat × List Byte × State :=
  let (keys, s1) := s.mrOpen 0 o.regions
  let (qs, s2) := s1.qpsOpen o.conns
  let s3 := (s2.tollOpen.p Reg.ethPitchStat Reg.ethPitchStat_pitch m.pitch).setPitch
    { s2.m.pitch with
      peer := m.src, port := e, notAfter := o.notAfter, planGen := o.gen, loaded := false, served := false
      stopped := false, skipped := false, endHeld := none }
  let s4 := if s.m.st = .standby then s3.setBoot { s3.m.boot with want := true } else s3.warmExit
  (0x82, leBytes 1 0 ++ keys.flatMap (leBytes 4) ++ qs.flatMap (leBytes 4), s4.pitchTo 1 0)

/-- What an OFFER meets: busy, not ready, malformed, or acceptance (R843, R1042, R1070). -/
def State.offerTake (s : State) (e : Nat) (m : PitchMsg) : Nat × List Byte × State :=
  if pstate s ≠ 0 then (0x82, leBytes 1 1, s)
  else if notReady s then (0x82, leBytes 1 2, if keySpent s then s.secRaise 7 else s)
  else if s.m.st = .standby ∧ flowBelow s then (0x82, leBytes 1 2, s.flowLowEvent)
  else if s.m.st ≠ .standby ∧ s.m.st ≠ .warmReserve ∧ s.m.st ≠ .ready then (0x82, leBytes 1 1, s)
  else match offerOf m.body with
  | none => (0x82, leBytes 1 3, s)
  | some o => s.offerAccept e m o

/-- OFFER. -/
def execOffer (e : Fin 8) (m : PitchMsg) (s : State) : Host.Outcome State Fault Refusal :=
  .next (s.pitchIn e m 0x02 (fun s => s.offerTake e m))

/-! ## START, END, TOLL_GET -/

/-- A reserve that serves no station. -/
def idleReserve (s : State) : Bool := nbit (identStation s) 15 && s.m.fault.serving.isNone

/-- START acts in Loading with the plan loaded (R842, R398, R807); a reserve that serves no station runs no plan. -/
def State.startTake (s : State) : Nat × List Byte × State :=
  if pstate s = 1 ∧ s.m.pitch.loaded ∧ planLoaded s ∧ (s.m.st = .ready ∨ s.m.st = .warmReserve) then
    let s1 := s.setGen 1
    let s2 := if idleReserve s then s1 else (s1.setHolds 0).startSeqs.setMod .running |>.showState 1
    (0x84, ansBody 3 0, s2.pitchTo 2 0)
  else (0x84, ansBody 3 1, s)

/-- START. -/
def execStartMsg (e : Fin 8) (m : PitchMsg) (s : State) : Host.Outcome State Fault Refusal :=
  .next (s.pitchIn e m 0x03 State.startTake)

/-- END (R842, R844, R846). -/
def State.endTake (s : State) (cause : Nat) : Nat × List Byte × State :=
  if pstate s = 1 then (0x84, ansBody 4 0, s.drain 1 true)
  else if pstate s = 2 then
    (0x84, ansBody 4 0, if s.m.st = .recovery then s.setPitch { s.m.pitch with endHeld := some cause } else s.endRunning cause)
  else (0x84, ansBody 4 1, s)

/-- PITCH_END. -/
def execPitchEnd (e : Fin 8) (m : PitchMsg) (s : State) : Host.Outcome State Fault Refusal :=
  .next (s.pitchIn e m 0x04 (fun s => s.endTake (byteAt m.body 0)))

/-- TOLL_GET (R856). -/
def execTollGet (e : Fin 8) (m : PitchMsg) (s : State) : Host.Outcome State Fault Refusal :=
  .next (s.pitchIn e m 0x05 (fun s =>
    match s.m.flash.tolls.find? (fun t => leAt t 28 4 == leAt m.body 0 4) with
    | some t => (0x85, t, s)
    | none => (0x85, List.replicate 4 0, s)))

/-! ## Happenings (R842) -/

/-- NOT_AFTER: the not-after time has passed. -/
def execNotAfter (s : State) : Host.Outcome State Fault Refusal :=
  if s.now ≤ s.m.pitch.notAfter ∨ s.m.st = .recovery then .next s
  else if pstate s = 1 then .next (s.drain 2 true)
  else if pstate s = 2 then .next (s.drain 2 false)
  else .next s

/-- A tile shows that a norm jump stops the step (R242). -/
def normStopped (s : State) : Bool :=
  (List.range 128).any (fun k => s.on (Reg.wghStatus (k / 64) (k % 64)) Reg.wghStatus_stop)

/-- PITCH_NORM_STOP: the end of the step in which EV_NORM_STOP was raised. -/
def execPitchNormStop (s : State) : Host.Outcome State Fault Refusal :=
  if pstate s = 2 ∧ s.m.st = .running ∧ normStopped s then .next (s.drain 3 false) else .next s

/-- CHECKPOINT_DONE: the checkpoint is written, or none was due. -/
def execCheckpointDone (s : State) : Host.Outcome State Fault Refusal :=
  if pstate s = 3 then .next (s.pitchTo 4 0) else .next s

/-! ## Scrub (R847) -/

/-- Step 2: every tile region and die-pool bank is invalid. -/
def State.scrubChip (s : State) : State :=
  (s.invalidate (slotBase 0 0) (slotBase 0 66)).invalidate (slotBase 1 0) (slotBase 1 66)

/-- Step 5: every bank owner is kind 4, every route entry the furnish table's, and the station the home word. -/
def State.scrubOwn (s : State) : State :=
  let s1 := s.each (fun s k =>
    s.each (fun s b => s.wr (Reg.memBankOwn (k / 64) (k % 64) b) 4) (List.range 25)) (List.range 128)
  let s2 := (s1.writeRoutes 0 0 16384).writeRoutes 1 0 16384
  [0, 1].foldl (fun s d => s.p (Reg.lnkStation d) Reg.lnkStation_station (s.g (Reg.lnkStation d) Reg.lnkStation_home)) s2

/-- Step 4: every history entry is invalid. -/
def State.scrubHist (s : State) : State :=
  s.each (fun s k => s.histClear (k / 64) (k % 64) 64) (List.range 128)

/-- SCRUB: the seven steps of R847 in pitch state 4. -/
def execScrub (s : State) : Host.Outcome State Fault Refusal :=
  if pstate s ≠ 4 then .next s
  else
    let s1 := ((s.haltSeqs.tallyClear 0).tallyClear 1).scrubChip
    let s2 := ((s1.zeroExt 0).zeroExt 1).scrubHist
    let s3 := s2.scrubOwn.ethDestroy
    .next (s3.setFault { s3.m.fault with scrubbed := true })

/-- Members enable their ports to the stations that failed (R806). -/
def State.reopen (s : State) : State :=
  s.each (fun s x => s.each (fun s q => s.portEnable q true) (portsTo s x.f)) s.m.fault.decls

/-- The end of a pitch: generation 0, a fresh failure state, no plan; Ready, or Standby where the furnish asks for sleep
or the dies never came up (R806, R807, R842). -/
def State.pitchOver (s : State) : State :=
  let sleep := s.on Reg.ethPitchCfg Reg.ethPitchCfg_sleep
  let s1 := (s.pitchTo 0 0).wr Reg.ethPitchStat 0
  let s2 := if s1.dieOn 0 && s1.dieOn 1 then s1.reopen.setGen 0 else s1
  let s3 := s2.setM { s2.m with
    plan := PlanS.none, fault := s2.m.fault.fresh
    pitch := { s2.m.pitch with planGen := 0, loaded := false, served := false, stopped := false, skipped := false }
    boot := { s2.m.boot with want := false, warmNext := nbit (identStation s) 15 } }
  if sleep || !(s3.die 0).initDone || !(s3.die 1).initDone then s3.toStandby else (s3.setMod .ready).showState 0

/-- SCRUB_END (R842, R855): the toll record is signed, stored and sent. -/
def execScrubEnd (s : State) : Host.Outcome State Fault Refusal :=
  if pstate s ≠ 4 ∨ !s.m.fault.scrubbed then .next s
  else
    let (t, s1) := s.tollSign (openRec s) false s.now
    let s2 := if t = [] then s1 else (s1.pitchSend s.m.pitch.port s.m.pitch.peer 0x85 (pitchId s) t).2
    .next s2.pitchOver

/-- TOLL_CKPT (R853). -/
def execTollCkpt (s : State) : Host.Outcome State Fault Refusal :=
  if pstate s = 0 ∨ s.now < s.m.pitch.wroteAt + 1000000000 * s.g Reg.ethTollCfg Reg.ethTollCfg_ckpt_s then .next s
  else .next s.tollWrite

end Sys2Proof.Machine
end

