-- ==== Sys2Proof/Machine/Power.lean ====
section
/-! DEFINITION. Feeds, rails, the power manager, shutdowns, telemetry and tile domains (R886 to R932). -/

namespace Sys2Proof.Machine

/-- Replace the power part. -/
def State.setPwr (s : State) (x : PwrS) : State := s.setM { s.m with pwr := x }

/-- Raise an event of the PWR block. -/
def State.pwrRaise (s : State) (bit : Nat) : State := s.raise ⟨0x20, 0, bit⟩ .module

/-- The always-on domain runs. -/
def aonOn (s : State) : Bool := s.m.st != .off || s.m.sec.recovery

/-! ## Feeds (R886 to R891, R898 to R900) -/

/-- FEED_LOST (R890). -/
def execFeedLost (feed : Fin 2) (s : State) : Host.Outcome State Fault Refusal :=
  let a := Reg.pwrFeed feed
  if !aonOn s || s.on a Reg.pwrFeed_lost || s.on (Reg.pwrFeed (1 - feed.val)) Reg.pwrFeed_lost then .next s
  else .next (((s.p a Reg.pwrFeed_lost 1).mbrk (Reg.pwrCnt32 1) 0x20 1 1).pwrRaise 0)

/-- FEED_RESTORED (R891). -/
def execFeedRestored (feed : Fin 2) (s : State) : Host.Outcome State Fault Refusal :=
  .next (s.p (Reg.pwrFeed feed) Reg.pwrFeed_lost 0)

/-- Open a feed's switch. -/
def State.openSwitch (s : State) (f : Nat) : State :=
  (s.setPwr { s.m.pwr with sw := s.m.pwr.sw.filter (· != f) ++ [f] }).p (Reg.pwrFeed f) Reg.pwrFeed_carrying 0

/-- Close a feed's switch. -/
def State.closeSwitch (s : State) (f : Nat) : State := s.setPwr { s.m.pwr with sw := s.m.pwr.sw.filter (· != f) }

/-- FEED_REVERSE (R889): the switch stays open, and the event is raised once. -/
def execFeedReverse (feed : Fin 2) (s : State) : Host.Outcome State Fault Refusal :=
  let a := Reg.pwrFeed feed
  if !aonOn s || s.on a Reg.pwrFeed_reverse then .next s
  else .next (((s.openSwitch feed).p a Reg.pwrFeed_reverse 1).pwrRaise 1)

/-- FEED_FAULT (R899, R900). -/
def execFeedFault (feed : Fin 2) (s : State) : Host.Outcome State Fault Refusal :=
  if !aonOn s || s.m.pwr.sw.contains feed.val then .next s
  else
    let s1 := s.openSwitch feed
    let s2 := (s1.setPwr { s1.m.pwr with opens := s1.m.pwr.opens ++ [(feed.val, s.now)] }).pwrRaise 2
    .next (if feedLatched s2.m.pwr feed then s2.p (Reg.pwrFeed feed) Reg.pwrFeed_fault 1 else s2)

/-- FEED_RECLOSE (R900): 100 ms after the opening, unless it was the third. -/
def execFeedReclose (feed : Fin 2) (s : State) : Host.Outcome State Fault Refusal :=
  let x := s.m.pwr
  match ((x.opens.filter (fun y => y.1 == feed.val)).map (·.2)).getLast? with
  | some t =>
    if !x.sw.contains feed.val ∨ feedLatched x feed ∨ s.on (Reg.pwrFeed feed) Reg.pwrFeed_reverse ∨ s.now < t + 100000000 then
      .next s
    else .next (s.closeSwitch feed)
  | none => .next s

/-! ## Input ranges (R888) -/

/-- The module enters Off: every domain loses its power. -/
def State.toOff (s : State) : State :=
  let s1 := (s.coldReset).setPwr { s.coldReset.m.pwr with low := false }
  s1.wr Reg.mgtConn 0

/-- ALWAYS_ON_OFF. -/
def execAlwaysOnOff (s : State) : Host.Outcome State Fault Refusal := .next s.toOff

/-- SURGE: full function goes on. -/
def execSurge (s : State) : Host.Outcome State Fault Refusal :=
  if aonOn s then .next (s.p Reg.pwrStatus Reg.pwrStatus_surge 1) else .next s

/-- OVERVOLTAGE: both protection switches open, and the module enters Off. -/
def execOvervoltage (s : State) : Host.Outcome State Fault Refusal :=
  .next (((s.toOff).openSwitch 0).openSwitch 1)

/-! ## Shutdowns (R894 to R896, R911 to R913, R923, R925) -/

/-- An open pitch is closed, both dies go off, and the module enters Standby (R895). -/
def State.dropDies (s : State) : State := s.pitchCut.toStandby

/-- R894. -/
def State.brownout (s : State) : State :=
  if s.m.st = .off ∨ s.m.pwr.low then s
  else
    let s1 := ((s.mbrk (Reg.pwrCnt32 2) 0x20 2 1).pwrRaise 3).dropDies
    s1.setPwr { s1.m.pwr with low := true }

/-- BROWNOUT (R894, R895). -/
def execBrownout (s : State) : Host.Outcome State Fault Refusal := .next s.brownout

/-- OVERCURRENT_TRIP (R923). -/
def execOvercurrentTrip (s : State) : Host.Outcome State Fault Refusal := .next s.brownout

/-- BROWNOUT_RECOVER (R896, R860). -/
def execBrownoutRecover (s : State) : Host.Outcome State Fault Refusal :=
  if s.m.pwr.low then .next (s.setPwr { s.m.pwr with low := false }).standbyExit else .next s

/-- R925. -/
def State.overtemp (s : State) : State := (s.pwrRaise 8).dropDies

/-- OVERTEMP (R925). -/
def execOvertemp (d : Die) (s : State) : Host.Outcome State Fault Refusal :=
  if s.dieOn d then .next s.overtemp else .next s

/-- SHUTDOWN (R911, R912). -/
def execShutdown (s : State) : Host.Outcome State Fault Refusal :=
  if s.m.pwr.shut then .next s
  else
    let s1 := s.setPwr { s.m.pwr with shut := true }
    if s.m.st = .off then .next s1 else .next ((s1.pwrRaise 9).dropDies)

/-- SHUTDOWN_RELEASE (R913). -/
def execShutdownRelease (s : State) : Host.Outcome State Fault Refusal :=
  if s.m.pwr.shut then .next (s.setPwr { s.m.pwr with shut := false }).standbyExit else .next s

/-! ## Rails (R901 to R906) -/

/-- R902: both dies go off, and Standby holds until the next cold start. -/
def State.holdStandby (s : State) : State :=
  let s1 := s.toStandby
  s1.setPwr { s1.m.pwr with hold := true }

/-- RAIL_FAULT (R901 to R903). -/
def execRailFault (rail : Fin 17) (s : State) : Host.Outcome State Fault Refusal :=
  if !aonOn s then .next s
  else
    let s1 := ((s.p Reg.pwrStatus Reg.pwrStatus_rail_fault rail).p Reg.pwrStatus Reg.pwrStatus_rail_fault_valid 1).pwrRaise 4
    if rail.val < 2 then .next s1.toOff
    else if rail.val < 16 then .next s1.holdStandby
    else .next (s1.each (fun s e => s.ethDown e) (List.range 8))

/-- SENSE_OPEN (R905): rails 2 to 11 sense remotely. -/
def execSenseOpen (rail : Fin 17) (s : State) : Host.Outcome State Fault Refusal :=
  let r := rail.val
  if !aonOn s || decide (r < 2) || decide (11 < r) || (s.rd Reg.pwrSense).getLsbD r then .next s
  else
    let s1 := s.p (Reg.pwrRail r) Reg.pwrRail_set_mv (s.g (Reg.pwrRail r) Reg.pwrRail_set_mv + 25)
    .next (((s1.setBit Reg.pwrSense r).mbrk (Reg.pwrCnt32 3) 0x20 3 1).pwrRaise 5)

/-! ## Stretching (R908, R917 to R924) -/

/-- Effective ratios of both dies (R917, R908). -/
def State.stretch (s : State) : State :=
  let km := s.g Reg.pwrStretch Reg.pwrStretch_k_m
  let k (kd : Nat) : Nat := if s.on Reg.pwrStatus Reg.pwrStatus_shell_hold then 8 else min km kd
  (s.p Reg.pwrStretch Reg.pwrStretch_k_a (k s.m.pwr.kdA)).p Reg.pwrStretch Reg.pwrStretch_k_b (k s.m.pwr.kdB)

/-- SHELL_WATCHDOG (R908). -/
def execShellWatchdog (s : State) : Host.Outcome State Fault Refusal :=
  if !aonOn s || s.on Reg.pwrStatus Reg.pwrStatus_shell_hold then .next s
  else .next ((s.p Reg.pwrStatus Reg.pwrStatus_shell_hold 1).stretch.pwrRaise 6)

/-- Input current of both feeds in 10 mA. -/
def inputCa (s : State) : Nat := s.g (Reg.pwrFeed 0) Reg.pwrFeed_ca + s.g (Reg.pwrFeed 1) Reg.pwrFeed_ca

/-- The hottest valid sensor of a die, in 0.01 °C; none while no sensor is valid (R1071). -/
def hottest (s : State) (d : Nat) : Option Int :=
  if s.g (Reg.mgtSensDie d) Reg.mgtSensDie_valid = 0 then none
  else some (sgn 16 (s.g (Reg.mgtSensDie d) Reg.mgtSensDie_hottest))

/-- Whether a temperature in 0.01 °C is exceeded on a die. -/
def hotter (s : State) (bound : Int) : Bool :=
  [0, 1].any (fun d => match hottest s d with | some v => decide (bound < v) | none => false)

/-- The limits that exceed their bound, as cause bits (R918). -/
def overBound (s : State) : Nat :=
  let cap := s.g Reg.pwrCtl Reg.pwrCtl_cap_w
  let peak := s.g Reg.pwrCtl Reg.pwrCtl_peak_w
  let temp := s.g Reg.pwrCtl Reg.pwrCtl_temp_c
  flagBits [decide (cap < s.g Reg.pwrInput Reg.pwrInput_w_100ms), decide (peak < s.g Reg.pwrInput Reg.pwrInput_w_1ms),
    decide (6400 < inputCa s), hotter s (100 * temp)]

/-- Every quantity lies below its release value (R918, R920). -/
def released (s : State) : Bool :=
  let cap := s.g Reg.pwrCtl Reg.pwrCtl_cap_w
  let peak := s.g Reg.pwrCtl Reg.pwrCtl_peak_w
  let temp : Int := s.g Reg.pwrCtl Reg.pwrCtl_temp_c
  decide (100 * s.g Reg.pwrInput Reg.pwrInput_w_100ms < 95 * cap) &&
    decide (100 * s.g Reg.pwrInput Reg.pwrInput_w_1ms < 95 * peak) && decide (inputCa s < 6080) &&
    !hotter s (100 * (temp - 2) - 1)

/-- MANAGER_STEP (R918 to R922). -/
def execManagerStep (s : State) : Host.Outcome State Fault Refusal :=
  if s.m.st = .off then .next s
  else
    let km := s.g Reg.pwrStretch Reg.pwrStretch_k_m
    let cause := overBound s
    let k := if cause ≠ 0 then max 4 (km - 1) else if released s && decide (km < 16) then km + 1 else km
    let s1 := (s.p Reg.pwrStretch Reg.pwrStretch_cause cause).p Reg.pwrStretch Reg.pwrStretch_k_m k
    let s2 := if km < k then s1.p Reg.pwrStatus Reg.pwrStatus_floor 0 else s1
    let at4 := if k = 4 then (match s.m.pwr.floorAt with | some t => some t | none => some s.now) else none
    let s3 := (s2.setPwr { s2.m.pwr with floorAt := at4 }).stretch
    .next (if k < 16 then s3.inc64 Reg.pwrCnt64 1 else s3)

/-- LIMIT_FLOOR (R922). -/
def execLimitFloor (s : State) : Host.Outcome State Fault Refusal :=
  match s.m.pwr.floorAt with
  | some t =>
    if s.now < t + 100000000 ∨ s.g Reg.pwrStretch Reg.pwrStretch_cause = 0 ∨ s.on Reg.pwrStatus Reg.pwrStatus_floor then .next s
    else .next ((s.p Reg.pwrStatus Reg.pwrStatus_floor 1).pwrRaise 7)
  | none => .next s

/-- Set the droop ratio of a die. -/
def State.setDroop (s : State) (d v : Nat) : State :=
  (s.setPwr (if d = 0 then { s.m.pwr with kdA := v } else { s.m.pwr with kdB := v })).stretch

/-- The droop ratio of a die. -/
def droop (s : State) (d : Nat) : Nat := if d = 0 then s.m.pwr.kdA else s.m.pwr.kdB

/-- DROOP (R924). -/
def execDroop (d : Die) (s : State) : Host.Outcome State Fault Refusal :=
  if !s.dieOn d || droop s d == 8 then .next s
  else .next ((s.setDroop d 8).mbrk (Reg.pwrCnt32 0) 0x20 0 1)

/-- DROOP_RELEASE (R924). -/
def execDroopRelease (d : Die) (s : State) : Host.Outcome State Fault Refusal := .next (s.setDroop d 16)

/-! ## Telemetry (R928, R929, R886, R850) -/

/-- The mean of the first `n` of a list of samples, or of all when there are fewer (DESIGN CHOICE, log entry 34). -/
def meanOf (n : Nat) (l : List Nat) : Nat := (l.take n).foldl (· + ·) 0 / max 1 (min n l.length)

/-- Saturate to a number of bits. -/
def satBits (w n : Nat) : Nat := min n (2 ^ w - 1)

/-- A feed's sample: its voltage (10 mV) and current (10 mA); a fault or reverse bit returns to 0 with its cause (R889,
R900). -/
def State.feedSample (s : State) (f : Nat) (mv : Int) (ca : Nat) (other : Int) : State :=
  let a := Reg.pwrFeed f
  let s1 := (s.p a Reg.pwrFeed_mv (encS 16 mv)).p a Reg.pwrFeed_ca (satBits 16 ca)
  let s2 := if s1.on a Reg.pwrFeed_fault && decide (mv < 2000) then
      (s1.p a Reg.pwrFeed_fault 0).setPwr { s1.m.pwr with
        opens := s1.m.pwr.opens.filter (fun y => y.1 != f), sw := s1.m.pwr.sw.filter (· != f) }
    else s1
  let s3 := if s2.on a Reg.pwrFeed_reverse && decide (0 < mv) then (s2.p a Reg.pwrFeed_reverse 0).closeSwitch f else s2
  let shares := !s3.m.pwr.sw.contains f && (decide (other ≤ mv + 30) || s3.m.pwr.sw.contains (1 - f)) && decide (0 < mv)
  s3.p a Reg.pwrFeed_carrying shares.toNat

/-- A rail's sample: voltage (mV) and current (10 mA), less the offset measured in phase 6 on a die rail (R907). -/
def State.railSample (s : State) (r : Nat) (x : Nat × Int) : State :=
  let off := if 2 ≤ r ∧ r < 16 then s.m.pwr.offs.getD (r - 2) 0 else 0
  (s.p (Reg.pwrRail r) Reg.pwrRail_mv (satBits 16 x.1)).p (Reg.pwrRail r) Reg.pwrRail_ma (satBits 20 (x.2 - off).toNat)

/-- TELEMETRY_SAMPLE. -/
def execTelemetrySample (t : Telem) (s : State) : Host.Outcome State Fault Refusal :=
  if !aonOn s then .next s
  else
    let p := t.mvA.toNat * t.caA + t.mvB.toNat * t.caB
    let s1 := (s.feedSample 0 t.mvA t.caA t.mvB).feedSample 1 t.mvB t.caB t.mvA
    let s2 := s1.each (fun s r => match t.rails[r]? with | some x => s.railSample r x | none => s) (List.range 17)
    let hist := (p :: s2.m.pwr.hist).take 10000
    let sum := s2.m.pwr.rem + p
    let i := Reg.pwrInput
    let s3 := ((s2.p i Reg.pwrInput_w_10us (satBits 16 (p / 10000))).p i Reg.pwrInput_w_1ms
      (satBits 16 (meanOf 100 hist / 10000))).p i Reg.pwrInput_w_100ms (satBits 16 (meanOf 10000 hist / 10000))
    let s4 := (s3.setPwr { s3.m.pwr with hist := hist, rem := sum % 1000000 }).inc64 Reg.pwrEnergy (sum / 1000000)
    let s5 := if pstate s = 0 then s4 else s4.inc64 Reg.ethTollEnergy (sum / 1000000)
    let v := max t.mvA t.mvB
    .next ((s5.p Reg.pwrStatus Reg.pwrStatus_surge (decide (6000 < v)).toNat).p Reg.pwrStatus Reg.pwrStatus_sag
      (decide (3400 ≤ v ∧ v < 4000)).toNat)

/-! ## Tile domains (R914, R915) -/

/-- A tile is busy: its sequencer is neither idle nor halted, or a copy channel of it holds an operation (R915). -/
def tileBusy (s : State) (d t : Nat) : Bool :=
  let x := s.tile d t
  x.run == .running || x.ops.any (fun o => o.opcode == 4 || o.opcode == 5) || x.cp.chs.any Option.isSome

/-- A write of PWR_TILE_ON of a die. -/
def State.tileOnWrite (s : State) (d : Nat) (v : Word) : State :=
  let a := Reg.pwrTileOn d
  let old := s.rd a
  let clears (t : Nat) : Bool := s.tileOn d t && !v.getLsbD t
  let busy := (List.range 64).any (fun t => clears t && tileBusy s d t)
  let s1 := s.each (fun s t => if clears t && !tileBusy s d t then s.tileOff d t else s) (List.range 64)
  let keep (t : Nat) : Bool := v.getLsbD t || (old.getLsbD t && clears t && tileBusy s d t)
  let s2 := s1.wr a (BitVec.ofNat 64 (flagBits ((List.range 64).map keep)))
  if busy then (s2.pwrRaise 10).fail .busy else s2

/-- PWR_TILE_ON_WRITE. -/
def execPwrTileOnWrite (r : Requester) (d : Die) (v : Word) (s : State) : Host.Outcome State Fault Refusal :=
  .next (s.regWr r (Reg.pwrTileOn d) (fun s => s.tileOnWrite d v))

end Sys2Proof.Machine
end

