-- ==== Sys2Proof/Machine/Clocks.lean ====
section
/-! DEFINITION. The reference, oscillators, PLLs, gating of die clocks, CLKOUT, and the time base (R933 to R980). -/

namespace Sys2Proof.Machine

/-- Raise an event of the MCK block. -/
def State.mckRaise (s : State) (bit : Nat) : State := s.raise ⟨0x24, 0, bit⟩ .module

/-- Replace the clock part. -/
def State.setClk (s : State) (x : ClkS) : State := s.setM { s.m with clk := x }

/-- The local oscillator is good. -/
def oscOk (s : State) : Bool := s.on Reg.mckStatus Reg.mckStatus_osc_ok

/-! ## The reference (R937 to R944) -/

/-- FREQ_WINDOW (R941, R937, R938): the window counted `n` cycles of the recovered reference. -/
def execFreqWindow (n : Nat) (s : State) : Host.Outcome State Fault Refusal :=
  if !refUp s || !oscOk s || s.m.st == .off then .next s
  else
    let dev : Int := (n : Int) - 2 ^ 20
    let good := decide (1000000 * dev.natAbs ≤ 2 ^ 20 * s.g Reg.mckRefCfg Reg.mckRefCfg_ref_ppm)
    let k := if good then s.m.clk.refGood + 1 else 0
    let s1 := (s.p Reg.mckRefMeas Reg.mckRefMeas_dev (encS 32 dev)).setClk { s.m.clk with refGood := k }
    let q := good && (decide (2 ≤ k) || s.on Reg.mckStatus Reg.mckStatus_qualified)
    .next (s1.p Reg.mckStatus Reg.mckStatus_qualified q.toNat).refUpdate

/-- The module has no reference (R944): it is raised, and acts as a brown-out. -/
def State.noReference (s : State) : State :=
  if oscOk s || refUp s || s.m.st == .off || s.m.pwr.low then s else (s.mckRaise 2).brownout

/-- OSC_WINDOW (R942 to R944): the window counted `n` cycles of the local oscillator. -/
def execOscWindow (n : Nat) (s : State) : Host.Outcome State Fault Refusal :=
  if !aonOn s then .next s
  else
    let good := decide (97000 ≤ n ∧ n ≤ 103000)
    let k := if good then s.m.clk.oscGood + 1 else 0
    let s1 := s.setClk { s.m.clk with oscGood := k }
    if oscOk s && !good then
      let s2 := ((s1.p Reg.mckStatus Reg.mckStatus_osc_ok 0).p Reg.timeStatus Reg.timeStatus_sync 0).mckRaise 1
      .next s2.refUpdate.noReference
    else if !oscOk s && good && decide (16 ≤ k) then .next (s1.p Reg.mckStatus Reg.mckStatus_osc_ok 1).refUpdate
    else .next s1.refUpdate.noReference

/-! ## PLLs (R945 to R949) -/

/-- Set the lock bit of a PLL. -/
def State.setLock (s : State) (d pll : Nat) (v : Bool) : State := s.p (Reg.clkStatus d) ⟨pll, 1⟩ v.toNat

/-- The array root delivers pulses while it runs and its PLL is locked. -/
def State.arrShow (s : State) (d : Nat) : State :=
  s.p (Reg.clkStatus d) Reg.clkStatus_arr_running ((s.die d).arrRoot && (s.rd (Reg.clkStatus d)).getLsbD 0).toNat

/-- PLL_LOCK (R945): PLLs 0 array, 1 fabric, 2 link, 3 HBM, 4 tier 2. -/
def execPllLock (d : Die) (pll : Fin 5) (s : State) : Host.Outcome State Fault Refusal :=
  let x := s.die d
  if !x.power || !nbit x.pllRun pll then .next s
  else .next (((s.setLock d pll true).arrShow d).phaseSix)

/-- PLL_UNLOCK (R947, R949). -/
def execPllUnlock (d : Die) (pll : Fin 5) (s : State) : Host.Outcome State Fault Refusal :=
  if !s.dieOn d || !(s.rd (Reg.clkStatus d)).getLsbD pll then .next s
  else
    let losses := s.m.clk.losses ++ [(d.val, pll.val, s.now)]
    let recent := losses.filter (fun x => x.1 == d.val && x.2.1 == pll.val && decide (s.now ≤ x.2.2 + 1000000000))
    let s1 := ((s.setClk { s.m.clk with losses := losses }).setLock d pll false).arrShow d
    let s2 := (s1.dbrk d 34 1).raise ⟨0x19, 0, 0⟩ (.die d) { source := pll }
    if 3 ≤ recent.length then
      let x := s2.die d
      let s3 := s2.setDie d { x with pllRun := x.pllRun &&& (31 - 2 ^ pll.val) }
      let s4 := (s3.p (Reg.clkStatus d) Reg.clkStatus_failed 1).raise ⟨0x19, 0, 2⟩ (.die d) { source := pll }
      .next s4.holdStandby
    else .next s2

/-! ## Gating (R951 to R954) -/

/-- Every tile of a die is gated, or off. -/
def allGated (s : State) (d : Nat) : Bool :=
  (List.range 64).all (fun t => !s.tileOn d t || (s.tile d t).gated)

/-- Stop the array root. -/
def State.arrStop (s : State) (d : Nat) : State := (s.setDie d { s.die d with arrRoot := false }).arrShow d

/-- ARR_STOP (R951, R952): a write of 1 to CLK_CTL.arr_stop. -/
def State.arrStopWrite (s : State) (d : Nat) : State :=
  if allGated s d && (s.die d).u.cur.isNone then s.arrStop d
  else (s.raise ⟨0x19, 0, 1⟩ (.die d)).fail .busy

def execArrStop (r : Requester) (d : Die) (s : State) : Host.Outcome State Fault Refusal :=
  .next (s.regWr r (Reg.clkCtl d) (fun s => s.arrStopWrite d))

/-- PLL_SLEEP (R953): pll_idle_us have passed with every tile gated and no descriptor at the update unit. -/
def execPllSleep (d : Die) (s : State) : Host.Outcome State Fault Refusal :=
  let x := s.die d
  if !x.power || !s.on (Reg.clkCtl d) Reg.clkCtl_pll_sleep || !allGated s d || x.u.cur.isSome || x.updQ != [] then .next s
  else
    let s1 := s.setDie d { x with arrRoot := false, pllRun := x.pllRun &&& 30 }
    .next ((s1.setLock d 0 false).arrShow d)

/-! ## Frequencies (R955, R956) and CLKOUT (R959 to R962) -/

/-- A frequency is legal: a multiple of 25 from 400 to a top. -/
def mhzOk (top v : Nat) : Bool := decide (400 ≤ v ∧ v ≤ top) && v % 25 == 0

/-- Write one field of CLK_FREQ: a change restarts the PLL; a reserved value leaves the field and is raised (R10). -/
def State.freqField (s : State) (d : Nat) (f : RF) (pll top v : Nat) : State :=
  if !mhzOk top v then s.reserved d
  else if s.g (Reg.clkFreq d) f = v then s
  else ((s.p (Reg.clkFreq d) f v).setLock d pll false).arrShow d

/-- A write of CLK_FREQ. -/
def State.freqWrite (s : State) (d : Nat) (v : Word) : State :=
  (s.freqField d Reg.clkFreq_arr_mhz 0 1000 (fld v 0 16)).freqField d Reg.clkFreq_fab_mhz 1 1200 (fld v 16 16)

/-- CLK_FREQ_WRITE. -/
def execClkFreqWrite (r : Requester) (d : Die) (v : Word) (s : State) : Host.Outcome State Fault Refusal :=
  .next (s.regWr r (Reg.clkFreq d) (fun s => s.freqWrite d v))

/-- The rate of a CLKOUT source in MHz. -/
def clkoutMhz (s : State) (src : Nat) : Nat :=
  match src with
  | 0 | 1 => 100
  | 2 => 32
  | 3 => s.g (Reg.clkFreq 0) Reg.clkFreq_arr_mhz
  | _ => s.g (Reg.clkFreq 0) Reg.clkFreq_fab_mhz

/-- A CLKOUT setting asks for more than 100 MHz (R960). -/
def clkoutBad (s : State) (w : Word) : Bool :=
  fld w 0 1 == 1 && decide (100 * (fld w 4 12 + 1) < clkoutMhz s (fld w 1 3))

/-- CLKOUT is low with no pending edge: it is disabled or held low (R959, R960). -/
def clkoutIdle (s : State) : Bool := fld s.m.clk.clkout 0 1 == 0 || clkoutBad s s.m.clk.clkout

/-- The setting of MCK_CLKOUT takes effect. -/
def State.clkoutTake (s : State) : State := s.setClk { s.m.clk with clkout := s.rd Reg.mckClkout }

/-- A write of MCK_CLKOUT (R961): it takes effect at once while CLKOUT is low with no pending edge, otherwise at the next
falling edge. -/
def State.clkoutWrite (s : State) (v : Word) : State :=
  let a := Reg.mckClkout
  let s1 := (s.p a Reg.mckClkout_en (fld v 0 1)).p a Reg.mckClkout_div_m1 (fld v 4 12)
  let s2 := if fld v 1 3 ≤ 4 then s1.p a Reg.mckClkout_src (fld v 1 3) else s1.reserved 0
  if clkoutIdle s then s2.clkoutTake else s2

/-- CLKOUT_WRITE. -/
def execClkoutWrite (r : Requester) (v : Word) (s : State) : Host.Outcome State Fault Refusal :=
  .next (s.regWr r Reg.mckClkout (fun s => s.clkoutWrite v))

/-! ## The time base (R963 to R970) -/

/-- Replace the time part. -/
def State.setTime (s : State) (x : TimeS) : State := s.setM { s.m with time := x }

/-- Raise an event of the TIME block. -/
def State.timeRaise (s : State) (bit : Nat) : State := s.raise ⟨0x25, 0, bit⟩ .module

/-- A write of TIME_STEP (R965). -/
def State.timeStepWrite (s : State) (v : Word) : State :=
  if s.on Reg.timeStatus Reg.timeStatus_sync_ever then (s.timeRaise 2).fail .busy
  else ((s.wr Reg.timeNow v).wr Reg.timeFrac 0).setTime { s.m.time with rem := 0 }

/-- TIME_STEP. -/
def execTimeStep (r : Requester) (v : Word) (s : State) : Host.Outcome State Fault Refusal :=
  .next (s.regWr r Reg.timeStep (fun s => s.timeStepWrite v))

/-- Set the slew left, in 1/200 ns, and show it in ns, rounded toward 0. -/
def State.setSlew (s : State) (n : Int) : State :=
  (s.setTime { s.m.time with slew := n }).p Reg.timeSlew Reg.timeSlew_left (encS 32 (n.tdiv 200))

/-- A write of TIME_SLEW (R966). -/
def State.timeSlewWrite (s : State) (v : Word) : State := s.setSlew (s.m.time.slew + 200 * sgn 32 (fld v 0 32))

/-- TIME_SLEW. -/
def execTimeSlew (r : Requester) (v : Word) (s : State) : Host.Outcome State Fault Refusal :=
  .next (s.regWr r Reg.timeSlew (fun s => s.timeSlewWrite v))

/-- Link time is in use (R968). -/
def linkTime (s : State) : Bool := s.on Reg.timeCfg Reg.timeCfg_time_source && refUp s

/-- sync becomes 0 (R970). -/
def State.unsync (s : State) : State :=
  if synced s then (s.p Reg.timeStatus Reg.timeStatus_sync 0).timeRaise 1 else s

/-- An offset measurement is accepted (R969, R970). -/
def State.measure (s : State) (off : Int) : State :=
  let lim := s.g Reg.timeCfg Reg.timeCfg_sync_ns
  let run := if off.natAbs ≤ lim then s.m.time.run + 1 else 0
  let s1 := s.setTime { s.m.time with run := run, accAt := s.now }
  let s2 := if 4 * lim < off.natAbs then s1.unsync else s1
  if 4 ≤ run && oscOk s then
    let s3 := s2.p Reg.timeStatus Reg.timeStatus_sync 1
    if s3.on Reg.timeStatus Reg.timeStatus_sync_ever then s3
    else (s3.p Reg.timeStatus Reg.timeStatus_sync_ever 1).timeRaise 0
  else s2

/-- TIME_UNSYNC (R970): no measurement was accepted for holdover_s. -/
def execTimeUnsync (s : State) : Host.Outcome State Fault Refusal :=
  if s.now < s.m.time.accAt + 1000000000 * s.g Reg.timeCfg Reg.timeCfg_holdover_s then .next s else .next s.unsync

/-- The reference port as a number. -/
def refPort (s : State) : Nat := s.g Reg.mckRefCfg Reg.mckRefCfg_ref_port

/-- TIME_REQ_SEND (R971, R973). -/
def execTimeReqSend (s : State) : Host.Outcome State Fault Refusal :=
  if !linkTime s || decide (s.now < s.m.time.sentAt + 1000000 * s.g Reg.timeCfg Reg.timeCfg_link_ms) then .next s
  else
    let seq := (s.m.time.seq + 1) % 65536
    let s1 := s.setTime { s.m.time with seq := seq, sentAt := s.now }
    .next (s1.scSend (refPort s) ([1, 10] ++ leBytes 2 seq ++ leBytes 8 s.now))

/-- TIME_REQ (R972, R973). -/
def execTimeReq (p : Port) (m : List Byte) (s : State) : Host.Outcome State Fault Refusal :=
  if s.portState p ≠ 5 ∨ byteAt m 0 ≠ 1 then .next s
  else .next (s.scSend p ([2, 27] ++ slice m 2 2 ++ slice m 4 8 ++ leBytes 8 s.now ++ leBytes 8 s.now ++
    leBytes 1 (synced s).toNat))

/-- TIME_RESP (R974, R975). -/
def execTimeResp (p : Port) (m : List Byte) (s : State) : Host.Outcome State Fault Refusal :=
  if s.portState p ≠ 5 ∨ byteAt m 0 ≠ 2 then .next s
  else
    let t1 : Int := leAt m 4 8
    let t2 : Int := leAt m 12 8
    let t3 : Int := leAt m 20 8
    let t4 : Int := s.now
    let rtt := (t4 - t1) - (t3 - t2)
    let off := ((t2 - t1) - (t4 - t3)).fdiv 2
    if p.val = refPort s ∧ leAt m 2 2 = s.m.time.seq ∧ rtt ≤ s.g Reg.timeCfg Reg.timeCfg_rtt_max_ns ∧ nbit (byteAt m 28) 0 then
      let l := Reg.timeLink
      let s1 := ((s.p l Reg.timeLink_offset (encS 32 off)).p l Reg.timeLink_rtt (encS 16 rtt)).p l Reg.timeLink_seq (leAt m 2 2)
      .next (if linkTime s then s1.measure off else s1)
    else .next (s.mbrk (Reg.mckCnt32 1) 0x24 1 1)

/-- PTP_EVENT (R821, R822, R968): an event or general message of the delay request-response exchange; a completed exchange
is a measurement while PTP is in use. -/
def execPtpEvent (e : Fin 8) (m : PtpMsg) (s : State) : Host.Outcome State Fault Refusal :=
  if !ethUp s e || (e.val != 0 && e.val != 4) || s.m.st == .off then .next s
  else
    let x := s.m.time.ptp
    let put (s : State) (y : PtpS) : State := s.setTime { s.m.time with ptp := y }
    match m with
    | .sync t1 => .next (put s { t1 := t1, t2 := some s.now, t3 := none })
    | .followUp t1 => .next (put s { x with t1 := some t1 })
    | .delayReq => .next ((put s { x with t3 := some s.now }).ethEmit e (.ptpDelayReq s.now) 90)
    | .delayResp t4 =>
      match x.t1, x.t2, x.t3 with
      | some t1, some t2, some t3 =>
        let off := (((t1 : Int) - t2) + ((t4 : Int) - t3)).fdiv 2
        let s1 := put s ⟨none, none, none⟩
        .next (if linkTime s then s1 else s1.measure off)
      | _, _, _ => .next s

end Sys2Proof.Machine
end

