-- ==== Sys2Proof/Machine/Obs.lean ====
section
/-! DEFINITION. Counter clears, operation counters, program-counter samples, snapshots, warden events (R981 to R1013). -/

namespace Sys2Proof.Machine

/-! ## Stall codes (R997) -/

/-- The stall code of a tile. -/
def stallCode (s : State) (d t : Nat) : Nat :=
  let x := s.tile d t
  if x.run = .halted then 9
  else if x.gated then 8
  else if x.run = .idle then 0
  else match headDesc s d t with
  | none => 2
  | some h =>
    if (h.fence || h.opcode == 0x1F) && x.ops != [] then 3
    else if h.waitEn && !engineOp h.opcode && !x.waitMet then 4
    else if 1 ≤ h.opcode ∧ h.opcode ≤ 5 ∧ 4 ≤ x.ops.length then 5
    else if resourcesFree s d t h then 1
    else if x.ops.all (fun o => shakersOf o.desc (s.g (Reg.fwdCtl d t) Reg.fwdCtl_default_prec) &&&
        shakersOf h (s.g (Reg.fwdCtl d t) Reg.fwdCtl_default_prec) == 0) then 6
    else 7

/-- The mark of a tile's head, 0 while it is not fetched. -/
def headMark (s : State) (d t : Nat) : Nat := match headDesc s d t with | some h => h.mark | none => 0

/-- The tally an engine's or a tile's registered wait is on (units 0 to 63 tiles, then the engines). -/
def unitWait (s : State) (d u : Nat) : Option Nat :=
  if u < 64 then (s.tile d u).waitReg
  else ((s.die d).engWait.find? (fun w => w.1 == u && !w.2.2)).map (·.2.1)

/-- The descriptor an engine has begun. -/
def engBegun (s : State) (d u : Nat) : Option QDesc :=
  let x := s.die d
  if u = 64 then x.u.cur.map (·.q)
  else if u = 65 then x.prt.map (·.q)
  else if u = 66 then (x.clr.ops.find? (fun o => !o.added)).map (·.q)
  else (x.cp.chs.getD (u - 67) none).map (·.q)

/-- The begun descriptor of an engine, or the head of its queue. -/
def engDesc (s : State) (d u : Nat) : Option QDesc :=
  match engBegun s d u with
  | some q => some q
  | none => ((s.die d).queue u).head?

/-- An engine is halted (R545, R604, R743). -/
def engHalted (s : State) (d u : Nat) : Bool :=
  let x := s.die d
  if u = 64 then false
  else if u = 65 then x.prt.any (·.halted)
  else if u = 66 then x.clr.halted
  else (x.cp.chs.getD (u - 67) none).any (·.halted)

/-- Whether a packet's owner is an engine. -/
def ownerIs (u : Nat) : Owner → Bool
  | .mirror _ => u == 64
  | .parity _ | .porter _ => u == 65
  | .clr _ _ _ => u == 66
  | .chan c _ _ => u == 67 + c
  | _ => false

/-- An engine waits on credit, arrival, a fence, a mirror or the ledger (code 10). -/
def engStalled (s : State) (d u : Nat) : Bool :=
  let x := s.die d
  x.heldPkts.any (fun k => ownerIs u k.1) ||
    (if u = 64 then x.u.cur.isNone && x.u.mirrors != []
     else if u = 65 then x.prt.isNone && (x.prtQ.head?.any (fun q => engReady s d 65 q))
     else if u = 66 then x.clr.held != [] || x.clr.ops.any (fun o => clrKind o.q.desc == 3 && !o.added)
     else (x.cp.chs.getD (u - 67) none).any (·.paused))

/-- The stall code of an engine. -/
def engCode (s : State) (d u : Nat) : Nat :=
  if engHalted s d u then 9
  else if (engDesc s d u).isNone then 0
  else if (unitWait s d u).isSome then 4
  else if engStalled s d u then 10
  else 1

/-! ## Clears (R986, R995) -/

/-- Unlist every register of a range of words. -/
def State.dropWords (s : State) (lo n : Nat) : State :=
  s.dropRegs (fun a => decide (lo ≤ a ∧ a < lo + 8 * n))

/-- Clear the sat bits of a range of 32-bit counters. -/
def State.clearSat (s : State) (lo n : Nat) : State :=
  s.each (fun s i => s.p (lo + 8 * i) ⟨32, 1⟩ 0) (List.range n)

/-- The control register of a counter block, and its 64-bit and 32-bit counters: first address and count. -/
def CntBlock.ctl : CntBlock → Nat
  | .obs d t => Reg.obsCtl d t
  | .dob d => Reg.dobCtl d
def CntBlock.c64 : CntBlock → Nat × Nat
  | .obs d t => (Reg.obsCnt64 d t 0, 29)
  | .dob d => (Reg.dobCnt64 d 0, 121)
def CntBlock.c32 : CntBlock → Nat × Nat
  | .obs d t => (Reg.obsCnt32 d t 0, 24)
  | .dob d => (Reg.dobCnt32 d 0, 120)

/-- clear64: every 64-bit counter and every sat bit of the block. -/
def State.clear64 (s : State) (b : CntBlock) : State := (s.dropWords b.c64.1 b.c64.2).clearSat b.c32.1 b.c32.2
/-- clear32: every 32-bit counter and every sat bit of the block. -/
def State.clear32 (s : State) (b : CntBlock) : State := s.dropWords b.c32.1 b.c32.2

/-- CLEAR64. -/
def execClear64 (r : Requester) (blk : CntBlock) (s : State) : Host.Outcome State Fault Refusal :=
  .next (s.regWr r blk.ctl (fun s => s.clear64 blk))

/-- CLEAR32. -/
def execClear32 (r : Requester) (blk : CntBlock) (s : State) : Host.Outcome State Fault Refusal :=
  .next (s.regWr r blk.ctl (fun s => s.clear32 blk))

/-- Every operation counter becomes 0 and tag 0 until the next issue of its class. -/
def State.opcClear (s : State) (d t : Nat) : State :=
  s.setTile d t { s.tile d t with opc := List.replicate 4 (0, 0), opcOpen := false }

/-- OPC_CLEAR. -/
def execOpcClear (r : Requester) (d : Die) (t : Tile) (s : State) : Host.Outcome State Fault Refusal :=
  .next (s.regWr r (Reg.obsCtl d t) (fun s => s.opcClear d t))

/-- A write of OBS_OPC_CFG (R995; classes 6 and 7 are reserved, R10). -/
def State.opcCfgWrite (s : State) (d t : Nat) (v : Word) : State :=
  let a := Reg.obsOpcCfg d t
  let s1 := s.p a ⟨0, 32⟩ (fld v 0 32)
  let s2 := if fld v 32 3 < 6 then s1.p a Reg.obsOpcCfg_class (fld v 32 3) else s1.reserved d
  s2.opcClear d t

/-- OPC_CFG_WRITE. -/
def execOpcCfgWrite (r : Requester) (d : Die) (t : Tile) (v : Word) (s : State) : Host.Outcome State Fault Refusal :=
  .next (s.regWr r (Reg.obsOpcCfg d t) (fun s => s.opcCfgWrite d t v))

/-! ## Samples (R993, R996) -/

/-- Capture a tile's program-counter state. -/
def State.pcCapture (s : State) (d t : Nat) : State :=
  let a := Reg.obsPcSample d t
  let b := Reg.obsPcSampleIssue d t
  let s1 := (s.p a Reg.obsPcSample_desc (seqPcOf s d t)).p a Reg.obsPcSample_code (stallCode s d t)
  let s2 := (s1.p b Reg.obsPcSampleIssue_issue (s.g (Reg.seqIssued d t) Reg.seqIssued_issued)).p b
    Reg.obsPcSampleIssue_mark (headMark s d t)
  s2.wr (Reg.obsPcSampleTime d t) (s.rd Reg.timeNow)

/-- A write of OBS_SAMPLE.go. -/
def State.sampleGo (s : State) (d t : Nat) : State :=
  let x := s.tile d t
  let s1 := s.each (fun s n =>
    let c := x.opc.getD n (0, 0)
    (s.wr (Reg.obsOpcSample d t n) (BitVec.ofNat 64 c.1)).wr (Reg.obsOpcSampleTag d t n) (BitVec.ofNat 64 c.2)) (List.range 4)
  (s1.wr (Reg.obsSampleTime d t) (s.rd Reg.timeNow)).pcCapture d t

/-- SAMPLE_GO. -/
def execSampleGo (r : Requester) (d : Die) (t : Tile) (s : State) : Host.Outcome State Fault Refusal :=
  .next (s.regWr r (Reg.obsSample d t) (fun s => s.sampleGo d t))

/-- The program counter of a warden and its state: the manual gives neither (free values: DESIGN CHOICE, log entry 40). -/
def State.wardenPc (s : State) (d w : Nat) : State :=
  let (pc, s1) := s.draw
  let (st, s2) := s1.draw
  let a := Reg.dobWardenPc d w
  (s2.p a Reg.dobWardenPc_pc (pc % 2 ^ 48)).p a Reg.dobWardenPc_state (st % 5)

/-- PC_SAMPLE (R996): of a tile, or of the wardens of a die. -/
def execPcSample (d : Die) (t : Option Tile) (s : State) : Host.Outcome State Fault Refusal :=
  if !s.dieOn d then .next s
  else match t with
  | some t =>
    if s.g (Reg.obsPcCfg d t) Reg.obsPcCfg_period_us = 0 then .next s
    else
      let x := s.tile d t
      .next ((s.pcCapture d t).trace d t 5 (stallCode s d t) (headMark s d t) (s.g (Reg.seqIssued d t) Reg.seqIssued_issued)
        (seqPcOf s d t) (x.waitReg.getD 0 % 2 ^ 14 + 2 ^ 16 * x.ops.length))
  | none =>
    if s.g (Reg.dobPcCfg d) Reg.dobPcCfg_period_us = 0 then .next s
    else .next (s.each (fun s w => s.wardenPc d w) (List.range 8))

/-! ## Snapshots (R1012) -/

/-- One snapshot entry. -/
def State.snapUnit (s0 : State) (d : Nat) (s : State) (u : Nat) : State :=
  let w := unitWait s0 d u
  let n := w.getD 0
  let on := w.isSome
  let val (v : Nat) : Nat := if on then v else 0
  let code := if u < 64 then stallCode s0 d u else engCode s0 d u
  let addr := if u < 64 then seqPcOf s0 d u else (match engDesc s0 d u with | some q => q.addr | none => 0)
  let mark := if u < 64 then headMark s0 d u else (match engDesc s0 d u with | some q => q.desc.mark | none => 0)
  let gated := decide (u < 64) && (s0.tile d u).gated
  let issue := if u < 64 then s0.g (Reg.seqIssued d u) Reg.seqIssued_issued else 0
  let w0 := n + 2 ^ 14 * on.toNat + 2 ^ 15 * gated.toNat + 2 ^ 16 * code + 2 ^ 32 * val (tVal s0 d n)
  let w1 := val (tTarget s0 d n) + 2 ^ 32 * val (tArmed s0 d n).toNat + 2 ^ 33 * val (tAuto s0 d n).toNat
  s.wrWords (Reg.dobSnap0 d u) [BitVec.ofNat 64 w0, BitVec.ofNat 64 w1, BitVec.ofNat 64 (addr + 2 ^ 48 * mark),
    BitVec.ofNat 64 issue]

/-- A write of DOB_CTL.snap_go. -/
def State.snapGo (s : State) (d : Nat) : State :=
  (s.each (fun x u => s.snapUnit d x u) (List.range 83)).wr (Reg.dobSnapTime d) (s.rd Reg.timeNow)

/-- SNAP_GO. -/
def execSnapGo (r : Requester) (d : Die) (s : State) : Host.Outcome State Fault Refusal :=
  .next (s.regWr r (Reg.dobCtl d) (fun s => s.snapGo d))

/-! ## Warden events (R1011) -/

/-- The warden number of a requester. -/
def Requester.wardenNo : Requester → Nat
  | .warden _ w => w
  | _ => 0

/-- A write of DOB_RAISE. -/
def State.dobRaiseWrite (s : State) (r : Requester) (d : Nat) (v : Word) : State :=
  let code := fld v 0 16
  if code / 256 = 0x30 ∧ code % 256 ≤ 7 then
    s.raise ⟨0x30, 0, code % 256⟩ (.die d)
      { source := r.wardenNo, detail := (List.range 4).map (fun i => s.rd (Reg.dobRaiseDetail d i)) }
  else s.reserved d

/-- DOB_RAISE. -/
def execDobRaise (r : Requester) (d : Die) (v : Word) (s : State) : Host.Outcome State Fault Refusal :=
  .next (s.regWr r (Reg.dobRaise d) (fun s => s.dobRaiseWrite r d v))

end Sys2Proof.Machine
end

