-- ==== Sys2Proof/Machine/Staging.lean ====
section
/-! DEFINITION. Staging firmware, its distribution along a chain, recovery mode, and debug access (R1029 to R1049). -/

namespace Sys2Proof.Machine

/-! ## Staging (R1029 to R1031) -/

/-- The staging slot: the slot that does not run; slot A in recovery mode (R1038). -/
def stageSlot (s : State) : Nat := if s.m.sec.recovery then 0 else 1 - s.g Reg.secStatus Reg.secStatus_slot

/-- The staging window's 4 KiB. -/
def stageWindow (s : State) : List Byte := (List.range 512).flatMap (fun j => leBytes 8 (s.rd (Reg.secStageData j)).toNat)

/-- Set the window. -/
def State.setWindow (s : State) (bs : List Byte) : State :=
  s.wrWords (Reg.secStageData 0) ((List.range 512).map (fun j => BitVec.ofNat 64 (leAt bs (8 * j) 8)))

/-- Fields of SEC_STATUS. -/
def State.secP (s : State) (f : RF) (v : Nat) : State := s.p Reg.secStatus f v

/-- Whether an op is refused (R1030): 1 begin, 2 block, 3 finish, 4 activate, 5 abort. -/
def stageRefused (s : State) (op blk : Nat) : Bool :=
  pstate s != 0 || s.on Reg.secStatus Reg.secStatus_busy ||
    (op == 2 && (match s.m.sec.last with | some n => blk != n + 1 | none => true)) ||
    (op == 4 && !s.on Reg.secStatus Reg.secStatus_staged)

/-- A refused op: result 2 and EV_SEC_STAGE_REFUSED. -/
def State.stageRefuse (s : State) : State := (s.secP Reg.secStatus_result 2).secRaise 4

/-- What an op does as it starts: the erase and the programming of begin and block. -/
def State.stageDo (s : State) (op blk : Nat) (win : List Byte) : State :=
  let v := stageSlot s
  let s1 := match op with
    | 1 => (s.flashErase v (imageOff 0) 0x1000000).flashWrite v (imageOff 0) win
    | 2 => s.flashWrite v (imageOff blk) win
    | 4 => s.dirWrite v 1 (leAt (imageBlock s v 0) 8 4)
    | _ => s
  s1.setSec { s1.m.sec with
    last := if op = 1 then some 0 else if op = 2 then some blk else s1.m.sec.last
    op := some (op, blk) }

/-- The check an op ends with: 0 when all pass, else the failing check (R1020, R1029). `ok` says whether the device
answered. -/
def stageCheck (s : State) (op blk : Nat) (ok : Bool) : Nat :=
  let v := stageSlot s
  let h := imageBlock s v 0
  if !ok then 1
  else match op with
  | 1 => headCause s h
  | 2 =>
    if blk = 4 then (if tableOk s v h then 0 else 7)
    else if 5 ≤ blk then (if blockOk s v (blk - 5) (imageBlock s v blk) then 0 else 8)
    else 0
  | 3 => imageCause s v ok [0, 1, 2]
  | _ => 0

/-- An op ends: busy falls and result is written. -/
def State.stageEnd (s : State) (op blk : Nat) (ok : Bool) : Nat × State :=
  let c := stageCheck s op blk ok
  let s1 := (s.setSec { s.m.sec with op := none }).secP Reg.secStatus_busy 0
  if c ≠ 0 then (1, ((s1.secP Reg.secStatus_result 1).secP Reg.secStatus_stage_cause c).secP Reg.secStatus_staged 0)
  else
    let s2 := s1.secP Reg.secStatus_result 0
    (0, if op = 3 then s2.secP Reg.secStatus_staged 1 else if op = 5 then s2.secP Reg.secStatus_staged 0 else s2)

/-- Start an op on the window's contents; true when it is refused. -/
def State.stageStart (s : State) (op blk : Nat) (win : List Byte) : Bool × State :=
  if stageRefused s op blk then (true, s.stageRefuse) else (false, (s.stageDo op blk win).secP Reg.secStatus_busy 1)

/-- A write of SEC_STAGE_CMD: block_no is held; ops 0, 6 and 7 have no effect. -/
def State.stageWrite (s : State) (v : Word) : State :=
  let op := fld v 0 3
  let blk := fld v 16 12
  let s1 := s.p Reg.secStageCmd Reg.secStageCmd_block_no blk
  if op = 0 ∨ 6 ≤ op then s1 else (s1.stageStart op blk (stageWindow s1)).2

/-- A write of SEC_STAGE_CMD with the op of a row. -/
def State.stageOp (s : State) (r : Requester) (op : Nat) (v : Word) : State :=
  s.regWr r Reg.secStageCmd (fun s => s.stageWrite (setFld v 0 3 op))

/-- STAGE_BEGIN. -/
def execStageBegin (r : Requester) (v : Word) (s : State) : Host.Outcome State Fault Refusal := .next (s.stageOp r 1 v)
/-- STAGE_BLOCK. -/
def execStageBlock (r : Requester) (v : Word) (s : State) : Host.Outcome State Fault Refusal := .next (s.stageOp r 2 v)
/-- STAGE_FINISH. -/
def execStageFinish (r : Requester) (v : Word) (s : State) : Host.Outcome State Fault Refusal := .next (s.stageOp r 3 v)
/-- STAGE_ACTIVATE. -/
def execStageActivate (r : Requester) (v : Word) (s : State) : Host.Outcome State Fault Refusal := .next (s.stageOp r 4 v)
/-- STAGE_ABORT. -/
def execStageAbort (r : Requester) (v : Word) (s : State) : Host.Outcome State Fault Refusal := .next (s.stageOp r 5 v)

/-! ## Distribution (R1032 to R1034) -/

/-- Replace the distribution part. -/
def State.setDist (s : State) (x : DistS) : State := s.setM { s.m with dist := x }

/-- FW_ACK, FW_START, FW_DATA and FW_DONE messages: type, length, body. -/
def fwMsg (typ : Nat) (body : List Byte) : List Byte := leBytes 1 typ ++ leBytes 1 body.length ++ body

/-- FW_ACK of a block with a result. -/
def fwAck (blk result : Nat) : List Byte := fwMsg 0x21 (leBytes 2 blk ++ leBytes 1 result)

/-- Blocks of the image in the staging slot: header, check table, payload. -/
def imageBlocks (s : State) : Nat := 5 + leAt (imageBlock s (stageSlot s) 0) 12 4

/-- How many blocks are ready to be sent on: all of a staged image, or those staged so far. -/
def fwReady (s : State) : Nat := if s.on Reg.secStatus Reg.secStatus_staged then imageBlocks s else s.m.dist.staged

/-- The FW_DATA messages of a block: 56 bytes each. -/
def fwBlock (s : State) (blk : Nat) : List (List Byte) :=
  let bs := imageBlock s (stageSlot s) blk
  (List.range 74).map (fun i => fwMsg 0x22 (leBytes 2 blk ++ leBytes 2 (56 * i) ++ slice bs (56 * i) (min 56 (4096 - 56 * i))))

/-- Send a block on a port. -/
def State.fwSend (s : State) (q blk : Nat) : State := s.each (fun s m => s.scSend q m) (fwBlock s blk)

/-- Change the receiver at a port. -/
def State.fwPeer (s : State) (q : Nat) (x : FwPeer) : State :=
  s.setDist { s.m.dist with peers := s.m.dist.peers.map (fun y => if y.port = q then x else y) }

/-- Send a receiver what R1033 lets it have: block s + 2 only after block s is acknowledged; FW_DONE after the last. -/
def State.fwPump (s : State) (x : FwPeer) : Nat → State
  | 0 => s
  | fuel + 1 =>
    if !x.started || x.stopped then s
    else if x.sent < fwReady s ∧ x.sent < x.acked + 2 then
      let y := { x with sent := x.sent + 1 }
      ((s.fwPeer x.port y).fwSend x.port x.sent).fwPump y fuel
    else if !x.finished ∧ s.on Reg.secStatus Reg.secStatus_staged ∧ x.acked = imageBlocks s then
      (s.fwPeer x.port { x with finished := true }).scSend x.port (fwMsg 0x23 [])
    else s

/-- Send every receiver what it may have. -/
def State.fwPumpAll (s : State) : State := s.each (fun s x => s.fwPump x 3) s.m.dist.peers

/-- Coordinates of a station (R25). -/
def stX (w : Nat) : Nat := nfld w 0 5
def stY (w : Nat) : Nat := nfld w 5 5
def stZ (w : Nat) : Nat := nfld w 10 5

/-- The ports a receiver forwards to (R1034). -/
def fwPorts (s : State) (origin dirs : Nat) : List Nat :=
  let w := ownHome s
  let plus (a b : Nat) : Bool := (a + 1) % 32 != b
  let xs := stX w == stX origin
  let ys := stY w == stY origin
  let l := (if plus (stX w) (stX origin) then [0] else []) ++ (if xs && plus (stY w) (stY origin) then [2] else []) ++
    (if xs && ys && plus (stZ w) (stZ origin) then [4] else []) ++ (if nbit dirs 3 && stX w % 8 == 0 then [7] else [])
  l.filter (fun q => s.portState q == 5)

/-- FW_START (R1032): the receiver answers, and forwards to its own receivers. -/
def execFwStart (p : Port) (m : List Byte) (s : State) : Host.Outcome State Fault Refusal :=
  if byteAt m 0 ≠ 0x20 ∨ !wardensRun s then .next s
  else
    let running := headerDigest (imageBlock s (s.g Reg.secStatus Reg.secStatus_slot) 0)
    if pstate s ≠ 0 ∨ s.on Reg.secStatus Reg.secStatus_busy ∨ slice m 5 32 = running then .next (s.scSend p (fwAck 0xFFFF 2))
    else
      let origin := leAt m 2 2
      let dirs := byteAt m 4
      let ports := fwPorts s origin dirs
      let peer (q : Nat) : FwPeer := { port := q, started := false, sent := 0, acked := 0, finished := false, stopped := false }
      let s1 := s.setDist { DistS.reset with
        src := some p.val, origin := origin, dirs := dirs, digest := slice m 5 32, peers := ports.map peer }
      .next ((s1.scSend p (fwAck 0xFFFF 0)).each (fun s q => s.scSend q m) ports)

/-- A block has come whole and no op runs: it is staged, block 0 by op 1, the others by op 2. -/
def State.fwStage (s : State) : State :=
  let x := s.m.dist
  match x.src with
  | some p =>
    if x.buf.length < 4096 ∨ x.op.isSome then s
    else
      match (s.setWindow x.buf).stageStart (if x.staged = 0 then 1 else 2) x.staged x.buf with
      | (true, s1) => (s1.setDist { s1.m.dist with buf := [], src := none }).scSend p (fwAck x.staged 2)
      | (false, s1) => s1.setDist { s1.m.dist with buf := [], op := some 1 }
  | none => s

/-- FW_DATA (R1033, R1034): bytes of the next block in order are taken; a gap asks for the block again. -/
def execFwData (p : Port) (m : List Byte) (s : State) : Host.Outcome State Fault Refusal :=
  let x := s.m.dist
  if byteAt m 0 ≠ 0x22 ∨ x.src ≠ some p.val then .next s
  else
    let want := x.staged + (if x.op = some 1 then 1 else 0)
    let blk := leAt m 2 2
    if blk = want ∧ leAt m 4 2 = x.buf.length ∧ x.buf.length < 4096 then
      let bs := slice m 6 (min (byteAt m 1 - 4) (4096 - x.buf.length))
      .next (s.setDist { x with buf := x.buf ++ bs }).fwStage
    else if leAt m 4 2 + byteAt m 1 - 4 < 4096 then .next (s.setDist { x with buf := [] })
    else .next ((s.setDist { x with buf := [] }).scSend p (fwAck blk 1))

/-- FW_ACK (R1033). An answer to a FW_START that the wardens sent by hand makes this module the origin. -/
def execFwAck (p : Port) (m : List Byte) (s : State) : Host.Outcome State Fault Refusal :=
  let blk := leAt m 2 2
  let result := byteAt m 4
  if byteAt m 0 ≠ 0x21 ∨ !wardensRun s then .next s
  else match s.m.dist.peers.find? (fun x => x.port == p.val) with
  | some x =>
    if result = 2 then .next (s.fwPeer p { x with stopped := true })
    else if result = 1 then .next (if blk < x.sent then s.fwSend p blk else s)
    else
      let y := if blk = 0xFFFF then { x with started := true } else if blk = x.acked then { x with acked := x.acked + 1 } else x
      .next ((s.fwPeer p y).fwPump y 3)
  | none =>
    if result = 0 ∧ blk = 0xFFFF ∧ s.on Reg.secStatus Reg.secStatus_staged then
      let y : FwPeer := { port := p, started := true, sent := 0, acked := 0, finished := false, stopped := false }
      .next ((s.setDist { s.m.dist with peers := s.m.dist.peers ++ [y] }).fwPump y 3)
    else .next s

/-- FW_DONE (R1034): op 3, and after it op 4 where auto_activate is 1. -/
def execFwDone (p : Port) (m : List Byte) (s : State) : Host.Outcome State Fault Refusal :=
  if byteAt m 0 ≠ 0x23 ∨ s.m.dist.src ≠ some p.val then .next s
  else
    match s.stageStart 3 0 [] with
    | (true, s1) => .next (s1.scSend p (fwAck 0xFFFF 2))
    | (false, s1) => .next (s1.setDist { s1.m.dist with op := some 3 })

/-- What a staging op that ran for the distribution leads to. -/
def State.fwStaged (s : State) (result : Nat) : State :=
  let x := s.m.dist
  match x.src, x.op with
  | some p, some 1 =>
    let s1 := s.setDist { x with op := none, staged := if result = 0 then x.staged + 1 else x.staged }
    ((s1.scSend p (fwAck x.staged result)).fwStage).fwPumpAll
  | some p, some 3 =>
    let s1 := (s.setDist { x with op := none }).scSend p (fwAck 0xFFFF result)
    if result = 0 ∧ s1.on Reg.secDistCfg Reg.secDistCfg_auto_activate then
      (match s1.fwPumpAll.stageStart 4 0 [] with
        | (true, s2) => s2
        | (false, s2) => s2.setDist { s2.m.dist with op := some 4 })
    else s1.fwPumpAll
  | _, _ => s.setDist { x with op := none }

/-- STAGE_OP_END: the running op ends; `ok` says whether the device answered. A restart held by it follows (R1031). -/
def execStageOpEnd (ok : Bool) (s : State) : Host.Outcome State Fault Refusal :=
  match s.m.sec.op with
  | none => .next s
  | some (op, blk) =>
    let (result, s1) := s.stageEnd op blk ok
    let s2 := s1.fwStaged result
    match s2.m.boot.restart with
    | some cold =>
      if s2.on Reg.secStatus Reg.secStatus_busy then .next s2
      else
        let s3 := s2.setBoot { s2.m.boot with restart := none }
        .next (if cold then s3.restartCold else s3.restartWarm)
    | none => .next s2

/-! ## Recovery mode (R1036 to R1038) -/

/-- A recovery datagram: magic, type, zero, serial, body. -/
def recMsg (typ : Nat) (body : List Byte) : List Byte :=
  leBytes 2 0x51DF ++ leBytes 1 typ ++ [0] ++ serialBytes ++ body

/-- A recovery datagram is taken: recovery mode, port 0 up, its magic, its type, the fused serial. -/
def recTakes (s : State) (m : List Byte) (typ : Nat) : Bool :=
  s.m.sec.recovery && ethUp s 0 && leAt m 0 2 == 0x51DF && byteAt m 2 == typ && slice m 4 16 == serialBytes

/-- Send a recovery datagram. -/
def State.recSend (s : State) (m : List Byte) : State := s.ethEmit 0 (.recovery m) (m.length + 46)

/-- HELLO (R1037). -/
def execHello (s : State) : Host.Outcome State Fault Refusal :=
  if !s.m.sec.recovery || !ethUp s 0 then .next s
  else .next (s.recSend (recMsg 1 (leBytes 1 s.m.sec.epoch ++ leBytes 4 (versionFloor s) ++
    leBytes 1 (s.g Reg.secStatus Reg.secStatus_cause_a) ++ leBytes 1 (s.g Reg.secStatus Reg.secStatus_cause_b))))

/-- One op run to its end. -/
def State.stageWhole (s : State) (op blk : Nat) (win : List Byte) (ok : Bool) : Nat × State :=
  match s.stageStart op blk win with
  | (true, s1) => (2, s1)
  | (false, s1) => s1.stageEnd op blk ok

/-- RECOVERY_BLOCK (R1038): BLOCK 0 is op 1 on slot A, a later one op 2. -/
def execRecoveryBlock (m : List Byte) (s : State) : Host.Outcome State Fault Refusal :=
  if !recTakes s m 2 then .next s
  else
    let blk := leAt m 20 2
    let (result, s1) := s.stageWhole (if blk = 0 then 1 else 2) blk (padTo 0 4096 (m.drop 22)) true
    .next (s1.recSend (recMsg 3 (leBytes 2 blk ++ leBytes 1 result)))

/-- ACTIVATE (R1038): op 3, op 4, a cold start. -/
def execActivate (m : List Byte) (s : State) : Host.Outcome State Fault Refusal :=
  if !recTakes s m 4 then .next s
  else .next ((s.stageWhole 3 0 [] true).2.stageWhole 4 0 [] true).2.restartCold

/-! ## Debug access (R1044 to R1049) -/

/-- The challenge and the response as bytes. -/
def dbgChal (s : State) : List Byte := (List.range 4).flatMap (fun j => leBytes 8 (s.rd (Reg.secDbgChal j)).toNat)
def dbgResp (s : State) (n : Nat) : List Byte :=
  ((List.range ((n + 7) / 8)).flatMap (fun j => leBytes 8 (s.rd (Reg.secDbgResp j)).toNat)).take n

/-- Draw fresh words into consecutive registers. -/
def State.drawWords (s : State) (a : Nat) : Nat → State
  | 0 => s
  | n + 1 =>
    let (v, s1) := s.draw
    (s1.wr a (BitVec.ofNat 64 v)).drawWords (a + 8) n

/-- A write of 1 to new_chal (R1045). -/
def State.newChal (s : State) : State :=
  let s1 := s.drawWords (Reg.secDbgChal 0) 4
  s1.setSec { s1.m.sec with chalAt := some s.now }

/-- DBG_NEW_CHAL. -/
def execDbgNewChal (r : Requester) (s : State) : Host.Outcome State Fault Refusal :=
  .next (s.regWr r Reg.secDbgCtl State.newChal)

/-- "SL4 DEBUG" as bytes. -/
def dbgLabel : List Byte := "SL4 DEBUG".toList.map (fun c => BitVec.ofNat 8 c.toNat)

/-- The response passes under its method (R1046). -/
def dbgPasses (s : State) : Bool :=
  if s.on Reg.secDbgCtl Reg.secDbgCtl_method then
    s.m.sec.pwSet && shake32 (dbgResp s 32 ++ serialBytes) == s.m.sec.pwHash
  else
    let b := dbgResp s 2888
    shake32 (b.take 68) == Config.dbgKeyDigest &&
      Config.xmssVerify (b.take 68) (shake32 (dbgLabel ++ dbgChal s ++ serialBytes)) (b.drop 68)

/-- A check is not refused: no pitch, and a challenge that is neither spent nor stale (R1045, R1047). -/
def dbgAllowed (s : State) : Bool :=
  pstate s == 0 && (match s.m.sec.chalAt with | some t => decide (s.now ≤ t + 600000000000) | none => false)

/-- A write of 1 to check (R1046, R1047). -/
def State.dbgCheck (s : State) : State :=
  let fails := s.g Reg.secStatus Reg.secStatus_dbg_fails
  let s1 := s.setSec { s.m.sec with chalAt := none }
  if 3 ≤ fails then (s1.secRaise 9).secRaise 10
  else if dbgAllowed s && dbgPasses s then (s1.secP Reg.secStatus_dbg_open 1).secRaise 8
  else (s1.secP Reg.secStatus_dbg_fails (fails + 1)).secRaise 9

/-- DBG_CHECK. -/
def execDbgCheck (r : Requester) (s : State) : Host.Outcome State Fault Refusal :=
  .next (s.regWr r Reg.secDbgCtl State.dbgCheck)

/-- A write of 1 to pw_write (R1049). -/
def State.pwWrite (s : State) : State :=
  if s.on Reg.secDbgCtl Reg.secDbgCtl_method && !s.m.sec.pwSet && s.jtagOpen then
    (s.setSec { s.m.sec with pwSet := true, pwHash := shake32 (dbgResp s 32 ++ serialBytes) }).secP Reg.secStatus_pw_set 1
  else s

/-- DBG_PW_WRITE. -/
def execDbgPwWrite (r : Requester) (s : State) : Host.Outcome State Fault Refusal :=
  .next (s.regWr r Reg.secDbgCtl State.pwWrite)

/-- A write of SEC_DBG_CTL: the method is set, then each bit acts. -/
def State.dbgCtlWrite (s : State) (v : Word) : State :=
  let s1 := s.p Reg.secDbgCtl Reg.secDbgCtl_method (fld v 2 1)
  let s2 := if fld v 0 1 = 1 then s1.newChal else s1
  let s3 := if fld v 1 1 = 1 then s2.dbgCheck else s2
  if fld v 3 1 = 1 then s3.pwWrite else s3

/-- JTAG_INSTRUCTION (R1044): with debug access closed, IDCODE, BYPASS, SAMPLE/PRELOAD and the SEC debug registers are
reached, EXTEST only in Standby with pitch state 0, and every other instruction acts as BYPASS. -/
def execJtagInstruction (ir : JtagIr) (s : State) : Host.Outcome State Fault Refusal :=
  let eff : JtagIr :=
    if s.jtagOpen then ir
    else match ir with
    | .extest => if s.m.st = .standby ∧ pstate s = 0 then .extest else .bypass
    | .other _ => .bypass
    | x => x
  .next (s.setSec { s.m.sec with ir := eff })

end Sys2Proof.Machine
end

