-- ==== Sys2Proof/Machine/Sensors.lean ====
section
/-! DEFINITION. Sensors, connector supplies and the identity memory (R1066 to R1080). -/

namespace Sys2Proof.Machine

/-- Replace the sensor part. -/
def State.setSens (s : State) (x : SensS) : State := s.setM { s.m with sens := x }

/-- Raise an event of MGT_SENS_EVENTS: 0 fault, 1 flow_low, 2 coolant_hot, 3 conn_power. -/
def State.sensRaise (s : State) (bit : Nat) : State := s.raise ⟨0x23, 1, bit⟩ .module

/-! ## Samples (R1066 to R1071) -/

/-- How a coolant sensor reads: 0 good, 1 open, 2 shorted (R1066): `k` 0 inlet, 1 outlet (0.01 °C), 2 flow loop
(0.01 mA). -/
def coolKind (k : Nat) (x : Int) : Nat :=
  if k < 2 then (if x < -4000 then 1 else if 15000 < x then 2 else 0)
  else (if x < 300 then 1 else if 2200 < x then 2 else 0)

/-- The reading a good sample writes: 0.01 °C as it is; the loop's 4 to 20 mA as 0 to 10.00 L/min. -/
def coolRead (k : Nat) (x : Int) : Nat :=
  if k < 2 then encS 16 x else min 1000 (1000 * (x - 400).toNat / 1600)

/-- The reading and valid fields of a coolant sensor in MGT_SENS_COOL. -/
def coolField (k : Nat) : RF :=
  if k = 0 then Reg.mgtSensCool_inlet else if k = 1 then Reg.mgtSensCool_outlet else Reg.mgtSensCool_flow
def coolValid (k : Nat) : RF := ⟨42 + k, 1⟩

/-- A sample of one coolant sensor (R1067). -/
def State.coolSample (s : State) (k : Nat) (x : Int) : State :=
  let kind := coolKind k x
  let y := s.m.sens
  let bad := if kind = 0 then 0 else y.bad.getD k 0 + 1
  let good := if kind = 0 then y.good.getD k 0 + 1 else 0
  let s1 := s.setSens { y with bad := y.bad.set k bad, good := y.good.set k good }
  let st := Reg.mgtSensStatus
  let f : RF := ⟨2 * k, 2⟩
  if 3 ≤ bad then
    let s2 := ((s1.p st f kind).p Reg.mgtSensCool (coolValid k) 0).p Reg.mgtSensCool (coolField k) 0
    if s.g st f = 0 then s2.sensRaise 0 else s2
  else if kind ≠ 0 then s1
  else
    let s2 := if 3 ≤ good then (s1.p st f 0).p Reg.mgtSensCool (coolValid k) 1 else s1
    if s2.on Reg.mgtSensCool (coolValid k) then s2.p Reg.mgtSensCool (coolField k) (coolRead k x) else s2

/-- The hottest valid sensor of a die: reading and number. -/
def hottestOf : Nat → List (Option Int) → Option (Int × Nat)
  | _, [] => none
  | n, x :: xs =>
    match x, hottestOf (n + 1) xs with
    | some v, some (w, m) => if w ≤ v then some (v, n) else some (w, m)
    | some v, none => some (v, n)
    | none, r => r

/-- A die temperature sensor is valid inside −40 to 150 °C (R1071). -/
def dieValid (x : Option Int) : Option Int :=
  match x with
  | some v => if -4000 ≤ v ∧ v ≤ 15000 then some v else none
  | none => none

/-- The samples of a die's 16 sensors. -/
def State.dieSample (s : State) (d : Nat) (l : List (Option Int)) : State :=
  let a := Reg.mgtSensDie d
  let l := (padTo none 16 l).map dieValid
  let s1 := s.p a Reg.mgtSensDie_valid (flagBits (l.map Option.isSome))
  match hottestOf 0 l with
  | some (v, n) => (s1.p a Reg.mgtSensDie_hottest (encS 16 v)).p a Reg.mgtSensDie_sensor n
  | none => (s1.p a Reg.mgtSensDie_hottest 0).p a Reg.mgtSensDie_sensor 0

/-- Where a quantity stands against its limit: 1 beyond, 2 within, 0 neither; and since when. -/
def standing (now : Nat) (old : Nat × Nat) (valid beyond : Bool) : Nat × Nat :=
  let c := if !valid then 0 else if beyond then 1 else 2
  if old.1 = c then old else (c, now)

/-- It has stood so for 1 s. -/
def stood (now : Nat) (x : Nat × Nat) (c : Nat) : Bool := x.1 == c && decide (x.2 + 1000000000 ≤ now)

/-- A coolant reading lies above its limit in °C. -/
def coolAbove (s : State) (k limit : Nat) : Bool :=
  decide ((100 * limit : Nat) < sgn 16 (s.g Reg.mgtSensCool (coolField k)))

/-- Judge flow and coolant against their limits; a status bit returns to 0 after 1 s within its limit (R1068, R1069). -/
def State.coolJudge (s : State) : State :=
  let v (k : Nat) : Bool := s.on Reg.mgtSensCool (coolValid k)
  let c := Reg.mgtSensCfg
  let y := s.m.sens
  let low := decide (s.g Reg.mgtSensCool Reg.mgtSensCool_flow < s.g c Reg.mgtSensCfg_flow_min)
  let flow := standing s.now y.flow (v 2 && (!low || s.dieOn 0 || s.dieOn 1)) low
  let inlet := standing s.now y.inlet (v 0) (coolAbove s 0 (s.g c Reg.mgtSensCfg_inlet_max))
  let outlet := standing s.now y.outlet (v 1) (coolAbove s 1 (s.g c Reg.mgtSensCfg_outlet_max))
  let s1 := s.setSens { y with flow := flow, inlet := inlet, outlet := outlet }
  let clear (s : State) (x : Nat × Nat) (f : RF) : State := if stood s.now x 2 then s.p Reg.mgtSensStatus f 0 else s
  clear (clear (clear s1 flow Reg.mgtSensStatus_flow_low) inlet Reg.mgtSensStatus_inlet_high) outlet
    Reg.mgtSensStatus_outlet_high

/-- SENSOR_SAMPLE. -/
def execSensorSample (x : SensorSet) (s : State) : Host.Outcome State Fault Refusal :=
  if s.m.st = .off then .next s
  else
    let s1 := ((s.coolSample 0 x.inlet).coolSample 1 x.outlet).coolSample 2 x.loop
    let s2 := (s1.dieSample 0 x.dieA).dieSample 1 x.dieB
    let temp (n : Nat) : Nat := match x.hbm[n]? with | some (some v) => min v 254 | _ => 0xFF
    let s3 := s2.each (fun s n => s.p (Reg.mgtSensHbm (n / 8)) ⟨8 * (n % 8), 8⟩ (temp n)) (List.range 16)
    let board (b : Nat) : Nat := match x.board[b]? with | some (some v) => encS 16 v | _ => 0x8000
    let s4 := s3.each (fun s b => s.p Reg.mgtSensBoard ⟨16 * b, 16⟩ (board b)) (List.range 4)
    .next s4.coolJudge

/-- SENS_FLOW_LOW (R1068). -/
def execSensFlowLow (s : State) : Host.Outcome State Fault Refusal :=
  if !stood s.now s.m.sens.flow 1 || s.on Reg.mgtSensStatus Reg.mgtSensStatus_flow_low then .next s
  else .next ((s.p Reg.mgtSensStatus Reg.mgtSensStatus_flow_low 1).sensRaise 1)

/-- SENS_COOLANT_HOT (R1069): inlet or outlet. -/
def execSensCoolantHot (outlet : Bool) (s : State) : Host.Outcome State Fault Refusal :=
  let f := if outlet then Reg.mgtSensStatus_outlet_high else Reg.mgtSensStatus_inlet_high
  if !stood s.now (if outlet then s.m.sens.outlet else s.m.sens.inlet) 1 || s.on Reg.mgtSensStatus f then .next s
  else .next ((s.p Reg.mgtSensStatus f 1).sensRaise 2)

/-- DIE_BLIND (R1072): it acts as R925. -/
def execDieBlind (d : Die) (s : State) : Host.Outcome State Fault Refusal :=
  let f : RF := ⟨9 + d.val, 1⟩
  if !s.dieOn d || s.g (Reg.mgtSensDie d) Reg.mgtSensDie_valid != 0 then .next s
  else .next (s.p Reg.mgtSensStatus f 1).overtemp

/-! ## Connector supplies (R1076 to R1079) -/

/-- The number a connector's departure is noted under. -/
def ConnId.no : ConnId → Nat
  | .cable p => p
  | .cage e => 16 + e

/-- The present and off bits of a connector in MGT_CONN. -/
def ConnId.present : ConnId → RF
  | .cable p => ⟨p, 1⟩
  | .cage e => ⟨32 + e, 1⟩
def ConnId.off : ConnId → RF
  | .cable p => ⟨16 + p, 1⟩
  | .cage e => ⟨40 + e, 1⟩

/-- A connector's presence signal changes: a supply that tripped comes back when the signal was away for at least 100 ms
(R1077). -/
def State.connSeat (s : State) (c : ConnId) (present : Bool) : State :=
  let a := Reg.mgtConn
  let x := s.m.sens
  if s.on a c.present = present then s
  else if present then
    let long := x.gone.any (fun y => y.1 == c.no && decide (y.2 + 100000000 ≤ s.now))
    let s1 := s.p a c.present 1
    if long then s1.p a c.off 0 else s1
  else (s.p a c.present 0).setSens { x with gone := x.gone.filter (fun y => y.1 != c.no) ++ [(c.no, s.now)] }

/-- CABLE_PRESENT (R1076, R1077). -/
def execCablePresent (p : Port) (present : Bool) (s : State) : Host.Outcome State Fault Refusal :=
  if aonOn s then .next (s.connSeat (.cable p) present) else .next s

/-- CAGE_PRESENT (R1078, R1079): `highPower` says the pluggable declares a power class above 4.5 W. -/
def execCagePresent (e : Fin 8) (present highPower : Bool) (s : State) : Host.Outcome State Fault Refusal :=
  if !aonOn s then .next s
  else
    let s1 := s.connSeat (.cage e) present
    let s2 := s1.setEth e { ethPort s1 e with lowPower := present && highPower }
    .next (if present && highPower then (s2.ethDown e).ethRaise e 0 else s2)

/-- SENS_CONN_POWER (R1077): a supply switches off for overcurrent, and its port goes down. -/
def execSensConnPower (c : ConnId) (s : State) : Host.Outcome State Fault Refusal :=
  let a := Reg.mgtConn
  if !s.on a c.present || s.on a c.off then .next s
  else
    let s1 := (s.p a c.off 1).sensRaise 3
    match c with
    | .cable p => .next (if s1.dieOn (portDie p) then s1.portDown p else s1)
    | .cage e => .next ((s1.ethDown e).ethRaise e 0)

/-! ## The identity memory (R1080) -/

/-- The order code, padded. -/
def orderCode : List Byte := padTo 0 16 ("SL4-2208-LQ".toList.map (fun c => BitVec.ofNat 8 c.toNat))

/-- The 256 bytes of the identity memory. -/
def identBytes : List Byte :=
  let b := serialBytes ++ orderCode ++ [0xB0, 1, 0, 0]
  padTo 0 256 (b ++ leBytes 4 (crc32 b))

/-- I2C_READ: bytes from a one-byte offset, in every module state. -/
def execI2cRead (off : Byte) (n : Nat) (s : State) : Host.Outcome State Fault Refusal :=
  .next (s.emit (.i2c ((List.range n).map (fun i => identBytes.getD ((off.toNat + i) % 256) 0))))

end Sys2Proof.Machine
end

