-- ==== Sys2Proof/Machine/RegView.lean ====
section
/-! DEFINITION. What a read of a register shows: the fields that state elsewhere in the machine determines, over the word
the register holds (R6, R9 and the register tables of each block). -/

namespace Sys2Proof.Machine

/-- A word with fields set. -/
def withFlds (w : Word) : List (RF × Nat) → Word
  | [] => w
  | (f, v) :: r => setFld (withFlds w r) f.lo f.w v

/-- A number whose bit `i` is `p i`, for `i` below `n`. -/
def bitsOf (n : Nat) (p : Nat → Bool) : Nat := flagBits ((List.range n).map p)

/-! ## Tile blocks -/

/-- FWD_STATUS and FWD_PROGRESS (R133, R253). -/
def viewFwd (s : State) (d t a : Nat) : List (RF × Nat) :=
  let op := fwdOp s d t
  let n := match op with | some o => o.desc.le 24 2 | none => 0
  if a = Reg.fwdStatus d t then
    [(Reg.fwdStatus_busy, op.isSome.toNat), (Reg.fwdStatus_startup, (startupOn s d t).toNat)]
  else if a = Reg.fwdProgress d t then
    match (s.tile d t).fwd with
    | some f =>
      let stall (l : Nat) : Bool := decide (f.starts.getD l 0 < n ∧ f.oldest + 3 < f.starts.getD l 0)
      let whole := f.vecs.find? (fun y => y.v == f.oldest && decide (8 ≤ y.lanes.length))
      [(Reg.fwdProgress_oldest, f.oldest), (Reg.fwdProgress_vec_count, n), (Reg.fwdProgress_lane_stall, bitsOf 8 stall),
       (Reg.fwdProgress_side_wait, (whole.any (fun y => !y.sideDone)).toNat),
       (Reg.fwdProgress_out_wait, (whole.any (fun y => y.sideDone && decide (2 ≤ f.out.length))).toNat)]
    | none => [(Reg.fwdProgress_oldest, 0), (Reg.fwdProgress_vec_count, n)]
  else []

/-- BWD_STATUS and BWD_PROGRESS (R187). -/
def viewBwd (s : State) (d t a : Nat) : List (RF × Nat) :=
  let b := (s.tile d t).bwd
  if a = Reg.bwdStatus d t then
    [(Reg.bwdStatus_busy, (bwdOps s d t != []).toNat),
     (Reg.bwdStatus_sets_held, min 2 (b.full.length + b.cur.isSome.toNat)),
     (Reg.bwdStatus_draining, b.drain.isSome.toNat)]
  else if a = Reg.bwdProgress d t then
    let cur (f : BwdSet → Nat) : Nat := match b.cur with | some c => f c | none => 0
    [(Reg.bwdProgress_block, cur (·.block)), (Reg.bwdProgress_k_pos, cur (fun c => 4 * c.cycles)),
     (Reg.bwdProgress_drain_block, match b.drain with | some x => x.set.block | none => 0),
     (Reg.bwdProgress_drain_wait, (b.cur.isSome && decide (2 ≤ b.full.length)).toNat)]
  else []

/-- CNV_STATUS and CNV_PROGRESS (R278). -/
def viewCnv (s : State) (d t a : Nat) : List (RF × Nat) :=
  let op := cnvOp s d t
  if a = Reg.cnvStatus d t then
    [(Reg.cnvStatus_busy, op.isSome.toNat), (Reg.cnvStatus_queue, (s.tile d t).cnvQ.length)]
  else if a = Reg.cnvProgress d t then
    [(Reg.cnvProgress_vector, match (s.tile d t).cnv with | some c => c.next | none => 0),
     (Reg.cnvProgress_vec_count, match op with | some o => o.desc.le 24 2 | none => 0)]
  else []

/-- SEQ_STATUS.state (R402). -/
def seqShown (s : State) (d t : Nat) : Nat :=
  match stallCode s d t with
  | 0 => 0
  | 4 => 2
  | 5 | 6 | 7 => 3
  | 8 => 4
  | 9 => 5
  | _ => 1

/-- SEQ_STATUS and SEQ_WAIT (R402). -/
def viewSeq (s : State) (d t a : Nat) : List (RF × Nat) :=
  let ops := (s.tile d t).ops
  let has (op n : Nat) : Bool := decide (n ≤ (ops.filter (fun o => o.opcode == op)).length)
  if a = Reg.seqStatus d t then
    [(Reg.seqStatus_state, seqShown s d t), (Reg.seqStatus_in_flight, ops.length),
     (Reg.seqStatus_units, flagBits [has 1 1, has 2 1, has 3 1, has 4 1, has 5 1, has 2 2])]
  else if a = Reg.seqWait d t then
    [(Reg.seqWait_tally, match headDesc s d t with | some h => h.waitTally | none => 0),
     (Reg.seqWait_waiting, (stallCode s d t == 4).toNat), (Reg.seqWait_mark, headMark s d t)]
  else []

/-- The channel registers (R553). -/
def viewChan (s : State) (k : ChanId) (off : Nat) : List (RF × Nat) :=
  let ch := chan s k
  if off = 0 then
    let q := match k with | .die d c => ((s.die d).queue (67 + c)).length | .tile _ _ _ => 0
    let pacing (x : ChS) : Bool := x.paused ||
      (x.ready && cpPace x.q.desc == 1 && linePending s k (cpLine x.q.desc) == 0)
    [(Reg.cpyChStatus_state
        , match ch with
          | none => 0
          | some x => if x.halted then 4 else if x.fails != [] then 3 else if pacing x then 2 else 1),
     (Reg.cpyChStatus_paused, (ch.any (·.paused)).toNat),
     (Reg.cpyChStatus_attempt, match ch with | some x => ((x.fails.head?).map (·.attempts)).getD 0 | none => 0),
     (Reg.cpyChStatus_queue, q)]
  else if off = 0x10 then
    match ch with
    | some x =>
      let (row, o) := if x.left = 0 then cpAt x.q.desc x.begun
        else (let (r, o) := cpAt x.q.desc (x.begun - 1); (r, o + x.pos))
      [(Reg.cpyChPos_row, row), (Reg.cpyChPos_offset, o)]
    | none => []
  else []

/-- MEM_STATUS (R444). -/
def viewMem (s : State) (d t a : Nat) : List (RF × Nat) :=
  let x := s.tile d t
  if a = Reg.memStatus d t then
    [(Reg.memStatus_waking, bitsOf 24 (fun b => x.waking.contains b)),
     (Reg.memStatus_pool_waking, (x.waking.contains 24).toNat), (Reg.memStatus_invalidating, (x.inval != 0).toNat)]
  else []

/-! ## Die blocks -/

/-- UPD_STATUS and UPD_PROGRESS (R302, R333). -/
def viewUpd (s : State) (d a : Nat) : List (RF × Nat) :=
  let x := s.die d
  if a = Reg.updStatus d then
    [(Reg.updStatus_busy, x.u.cur.isSome.toNat), (Reg.updStatus_startup, (updStartup s d).toNat),
     (Reg.updStatus_prepass, (x.u.cur.any (fun c => c.lrExp.isNone)).toNat), (Reg.updStatus_queue, x.updQ.length),
     (Reg.updStatus_mirrors, (x.u.mirrors.filter (mirrorLive s d)).length)]
  else if a = Reg.updProgress d then
    let wait := (Reg.updProgress_mirror_wait, (engStalled s d 64).toNat)
    match x.u.cur with
    | some c => [wait, (Reg.updProgress_unit, c.next), (Reg.updProgress_layer_id, updLayer c.q.desc),
        (Reg.updProgress_lr_exp, encS 8 (c.lrExp.getD 0))]
    | none => [wait]
  else []

/-- HBM_STATUS and TR2_STATUS (R465, R507). -/
def viewExt (s : State) (d off : Nat) : List (RF × Nat) :=
  if off % 0x1000 = 0 then
    [(Reg.hbmStatus_init_done, (s.die d).initDone.toNat),
     (Reg.hbmStatus_self_refresh, (s.dieOn d && s.m.st == .warmReserve).toNat)]
  else []

/-- MAP_STATUS, MAP_REPAIR and MAP_REPAIR_STAT (R508). -/
def viewMap (s : State) (d a : Nat) : List (RF × Nat) :=
  let x := s.die d
  if a = Reg.mapStatus d then
    [(Reg.mapStatus_hbm_init_done, x.initDone.toNat), (Reg.mapStatus_tr2_init_done, x.initDone.toNat),
     (Reg.mapStatus_rc_ready, (x.initDone && !x.rcInvalid).toNat)]
  else if a = Reg.mapRepair d then
    [(Reg.mapRepair_addr, x.repair.head?.getD 0), (Reg.mapRepair_valid, (x.repair != []).toNat)]
  else if a = Reg.mapRepairStat d then [(Reg.mapRepairStat_count, x.repair.length)]
  else []

/-- LNK_SC_CTL, LNK_SC_RX, LNK_TRACK and LNK_COMB (R678). -/
def viewLnk (s : State) (d off : Nat) : List (RF × Nat) :=
  if off < 0x8000 then
    let x := s.port (8 * d + off / 0x1000)
    let o := off % 0x1000
    if o = 0x48 then [(Reg.lnkScCtl_rx_count, x.scRx.length)]
    else if 0x140 ≤ o ∧ o < 0x180 then [(Reg.lnkScRx_bytes, leAt (x.scRx.head?.getD []) (o - 0x140) 8)]
    else []
  else if off = 0x8018 then
    let n := (s.die d).track.length
    [(Reg.lnkTrack_outstanding, n), (Reg.lnkTrack_full, (decide (4096 ≤ n)).toNat)]
  else if 0x10000 ≤ off ∧ off < 0x14000 ∧ off % 16 = 8 then
    let ks := combRound s d ((off - 0x10000) / 16)
    [(Reg.lnkCombHeld_held, ks.length), (Reg.lnkCombHeld_held_mask, bitsOf 8 (fun i => ks.any (fun k => k.index == i)))]
  else []

/-- The oldest position of a descriptor's own shard not yet written (R745). -/
def clrPosition (o : ClrOp) : Nat :=
  match o.nodes.find? (fun n => Route.root n.rec'), o.targets with
  | some n, _ => 4 * n.written
  | none, z :: _ => 4 * z.next
  | none, [] => 4 * o.next

/-- CLR_STATUS and CLR_PROGRESS (R745). -/
def viewClr (s : State) (d a : Nat) : List (RF × Nat) :=
  let x := s.die d
  if a = Reg.clrStatus d then
    [(Reg.clrStatus_in_flight, x.clr.ops.length), (Reg.clrStatus_queue, x.clrQ.length),
     (Reg.clrStatus_halted, x.clr.halted.toNat), (Reg.clrStatus_startup, (updStartup s d).toNat)]
  else if a = Reg.clrProgress d then
    match x.clr.ops with
    | o :: _ =>
      [(Reg.clrProgress_layer_id, clrLayer o.q.desc), (Reg.clrProgress_position, clrPosition o),
       (Reg.clrProgress_waiting, (clrKind o.q.desc == 3 || o.nodes.any (fun n => n.waitAt.isSome || n.waits != [])).toNat)]
    | [] => []
  else []

/-- PRT_STATUS (R609): a row read ends within its command, so none is shown in flight. -/
def viewPrt (s : State) (d a : Nat) : List (RF × Nat) :=
  if a = Reg.prtStatus d then
    let x := s.die d
    let state := match x.prt, x.prtQ with
      | some p, _ => if p.halted then 5 else if p.fails != [] then 4 else 1
      | none, [] => 0
      | none, q :: _ => if !engReady s d 65 q then 2
          else if prtKind q.desc == 1 && ledgerHeld s d q.desc then 3 else 1
    [(Reg.prtStatus_state, state), (Reg.prtStatus_queue, x.prtQ.length)]
  else []

/-! ## Module blocks -/

/-- PWR_STATUS.alert (R930). -/
def pwrAlert (s : State) : Bool :=
  [0, 1].any (fun i => s.g (Reg.pwrFeed i) ⟨32, 3⟩ != 0) || s.rd Reg.pwrSense != 0 || s.on Reg.pwrStatus Reg.pwrStatus_floor

/-- The fields of a module register that other state determines. -/
def viewMod (s : State) (a : Nat) : List (RF × Nat) :=
  if a = Reg.pwrStatus then [(Reg.pwrStatus_alert, (pwrAlert s).toNat)]
  else if a = Reg.mgtStatus then
    [(Reg.mgtStatus_alert, (s.on Reg.mgtStatus Reg.mgtStatus_alert || sensAlert s).toNat)]
  else if a = Reg.mckStatus then [(Reg.mckStatus_clkout_bad, (clkoutBad s s.m.clk.clkout).toNat)]
  else if a = Reg.timeStatus then [(Reg.timeStatus_src, (linkTime s).toNat)]
  else []

/-! ## All registers -/

/-- The fields that state outside the register determines. -/
def viewFlds (s : State) (l : RegLoc) (a : Nat) : List (RF × Nat) :=
  let d := l.d
  let t := l.t
  match l.blk with
  | .fwd => viewFwd s d t a
  | .bwd => viewBwd s d t a
  | .cnv => viewCnv s d t a
  | .wgh => if a = Reg.wghStatus d t then
      [(Reg.wghStatus_startup, (startupOn s d t).toNat), (Reg.wghStatus_armed, (!startupOn s d t).toNat)] else []
  | .seq => viewSeq s d t a
  | .mem => viewMem s d t a
  | .cpy => if 0x100 ≤ l.off ∧ l.off < 0x180 then
      viewChan s (.tile (Fin.ofNat 2 d) (Fin.ofNat 64 t) (Fin.ofNat 2 ((l.off - 0x100) / 0x40))) ((l.off - 0x100) % 0x40)
      else []
  | .gen => if a = Reg.genStatus d t then [(Reg.genStatus_held, bitsOf 8 (shakerHeld s d t))] else []
  | .tly =>
      let u := (l.off - 0x60100) / 8
      if Reg.tlyWaitStat d 0 ≤ a ∧ a < Reg.tlyWaitStat d 64 then
        [(Reg.tlyWaitStat_tally, (unitWait s d u).getD 0), (Reg.tlyWaitStat_waiting, (unitWait s d u).isSome.toNat),
         (Reg.tlyWaitStat_gated, (s.tile d u).gated.toNat)]
      else []
  | .upd => viewUpd s d a
  | .hbm | .tr2 => viewExt s d l.off
  | .map => viewMap s d a
  | .lnk => viewLnk s d l.off
  | .clr => viewClr s d a
  | .prt => viewPrt s d a
  | .dcp => if 0x1000 ≤ l.off ∧ l.off < 0x1400 then
      viewChan s (.die (Fin.ofNat 2 d) (Fin.ofNat 16 ((l.off - 0x1000) / 0x40))) ((l.off - 0x1000) % 0x40)
      else []
  | .pwr | .eth | .sec | .mgt | .mck | .time => viewMod s a
  | .obs | .clk | .dob => []

/-- What a read of the register at an address returns: 0 at a reserved offset, and in reserved bits and WO fields (R6,
R9). -/
def regView (s : State) (a : Nat) : Word :=
  match regLoc a with
  | none => 0
  | some l => if (rowAt l.blk l.off).isSome then withFlds (s.rd a) (viewFlds s l a) else 0

/-- A read of a register: SEC_RAND draws fresh bits (R1050). -/
def State.regRead (s : State) (a : Nat) : State :=
  if a = Reg.secRand then
    let (v, s1) := s.draw
    s1.answer (.word (BitVec.ofNat 64 v))
  else s.answer (.word (regView s a))

end Sys2Proof.Machine
end

