-- ==== Sys2Proof/Machine/RegWrite.lean ====
section
/-! DEFINITION. Writes of registers: every field by its access code (R6, R8 to R10), and what a write of a register with an
effect of its own does, by block. -/

namespace Sys2Proof.Machine

/-! ## Access codes -/

/-- A register word after a write of `v` over `old`, with the encodings in `x` judged: RW and RWS fields take legal
encodings, W1C bits written 1 clear, RO and WO fields keep; and whether an encoding was reserved (R6, R10). -/
def fieldsWrite (old x v : Word) : List FieldRow → Word × Bool
  | [] => (old, false)
  | f :: fs =>
    let (w, bad) := fieldsWrite old x v fs
    match f.acc with
    | .rw | .rws => if legalEnc x f (fld v f.lo f.w) then (setFld w f.lo f.w (fld v f.lo f.w), bad) else (w, true)
    | .w1c => (setFld w f.lo f.w (fld (old &&& ~~~v) f.lo f.w), bad)
    | .ro | .wo => (w, bad)

/-- The word whose encodings are judged: a peak_w is judged beside the cap_w in force after the write (R932). -/
def judged (s : State) (a : Nat) (v : Word) : Word :=
  if a = Reg.pwrCtl then
    let c := fld v 0 12
    if 600 ≤ c ∧ c ≤ 2400 then v else setFld v 0 12 (s.g a Reg.pwrCtl_cap_w)
  else v

/-- A write that acts by the access codes alone; `d` is the die whose DOB block takes the event of R10. -/
def State.plainWrite (s : State) (d a : Nat) (v : Word) : State :=
  let (w, bad) := fieldsWrite (s.rd a) (judged s a v) v (fieldsAt a)
  if bad then (s.wr a w).reserved d else s.wr a w

/-- Whether a field of a written word is 1. -/
def isOne (v : Word) (f : RF) : Bool := fld v f.lo f.w == 1

/-- Act where a condition holds. -/
def State.when (s : State) (c : Bool) (f : State → State) : State := if c then f s else s

/-! ## Tile blocks -/

/-- A write in the SEQ block: SEQ_PC, SEQ_GEN, SEQ_PASS and SEQ_LOOP only while idle or halted (R401); bits [5:0] of
SEQ_PC ignore writes (R402). -/
def State.writeSeq (s : State) (d t a : Nat) (v : Word) : State :=
  if a = Reg.seqCtl d t then (s.plainWrite d a v).when (isOne v Reg.seqCtl_start) (fun s => s.seqStart d t)
  else if a = Reg.seqPc d t ∨ a = Reg.seqGen d t ∨ a = Reg.seqPass d t ∨ a = Reg.seqLoop d t 0 ∨ a = Reg.seqLoop d t 1 then
    if (s.tile d t).run = .running then (s.raise ⟨0x05, 0, 4⟩ (.tile d t)).fail .busy
    else if a = Reg.seqPc d t then s.plainWrite d a (setFld v 0 6 0)
    else if a = Reg.seqPass d t then s.setPass d t (fld v 0 48)
    else s.plainWrite d a v
  else s.plainWrite d a v

/-- A write in the WGH block (R251 to R256). -/
def State.writeWgh (s : State) (d t a : Nat) (v : Word) : State :=
  if a = Reg.wghCtl d t then
    (s.when (isOne v Reg.wghCtl_hist_invalidate) (fun s => s.histClear d t 64)).when (isOne v Reg.wghCtl_chan_clear)
      (fun s => s.chanClear d t)
  else if a = Reg.wghStartup d t then (s.plainWrite d a v).startupEdge d t (startupOn s d t)
  else s.plainWrite d a v

/-- Invalidate the banks of a list that a power write put off: they hold nothing when they leave that state (R429). -/
def State.banksOff (s : State) (d t : Nat) : List Nat → State
  | [] => s
  | b :: bs =>
    (if bankPwr s d t b = 2 then s.invalidate (bankRange d t b).1 (bankRange d t b).2 else s).banksOff d t bs

/-- A write in the MEM block (R415 to R421, R425 to R430, R438). A MEM_BANK_HAND write of mode 0b00 sets the fields of the
next owner while no handover is pending. -/
def State.writeMem (s : State) (d t a : Nat) (v : Word) : State :=
  if a = Reg.memBankPwr d t then (s.plainWrite d a v).banksOff d t (List.range 24)
  else if a = Reg.memPoolPwr d t then (s.plainWrite d a v).banksOff d t [24]
  else if a = Reg.memInvalidate d t then s.invalStart d t v.toNat
  else if Reg.memBankHand d t 0 ≤ a ∧ a ≤ Reg.memBankHand d t 24 then
    let b := (a - Reg.memBankHand d t 0) / 8
    match fld v 0 2 with
    | 0 => if s.on a Reg.memBankHand_pending then s else s.handFields d t b v
    | 3 => s.handCancel d t b v
    | m => s.handWrite d t b m v
  else s.plainWrite d a v

/-- A write of CH_CTL: abort wins over resume (R548). -/
def State.chCtl (s : State) (k : ChanId) (v : Word) : State :=
  if isOne v Reg.cpyChCtl_abort then (s.chHold k).chAbort k else s.when (isOne v Reg.cpyChCtl_resume) (fun s => s.chResume k)

/-- A write in the CPY block (R553). -/
def State.writeCpy (s : State) (d t a : Nat) (v : Word) : State :=
  if a = Reg.cpySwreq d t then s.requests false d t 1 (fld v 0 8)
  else if a = Reg.cpyChCtl d t 0 then s.chCtl (.tile (Fin.ofNat 2 d) (Fin.ofNat 64 t) 0) v
  else if a = Reg.cpyChCtl d t 1 then s.chCtl (.tile (Fin.ofNat 2 d) (Fin.ofNat 64 t) 1) v
  else s.plainWrite d a v

/-- A write in the OBS block (R986, R993, R995, R1013). -/
def State.writeObs (s : State) (d t a : Nat) (v : Word) : State :=
  if a = Reg.obsCtl d t then
    ((s.when (isOne v Reg.obsCtl_clear64) (fun s => s.clear64 (.obs (Fin.ofNat 2 d) (Fin.ofNat 64 t)))).when
      (isOne v Reg.obsCtl_clear32) (fun s => s.clear32 (.obs (Fin.ofNat 2 d) (Fin.ofNat 64 t)))).when
      (isOne v Reg.obsCtl_opc_clear) (fun s => s.opcClear d t)
  else if a = Reg.obsOpcCfg d t then s.opcCfgWrite d t v
  else if a = Reg.obsSample d t then s.when (isOne v Reg.obsSample_go) (fun s => s.sampleGo d t)
  else s.plainWrite d a v

/-- A write in the GEN block (R260, R270). -/
def State.writeGen (s : State) (d t off a : Nat) (v : Word) : State :=
  if 0x100 ≤ off ∧ off < 0x180 then s.genStateWrite d t ((off - 0x100) / 0x10) (decide (off % 0x10 = 8)) v
  else s.plainWrite d a v

/-! ## Die blocks -/

/-- A write in the TLY block: writes of TLY_STATE and TLY_ADD take their place among the bank's operations (R403). -/
def State.writeTly (s : State) (d off a : Nat) (v : Word) : State :=
  if off < 0x40000 then
    s.tallyQueue d (off / 16) (if off % 16 = 0 then .setState (off / 16) v else .setMode (off / 16) v)
  else if off < 0x60000 then
    s.tallyQueue d ((off - 0x40000) / 8) (.add ((off - 0x40000) / 8) (sgn 32 (fld v 0 32)))
  else if a = Reg.tlyCtl d then s.when (isOne v Reg.tlyCtl_clear_all) (fun s => s.tallyClear d)
  else s.plainWrite d a v

/-- A write in the UPD block (R280, R281, R333). -/
def State.writeUpd (s : State) (r : Requester) (d off a : Nat) (v : Word) : State :=
  if a = Reg.updCtl d then (s.plainWrite d a v).when (isOne v Reg.updCtl_queue_clear) (fun s => s.updFlush d)
  else if a = Reg.updSubmit d then s.submit r d 64 a v.toNat
  else if 0x100 ≤ off ∧ off < 0x180 then s.updGenWrite d ((off - 0x100) / 0x10) (decide (off % 0x10 = 8)) v
  else s.plainWrite d a v

/-- A write in the MAP block (R478, R481, R490, R505, R508). -/
def State.writeMap (s : State) (d off a : Nat) (v : Word) : State :=
  if a = Reg.mapRcCfg d then s.rcResize d v
  else if a = Reg.mapRepairStat d then
    (s.plainWrite d a v).when (isOne v Reg.mapRepairStat_pop) (fun s => s.repairPop d)
  else if 0x1000 ≤ off then s.regionWrite d ((off - 0x1000) / 16) (decide (off % 16 = 8)) v
  else s.plainWrite d a v

/-- A write of LNK_PORT_CTL of port `q` (R622, R625, R678). -/
def State.portCtl (s : State) (d q a : Nat) (v : Word) : State :=
  let was := s.on a Reg.lnkPortCtl_enable
  let on := isOne v Reg.lnkPortCtl_enable
  ((s.portEnable q on).plainWrite d a v).when (was && on && isOne v Reg.lnkPortCtl_retrain) (fun s => s.trainStart q)

/-- A write in the LNK block (R672 to R677, R766). -/
def State.writeLnk (s : State) (d off a : Nat) (v : Word) : State :=
  let q := 8 * d + off / 0x1000
  let o := off % 0x1000
  if off < 0x8000 then
    if o = 0 then s.portCtl d q a v
    else if o = 0x48 then
      (s.when (isOne v Reg.lnkScCtl_tx_go) (fun s => s.scTxGo q)).when (isOne v Reg.lnkScCtl_rx_pop) (fun s => s.scRxPop q)
    else if 0x100 ≤ o ∧ o < 0x140 ∧ s.on (Reg.lnkScCtl d (off / 0x1000)) Reg.lnkScCtl_tx_busy then
      (s.portRaise q 5).fail .busy
    else s.plainWrite d a v
  else if a = Reg.lnkHbKick d then s.when (isOne v Reg.lnkHbKick_kick) (fun s => s.hbKick d)
  else if 0x10000 ≤ off ∧ off < 0x14000 then
    if off % 16 = 0 then s.combWrite d ((off - 0x10000) / 16) v else s
  else s.plainWrite d a v

/-- A write in the CLR block: abort wins over resume, as R548 (R743, R745). -/
def State.writeClr (s : State) (r : Requester) (d a : Nat) (v : Word) : State :=
  if a = Reg.clrCtl d then
    let s1 := (s.plainWrite d a v).when (isOne v Reg.clrCtl_queue_clear) (fun s => s.engFlush d 66)
    if isOne v Reg.clrCtl_abort then s1.clrAbort d else s1.when (isOne v Reg.clrCtl_resume) (fun s => s.clrResume d)
  else if a = Reg.clrSubmit d then s.submit r d 66 a v.toNat
  else s.plainWrite d a v

/-- A write in the PRT block: abort wins over resume, as R548 (R604, R609). -/
def State.writePrt (s : State) (r : Requester) (d a : Nat) (v : Word) : State :=
  if a = Reg.prtCtl d then
    let s1 := s.when (isOne v Reg.prtCtl_queue_clear) (fun s => s.engFlush d 65)
    if isOne v Reg.prtCtl_abort then s1.prtAbort d else s1.when (isOne v Reg.prtCtl_resume) (fun s => s.prtResume d)
  else if a = Reg.prtSubmit d then s.submit r d 65 a v.toNat
  else s.plainWrite d a v

/-- A write in the DCP block (R514, R515, R553). -/
def State.writeDcp (s : State) (r : Requester) (d off a : Nat) (v : Word) : State :=
  if a = Reg.dcpSwreq d then s.requests true d 0 9 (fld v 0 8)
  else if a = Reg.dcpSubmit d then s.submit r d 67 a v.toNat
  else if 0x1000 ≤ off ∧ off < 0x1400 ∧ off % 0x40 = 8 then
    s.chCtl (.die (Fin.ofNat 2 d) (Fin.ofNat 16 ((off - 0x1000) / 0x40))) v
  else s.plainWrite d a v

/-- A write in the CLK block (R951 to R955). -/
def State.writeClk (s : State) (d a : Nat) (v : Word) : State :=
  if a = Reg.clkCtl d then (s.plainWrite d a v).when (isOne v Reg.clkCtl_arr_stop) (fun s => s.arrStopWrite d)
  else if a = Reg.clkFreq d then s.freqWrite d v
  else s.plainWrite d a v

/-- A write in the DOB block (R986, R1011, R1012). -/
def State.writeDob (s : State) (r : Requester) (d a : Nat) (v : Word) : State :=
  if a = Reg.dobCtl d then
    ((s.when (isOne v Reg.dobCtl_clear64) (fun s => s.clear64 (.dob (Fin.ofNat 2 d)))).when
      (isOne v Reg.dobCtl_clear32) (fun s => s.clear32 (.dob (Fin.ofNat 2 d)))).when
      (isOne v Reg.dobCtl_snap_go) (fun s => s.snapGo d)
  else if a = Reg.dobRaise d then s.dobRaiseWrite r d v
  else s.plainWrite d a v

/-! ## Module blocks -/

/-- A write in the PWR block (R914, R915). -/
def State.writePwr (s : State) (a : Nat) (v : Word) : State :=
  if a = Reg.pwrTileOn 0 then s.tileOnWrite 0 v
  else if a = Reg.pwrTileOn 1 then s.tileOnWrite 1 v
  else s.plainWrite 0 a v

/-- A write in the ETH block: a port that is disabled goes down (R835, R857). -/
def State.writeEth (s : State) (off a : Nat) (v : Word) : State :=
  let e := off / 0x1000
  if off < 0x8000 ∧ off % 0x1000 = 0x18 then s.sqBell e v
  else if off < 0x8000 ∧ off % 0x1000 = 0 then
    (s.plainWrite 0 a v).when (!isOne v Reg.ethPortCfg_enable) (fun s => s.ethDown e)
  else s.plainWrite 0 a v

/-- A write of MGT_CTL: a cold restart wins over a warm one (R866). -/
def State.mgtCtlWrite (s : State) (v : Word) : State :=
  if isOne v Reg.mgtCtl_cold_restart then s.restartWrite true v
  else s.when (isOne v Reg.mgtCtl_warm_restart) (fun s => s.restartWrite false v)

/-- A write in the SEC, MGT, MCK and TIME blocks (R883 to R885, R939, R961, R965, R966, R1029, R1050). -/
def State.writeMod (s : State) (a : Nat) (v : Word) : State :=
  if a = Reg.secStageCmd then s.stageWrite v
  else if a = Reg.secDbgCtl then s.dbgCtlWrite v
  else if a = Reg.mgtCtl then s.mgtCtlWrite v
  else if a = Reg.mgtFlashCmd then s.flashCmd v
  else if a = Reg.mckRefCfg then (s.plainWrite 0 a v).refUpdate
  else if a = Reg.mckClkout then s.clkoutWrite v
  else if a = Reg.timeStep then s.timeStepWrite v
  else if a = Reg.timeSlew then s.timeSlewWrite v
  else s.plainWrite 0 a v

/-! ## All registers -/

/-- The effect of an accepted write of the register at an address; a reserved offset takes none. -/
def State.regEffect (s : State) (r : Requester) (l : RegLoc) (a : Nat) (v : Word) : State :=
  if (rowAt l.blk l.off).isNone then s else
  match l.blk with
  | .seq => s.writeSeq l.d l.t a v
  | .wgh => s.writeWgh l.d l.t a v
  | .mem => s.writeMem l.d l.t a v
  | .cpy => s.writeCpy l.d l.t a v
  | .obs => s.writeObs l.d l.t a v
  | .gen => s.writeGen l.d l.t l.off a v
  | .tly => s.writeTly l.d l.off a v
  | .upd => s.writeUpd r l.d l.off a v
  | .map => s.writeMap l.d l.off a v
  | .lnk => s.writeLnk l.d l.off a v
  | .clr => s.writeClr r l.d a v
  | .prt => s.writePrt r l.d a v
  | .dcp => s.writeDcp r l.d l.off a v
  | .clk => s.writeClk l.d a v
  | .dob => s.writeDob r l.d a v
  | .pwr => s.writePwr a v
  | .eth => s.writeEth l.off a v
  | .sec | .mgt | .mck | .time => s.writeMod a v
  | .fwd | .bwd | .cnv | .hbm | .tr2 => s.plainWrite l.d a v

/-- A write of the register at an address by a requester. SEQ_CTL.halt takes effect at once, before the ungate that the
access causes (R395, R400). -/
def State.regWrite (s : State) (r : Requester) (l : RegLoc) (a : Nat) (v : Word) : State :=
  if a = Reg.seqCtl l.d l.t ∧ isOne v Reg.seqCtl_halt ∧ (checkAccess s r true a).isNone ∧ !notFurnished s a then
    (((s.plainWrite l.d a v).seqHalt l.d l.t 7).touch a).answer .ack
  else s.regWr r a (fun s1 => s1.regEffect r l a v)

end Sys2Proof.Machine
end

