-- ==== Sys2Proof/Machine/Access.lean ====
section
/-! DEFINITION. Accesses by device address: registers and memory (R4 to R21, R484), and the management UART (R1081,
R1082). -/

namespace Sys2Proof.Machine

/-- An access of `n` bytes to a register: the checks of R484, then R5, then the read, or the write of `v`. -/
def State.regAccess (s : State) (r : Requester) (l : RegLoc) (a n : Nat) (write : Bool) (v : Word) : State :=
  match checkAccess s r write a with
  | some e => (s.refuse r a write e).answer (.error e)
  | none =>
    if a % 8 ≠ 0 ∨ n ≠ 8 then (s.refuse r a write .regAccess).answer (.error .regAccess)
    else if write then s.regWrite r l a v
    else (s.touch a).regRead a

/-- An access of a requester to a device address. -/
def State.access (s : State) (r : Requester) (q : Access) : State :=
  match rgnOf q.addr.toNat with
  | .reg l => s.regAccess r l q.addr.toNat q.bytes q.write (BitVec.ofNat 64 (leNat q.data))
  | _ => s.memAccess r q

/-- Whether an access falls in the register space. -/
def toReg (q : Access) : Bool := (regLoc q.addr.toNat).isSome

/-- REGISTER_WRITE (R5, R6, R10): a write of `n` bytes of `v` at an address. One that is not a register is a memory write. -/
def execRegisterWrite (r : Requester) (a : Addr) (n : Nat) (v : Word) (s : State) : Host.Outcome State Fault Refusal :=
  match rgnOf a.toNat with
  | .reg l => .next (s.regAccess r l a.toNat n true v)
  | _ => .next (s.memAccess r ⟨true, a, 0, leBytes n v.toNat, [], 0⟩)

/-- MEMORY_ACCESS (R484): an access, with one that meets it in the same cycle on the other port of a dual-port bank. -/
def execMemoryAccess (r : Requester) (q : Access) (peer : Option (Requester × Access)) (s : State) :
    Host.Outcome State Fault Refusal :=
  match peer with
  | none => .next (s.access r q)
  | some (r', q') =>
    if toReg q || toReg q' then .next ((s.access r q).access r' q') else .next (s.memAccess2 r q peer)

/-! ## The management UART -/

/-- A reply frame. -/
def uartReply (status : Nat) (data : List Byte) : List Byte :=
  let m := [(0xA5 : Byte), BitVec.ofNat 8 status] ++ padTo 0 8 data
  m ++ [BitVec.ofNat 8 (crc8 m)]

/-- The steward answers a request frame. -/
def State.uart (s : State) (m : List Byte) : State :=
  let op := byteAt m 1
  let send (s : State) (status : Nat) (data : List Byte) : State := s.emit (.uart (uartReply status data))
  if crc8 (m.take 16) ≠ byteAt m 16 ∨ (op ≠ 1 ∧ op ≠ 2) then send s 3 []
  else if op = 2 ∧ pstate s ≠ 0 then send s 2 []
  else
    let a := leAt m 2 6
    let s1 := s.access .steward
      ⟨decide (op = 2), BitVec.ofNat 48 a, 8, if op = 2 then slice m 8 8 else [], [], 0⟩
    match s1.reply with
    | .error _ => send s1 1 []
    | .word w => send s1 0 (leBytes 8 w.toNat)
    | _ => send s1 0 []

/-- UART_REQUEST (R1081, R1082): bytes that are no request frame get no reply. -/
def execUartRequest (m : List Byte) (s : State) : Host.Outcome State Fault Refusal :=
  if s.m.st = .off ∨ m.length ≠ 17 ∨ byteAt m 0 ≠ 0x5A then .next s else .next (s.uart m)

end Sys2Proof.Machine
end

