-- ==== Sys2Proof/Machine/Dispatch.lean ====
section
/-! DEFINITION. What each command does: one arm for each constructor of Instr. -/

namespace Sys2Proof.Machine

def exec (i : Instr) (s : State) : Host.Outcome State Fault Refusal :=
  match i with
  | .registerWrite r a n v => Sys2Proof.Machine.execRegisterWrite r a n v s
  | .memoryAccess r q peer => Sys2Proof.Machine.execMemoryAccess r q peer s
  | .rcFill d a src => Sys2Proof.Machine.execRcFill d a src s
  | .bankWake d t b => Sys2Proof.Machine.execBankWake d t b s
  | .xorLineWrite r a bs => Sys2Proof.Machine.execXorLineWrite r a bs s
  | .patrolRead d c upset overwritten => Sys2Proof.Machine.execPatrolRead d c upset overwritten s
  | .memInitDone d => Sys2Proof.Machine.execMemInitDone d s
  | .seqStart r d t => Sys2Proof.Machine.execSeqStart r d t s
  | .seqHalt r d t => Sys2Proof.Machine.execSeqHalt r d t s
  | .descFetch d t => Sys2Proof.Machine.execDescFetch d t s
  | .fetchReturn d t => Sys2Proof.Machine.execFetchReturn d t s
  | .nopOp d t => Sys2Proof.Machine.execNopOp d t s
  | .fwd d t => Sys2Proof.Machine.execFwd d t s
  | .bwd d t => Sys2Proof.Machine.execBwd d t s
  | .cnv d t => Sys2Proof.Machine.execCnv d t s
  | .cpy0 d t => Sys2Proof.Machine.execCpy0 d t s
  | .cpy1 d t => Sys2Proof.Machine.execCpy1 d t s
  | .upd d t => Sys2Proof.Machine.execUpd d t s
  | .dcp d t => Sys2Proof.Machine.execDcp d t s
  | .prt d t => Sys2Proof.Machine.execPrt d t s
  | .clr d t => Sys2Proof.Machine.execClr d t s
  | .tadd d t => Sys2Proof.Machine.execTadd d t s
  | .tarm d t => Sys2Proof.Machine.execTarm d t s
  | .loopOp d t => Sys2Proof.Machine.execLoopOp d t s
  | .jumpOp d t => Sys2Proof.Machine.execJumpOp d t s
  | .passOp d t => Sys2Proof.Machine.execPassOp d t s
  | .endOp d t => Sys2Proof.Machine.execEndOp d t s
  | .waitMetReport d t => Sys2Proof.Machine.execWaitMetReport d t s
  | .tileGate d t => Sys2Proof.Machine.execTileGate d t s
  | .tileUngate d t => Sys2Proof.Machine.execTileUngate d t s
  | .tlyAdd r d n v => Sys2Proof.Machine.execTlyAdd r d n v s
  | .tallyBankOp d bank => Sys2Proof.Machine.execTallyBankOp d bank s
  | .tlyClearAll r d => Sys2Proof.Machine.execTlyClearAll r d s
  | .fwdFirstPlane d t => Sys2Proof.Machine.execFwdFirstPlane d t s
  | .laneVectorStart d t lane => Sys2Proof.Machine.execLaneVectorStart d t lane s
  | .sideStallRound d t => Sys2Proof.Machine.execSideStallRound d t s
  | .fwdCombine d t => Sys2Proof.Machine.execFwdCombine d t s
  | .fwdDeliver d t => Sys2Proof.Machine.execFwdDeliver d t s
  | .fwdComplete d t => Sys2Proof.Machine.execFwdComplete d t s
  | .bwdFirstOperand d t => Sys2Proof.Machine.execBwdFirstOperand d t s
  | .operandCycle d t => Sys2Proof.Machine.execOperandCycle d t s
  | .drainBegin d t => Sys2Proof.Machine.execDrainBegin d t s
  | .drainRow d t => Sys2Proof.Machine.execDrainRow d t s
  | .bwdComplete d t => Sys2Proof.Machine.execBwdComplete d t s
  | .cnvVector d t => Sys2Proof.Machine.execCnvVector d t s
  | .cnvComplete d t => Sys2Proof.Machine.execCnvComplete d t s
  | .histInvalidate r d t => Sys2Proof.Machine.execHistInvalidate r d t s
  | .chanClear r d t => Sys2Proof.Machine.execChanClear r d t s
  | .genStateWrite r d u g hi v => Sys2Proof.Machine.execGenStateWrite r d u g hi v s
  | .updSubmit r d v => Sys2Proof.Machine.execUpdSubmit r d v s
  | .updQueueClear r d => Sys2Proof.Machine.execUpdQueueClear r d s
  | .updBegin d => Sys2Proof.Machine.execUpdBegin d s
  | .updPrepass d => Sys2Proof.Machine.execUpdPrepass d s
  | .updFirstLane d => Sys2Proof.Machine.execUpdFirstLane d s
  | .updBlockWritten d => Sys2Proof.Machine.execUpdBlockWritten d s
  | .updHeaderWrite d => Sys2Proof.Machine.execUpdHeaderWrite d s
  | .updComplete d => Sys2Proof.Machine.execUpdComplete d s
  | .mirrorStart d => Sys2Proof.Machine.execMirrorStart d s
  | .mirrorRemoteAdd d => Sys2Proof.Machine.execMirrorRemoteAdd d s
  | .dcpSubmit r d v => Sys2Proof.Machine.execDcpSubmit r d v s
  | .cpyCopy c => Sys2Proof.Machine.execCpyCopy c s
  | .cpyFill c => Sys2Proof.Machine.execCpyFill c s
  | .cpyCompare c => Sys2Proof.Machine.execCpyCompare c s
  | .copyBurst c => Sys2Proof.Machine.execCopyBurst c s
  | .paceResume c => Sys2Proof.Machine.execPaceResume c s
  | .cpyRequest l => Sys2Proof.Machine.execCpyRequest l s
  | .swreq r l v => Sys2Proof.Machine.execSwreq r l v s
  | .copyRetry c => Sys2Proof.Machine.execCopyRetry c s
  | .chResume r c => Sys2Proof.Machine.execChResume r c s
  | .chAbort r c => Sys2Proof.Machine.execChAbort r c s
  | .copyComplete c => Sys2Proof.Machine.execCopyComplete c s
  | .prtSubmit r d v => Sys2Proof.Machine.execPrtSubmit r d v s
  | .prtQueueClear r d => Sys2Proof.Machine.execPrtQueueClear r d s
  | .prtGather d => Sys2Proof.Machine.execPrtGather d s
  | .prtScatter d => Sys2Proof.Machine.execPrtScatter d s
  | .prtParityPush d => Sys2Proof.Machine.execPrtParityPush d s
  | .prtShip d => Sys2Proof.Machine.execPrtShip d s
  | .prtBag d => Sys2Proof.Machine.execPrtBag d s
  | .scatterContribution d => Sys2Proof.Machine.execScatterContribution d s
  | .prtRetry d => Sys2Proof.Machine.execPrtRetry d s
  | .prtResume r d => Sys2Proof.Machine.execPrtResume r d s
  | .prtAbort r d => Sys2Proof.Machine.execPrtAbort r d s
  | .prtComplete d => Sys2Proof.Machine.execPrtComplete d s
  | .bankHandNow r d t b v => Sys2Proof.Machine.execBankHandNow r d t b v s
  | .bankHandOnTally r d t b v => Sys2Proof.Machine.execBankHandOnTally r d t b v s
  | .bankHandCancel r d t b => Sys2Proof.Machine.execBankHandCancel r d t b s
  | .handover d t b => Sys2Proof.Machine.execHandover d t b s
  | .memInvalidate r d t v => Sys2Proof.Machine.execMemInvalidate r d t v s
  | .invalidateDone d t v => Sys2Proof.Machine.execInvalidateDone d t v s
  | .mapRegionWrite r d n attr v => Sys2Proof.Machine.execMapRegionWrite r d n attr v s
  | .mapRepairPop r d => Sys2Proof.Machine.execMapRepairPop r d s
  | .mapRcCfgWrite r d v => Sys2Proof.Machine.execMapRcCfgWrite r d v s
  | .rcInvalidateDone d => Sys2Proof.Machine.execRcInvalidateDone d s
  | .portRetrain r p => Sys2Proof.Machine.execPortRetrain r p s
  | .trainingPhaseEnd p res => Sys2Proof.Machine.execTrainingPhaseEnd p res s
  | .portDownRetry p => Sys2Proof.Machine.execPortDownRetry p s
  | .portIdentity p ident => Sys2Proof.Machine.execPortIdentity p ident s
  | .retrainTrigger p timeout => Sys2Proof.Machine.execRetrainTrigger p timeout s
  | .laneErrors p lane errs => Sys2Proof.Machine.execLaneErrors p lane errs s
  | .frameReceive p f => Sys2Proof.Machine.execFrameReceive p f s
  | .packetRoute d k => Sys2Proof.Machine.execPacketRoute d k s
  | .writePkt k => Sys2Proof.Machine.execWritePkt k s
  | .xorWrite k => Sys2Proof.Machine.execXorWrite k s
  | .tallyAdd k => Sys2Proof.Machine.execTallyAdd k s
  | .wghPush k => Sys2Proof.Machine.execWghPush k s
  | .ackPkt k => Sys2Proof.Machine.execAckPkt k s
  | .ackTimeout d n => Sys2Proof.Machine.execAckTimeout d n s
  | .combineF32 d k => Sys2Proof.Machine.execCombineF32 d k s
  | .combineXor d k => Sys2Proof.Machine.execCombineXor d k s
  | .combineFlush d k => Sys2Proof.Machine.execCombineFlush d k s
  | .combStoreFree d => Sys2Proof.Machine.execCombStoreFree d s
  | .lnkCombWrite r d n v => Sys2Proof.Machine.execLnkCombWrite r d n v s
  | .scTxGo r p => Sys2Proof.Machine.execScTxGo r p s
  | .scRxPop r p => Sys2Proof.Machine.execScRxPop r p s
  | .sideChannelReceive p m => Sys2Proof.Machine.execSideChannelReceive p m s
  | .heartbeatSend p => Sys2Proof.Machine.execHeartbeatSend p s
  | .heartbeat p m => Sys2Proof.Machine.execHeartbeat p m s
  | .lnkHbSilent p => Sys2Proof.Machine.execLnkHbSilent p s
  | .lnkWatchdog d => Sys2Proof.Machine.execLnkWatchdog d s
  | .hbKick r d => Sys2Proof.Machine.execHbKick r d s
  | .clrSubmit r d v => Sys2Proof.Machine.execClrSubmit r d v s
  | .clrQueueClear r d => Sys2Proof.Machine.execClrQueueClear r d s
  | .reduce d => Sys2Proof.Machine.execReduce d s
  | .positionSend d nd r => Sys2Proof.Machine.execPositionSend d nd r s
  | .directSlotSend d nd r => Sys2Proof.Machine.execDirectSlotSend d nd r s
  | .slotHeaderWrite d nd r => Sys2Proof.Machine.execSlotHeaderWrite d nd r s
  | .arrivalCheck d nd r => Sys2Proof.Machine.execArrivalCheck d nd r s
  | .nodeRound d k => Sys2Proof.Machine.execNodeRound d k s
  | .clrDeadline d nd r => Sys2Proof.Machine.execClrDeadline d nd r s
  | .clrStallLate d nd r => Sys2Proof.Machine.execClrStallLate d nd r s
  | .creditAbandon d nd r => Sys2Proof.Machine.execCreditAbandon d nd r s
  | .gather d => Sys2Proof.Machine.execGather d s
  | .gatherArrivalAdd d nd r => Sys2Proof.Machine.execGatherArrivalAdd d nd r s
  | .place d => Sys2Proof.Machine.execPlace d s
  | .permute d => Sys2Proof.Machine.execPermute d s
  | .permuteFenceEnd d nd => Sys2Proof.Machine.execPermuteFenceEnd d nd s
  | .permuteArriveEnd d nd => Sys2Proof.Machine.execPermuteArriveEnd d nd s
  | .clrRetry d => Sys2Proof.Machine.execClrRetry d s
  | .clrResume r d => Sys2Proof.Machine.execClrResume r d s
  | .clrAbort r d => Sys2Proof.Machine.execClrAbort r d s
  | .fltSelfFail why => Sys2Proof.Machine.execFltSelfFail why s
  | .suspectSend st => Sys2Proof.Machine.execSuspectSend st s
  | .suspectMsg p m => Sys2Proof.Machine.execSuspectMsg p m s
  | .failMsg p m => Sys2Proof.Machine.execFailMsg p m s
  | .declareMsg p m => Sys2Proof.Machine.execDeclareMsg p m s
  | .declareSettle => Sys2Proof.Machine.execDeclareSettle s
  | .readyMsg p m => Sys2Proof.Machine.execReadyMsg p m s
  | .restoreMsg p m => Sys2Proof.Machine.execRestoreMsg p m s
  | .rebuildDone => Sys2Proof.Machine.execRebuildDone s
  | .doneMsg p m => Sys2Proof.Machine.execDoneMsg p m s
  | .resumeMsg p m => Sys2Proof.Machine.execResumeMsg p m s
  | .stopMsg p m => Sys2Proof.Machine.execStopMsg p m s
  | .recoverTimeout => Sys2Proof.Machine.execRecoverTimeout s
  | .reserveLost => Sys2Proof.Machine.execReserveLost s
  | .fenced => Sys2Proof.Machine.execFenced s
  | .joinMsg p m => Sys2Proof.Machine.execJoinMsg p m s
  | .joinAnswer p m => Sys2Proof.Machine.execJoinAnswer p m s
  | .ethLinkUp e optical => Sys2Proof.Machine.execEthLinkUp e optical s
  | .ethPortDown e => Sys2Proof.Machine.execEthPortDown e s
  | .ethFrameReceive e f => Sys2Proof.Machine.execEthFrameReceive e f s
  | .neighbourAnswer e peer msg => Sys2Proof.Machine.execNeighbourAnswer e peer msg s
  | .ptpEvent e m => Sys2Proof.Machine.execPtpEvent e m s
  | .roceSend e q => Sys2Proof.Machine.execRoceSend e q s
  | .roceWrite e q => Sys2Proof.Machine.execRoceWrite e q s
  | .roceRead e q => Sys2Proof.Machine.execRoceRead e q s
  | .nakInvalidRequest e q => Sys2Proof.Machine.execNakInvalidRequest e q s
  | .roceRetransmit e q => Sys2Proof.Machine.execRoceRetransmit e q s
  | .cnpReceive e q => Sys2Proof.Machine.execCnpReceive e q s
  | .rateRegain e q => Sys2Proof.Machine.execRateRegain e q s
  | .sqBell r e v => Sys2Proof.Machine.execSqBell r e v s
  | .sqEntryComplete e q data => Sys2Proof.Machine.execSqEntryComplete e q data s
  | .statusReq e m => Sys2Proof.Machine.execStatusReq e m s
  | .offer e m => Sys2Proof.Machine.execOffer e m s
  | .startMsg e m => Sys2Proof.Machine.execStartMsg e m s
  | .pitchEnd e m => Sys2Proof.Machine.execPitchEnd e m s
  | .tollGet e m => Sys2Proof.Machine.execTollGet e m s
  | .notAfter => Sys2Proof.Machine.execNotAfter s
  | .pitchNormStop => Sys2Proof.Machine.execPitchNormStop s
  | .checkpointDone => Sys2Proof.Machine.execCheckpointDone s
  | .scrub => Sys2Proof.Machine.execScrub s
  | .scrubEnd => Sys2Proof.Machine.execScrubEnd s
  | .tollCkpt => Sys2Proof.Machine.execTollCkpt s
  | .coldStart ansA ansB => Sys2Proof.Machine.execColdStart ansA ansB s
  | .readyRequest offs => Sys2Proof.Machine.execReadyRequest offs s
  | .wardenLoadDone => Sys2Proof.Machine.execWardenLoadDone s
  | .warmReserveEnter => Sys2Proof.Machine.execWarmReserveEnter s
  | .coldRestart r v => Sys2Proof.Machine.execColdRestart r v s
  | .warmRestart r v => Sys2Proof.Machine.execWarmRestart r v s
  | .trialCommit => Sys2Proof.Machine.execTrialCommit s
  | .flashRead r v => Sys2Proof.Machine.execFlashRead r v s
  | .flashProgram r v => Sys2Proof.Machine.execFlashProgram r v s
  | .flashErase r v => Sys2Proof.Machine.execFlashErase r v s
  | .flashCmdDone ok => Sys2Proof.Machine.execFlashCmdDone ok s
  | .feedLost feed => Sys2Proof.Machine.execFeedLost feed s
  | .feedRestored feed => Sys2Proof.Machine.execFeedRestored feed s
  | .feedReverse feed => Sys2Proof.Machine.execFeedReverse feed s
  | .surge => Sys2Proof.Machine.execSurge s
  | .overvoltage => Sys2Proof.Machine.execOvervoltage s
  | .brownout => Sys2Proof.Machine.execBrownout s
  | .brownoutRecover => Sys2Proof.Machine.execBrownoutRecover s
  | .feedFault feed => Sys2Proof.Machine.execFeedFault feed s
  | .feedReclose feed => Sys2Proof.Machine.execFeedReclose feed s
  | .railFault rail => Sys2Proof.Machine.execRailFault rail s
  | .senseOpen rail => Sys2Proof.Machine.execSenseOpen rail s
  | .shellWatchdog => Sys2Proof.Machine.execShellWatchdog s
  | .managerStep => Sys2Proof.Machine.execManagerStep s
  | .limitFloor => Sys2Proof.Machine.execLimitFloor s
  | .overcurrentTrip => Sys2Proof.Machine.execOvercurrentTrip s
  | .droop d => Sys2Proof.Machine.execDroop d s
  | .droopRelease d => Sys2Proof.Machine.execDroopRelease d s
  | .overtemp d => Sys2Proof.Machine.execOvertemp d s
  | .shutdown => Sys2Proof.Machine.execShutdown s
  | .shutdownRelease => Sys2Proof.Machine.execShutdownRelease s
  | .telemetrySample t => Sys2Proof.Machine.execTelemetrySample t s
  | .pwrTileOnWrite r d v => Sys2Proof.Machine.execPwrTileOnWrite r d v s
  | .freqWindow n => Sys2Proof.Machine.execFreqWindow n s
  | .oscWindow n => Sys2Proof.Machine.execOscWindow n s
  | .pllLock d pll => Sys2Proof.Machine.execPllLock d pll s
  | .pllUnlock d pll => Sys2Proof.Machine.execPllUnlock d pll s
  | .pllSleep d => Sys2Proof.Machine.execPllSleep d s
  | .arrStop r d => Sys2Proof.Machine.execArrStop r d s
  | .clkFreqWrite r d v => Sys2Proof.Machine.execClkFreqWrite r d v s
  | .clkoutWrite r v => Sys2Proof.Machine.execClkoutWrite r v s
  | .timeStep r v => Sys2Proof.Machine.execTimeStep r v s
  | .timeSlew r v => Sys2Proof.Machine.execTimeSlew r v s
  | .timeReqSend => Sys2Proof.Machine.execTimeReqSend s
  | .timeReq p m => Sys2Proof.Machine.execTimeReq p m s
  | .timeResp p m => Sys2Proof.Machine.execTimeResp p m s
  | .timeUnsync => Sys2Proof.Machine.execTimeUnsync s
  | .pcSample d t => Sys2Proof.Machine.execPcSample d t s
  | .clear64 r blk => Sys2Proof.Machine.execClear64 r blk s
  | .clear32 r blk => Sys2Proof.Machine.execClear32 r blk s
  | .opcClear r d t => Sys2Proof.Machine.execOpcClear r d t s
  | .opcCfgWrite r d t v => Sys2Proof.Machine.execOpcCfgWrite r d t v s
  | .sampleGo r d t => Sys2Proof.Machine.execSampleGo r d t s
  | .snapGo r d => Sys2Proof.Machine.execSnapGo r d s
  | .dobRaise r d v => Sys2Proof.Machine.execDobRaise r d v s
  | .stageBegin r v => Sys2Proof.Machine.execStageBegin r v s
  | .stageBlock r v => Sys2Proof.Machine.execStageBlock r v s
  | .stageFinish r v => Sys2Proof.Machine.execStageFinish r v s
  | .stageActivate r v => Sys2Proof.Machine.execStageActivate r v s
  | .stageAbort r v => Sys2Proof.Machine.execStageAbort r v s
  | .stageOpEnd ok => Sys2Proof.Machine.execStageOpEnd ok s
  | .fwStart p m => Sys2Proof.Machine.execFwStart p m s
  | .fwData p m => Sys2Proof.Machine.execFwData p m s
  | .fwAck p m => Sys2Proof.Machine.execFwAck p m s
  | .fwDone p m => Sys2Proof.Machine.execFwDone p m s
  | .hello => Sys2Proof.Machine.execHello s
  | .recoveryBlock m => Sys2Proof.Machine.execRecoveryBlock m s
  | .activate m => Sys2Proof.Machine.execActivate m s
  | .dbgNewChal r => Sys2Proof.Machine.execDbgNewChal r s
  | .dbgCheck r => Sys2Proof.Machine.execDbgCheck r s
  | .dbgPwWrite r => Sys2Proof.Machine.execDbgPwWrite r s
  | .sensorSample x => Sys2Proof.Machine.execSensorSample x s
  | .sensFlowLow => Sys2Proof.Machine.execSensFlowLow s
  | .sensCoolantHot outlet => Sys2Proof.Machine.execSensCoolantHot outlet s
  | .dieBlind d => Sys2Proof.Machine.execDieBlind d s
  | .cablePresent p present => Sys2Proof.Machine.execCablePresent p present s
  | .cagePresent e present highPower => Sys2Proof.Machine.execCagePresent e present highPower s
  | .sensConnPower c => Sys2Proof.Machine.execSensConnPower c s
  | .uartRequest m => Sys2Proof.Machine.execUartRequest m s
  | .i2cRead off n => Sys2Proof.Machine.execI2cRead off n s
  | .alwaysOnOff => Sys2Proof.Machine.execAlwaysOnOff s
  | .jtagInstruction ir => Sys2Proof.Machine.execJtagInstruction ir s
  | .scMessageSent p => Sys2Proof.Machine.execScMessageSent p s

end Sys2Proof.Machine
end

