-- ==== Sys2Proof/Machine/Tick.lean ====
section
/-! DEFINITION. One tick of time: a cycle of the local oscillator, or of the always-on clock while the oscillator is bad
(R963, R966, R849). -/

namespace Sys2Proof.Machine

/-- 1 ns in the unit the time base counts in: 1/25 of 2^-32 ns. -/
def nsUnit : Nat := 2 ^ 32 * 25

/-- The slew of one cycle toward what is left: 5 × 10^-3 ns at most, in 1/200 ns. -/
def slewStep (left : Int) : Int := if 0 < left then 1 else if left < 0 then -1 else 0

/-- What one tick adds to the time base, and the slew left after it. -/
def tickAdd (s : State) : Nat × Int :=
  if oscOk s then
    let k := slewStep s.m.time.slew
    let rate := sgn 32 (s.g Reg.timeRate Reg.timeRate_rate)
    (((10 * nsUnit : Nat) + rate * 25 + 536870912 * k).toNat, s.m.time.slew - k)
  else (125 * nsUnit / 4, s.m.time.slew)

/-- The toll counter of a module state (R849). -/
def tollReg (m : ModState) : Nat :=
  match m with
  | .off | .standby | .ready => Reg.ethTollReady
  | .running => Reg.ethTollRunning
  | .recovery => Reg.ethTollRecovery
  | .draining => Reg.ethTollDraining
  | .warmReserve => Reg.ethTollWarm

/-- One tick: the time base advances, the toll counter of the state takes the nanoseconds that passed, and a written CLKOUT
setting has met its falling edge. -/
def State.tick (s : State) : State :=
  if !aonOn s then s
  else
    let (add, left) := tickAdd s
    let sum := s.g Reg.timeFrac Reg.timeFrac_frac * 25 + s.m.time.rem + add
    let ns := sum / nsUnit
    let s1 := (s.inc64 Reg.timeNow ns).p Reg.timeFrac Reg.timeFrac_frac (sum % nsUnit / 25)
    let s2 := (s1.setTime { s1.m.time with rem := sum % 25 }).setSlew left
    let s3 := if pstate s = 0 then s2 else s2.inc64 (tollReg s.m.st) ns
    s3.clkoutTake

end Sys2Proof.Machine
end

