-- ==== Sys2Proof/WellFormed.lean ====
section
/-! DEFINITION. Which commands a sender can form: the bounds the manual puts on the operands that are plain numbers and
lists. Every other operand is bounded by its type. -/

namespace Sys2Proof

open Sys2Proof.Machine

/-- An error pattern covers an HBM code word of 36 bytes, a tier-2 data line or a tier-2 check line (R447, R453). -/
def Machine.Upset.wf (u : Upset) : Bool := decide (u.pattern.length = 36 ∨ u.pattern.length = 64)

/-- A read asks for at least one byte and carries none; a write carries at least one; neither passes the end of the
address space (R14). -/
def Machine.Access.wf (q : Access) : Bool :=
  (if q.write then decide (q.len = 0 ∧ 0 < q.data.length ∧ q.addr.toNat + q.data.length ≤ 2 ^ 48)
    else decide (0 < q.len ∧ q.data = [] ∧ q.addr.toNat + q.len ≤ 2 ^ 48)) && q.upset.all Upset.wf

/-- A packet's payload has the length its header gives (R636). -/
def Machine.Packet.wf (k : Packet) : Bool := decide (k.payload.length = k.len.toNat)

/-- A frame is 642 bytes, in a code word of at most 15 corrected symbols (R611, R612). -/
def Machine.FrameIn.wf (f : FrameIn) : Bool := decide (f.bytes.length = 642 ∧ f.corrected ≤ 15)

/-- A side-channel message is 64 bytes (R673). -/
def msgWf (m : List Byte) : Bool := decide (m.length = 64)

/-- An IPv4 or IPv6 address. -/
def ipWf (a : List Byte) : Bool := decide (a.length = 4 ∨ a.length = 16)

/-- A pitch message: header, body of up to 4 000 bytes, tag, from an IP address (R836). -/
def Machine.PitchMsg.wf (m : PitchMsg) : Bool := ipWf m.src && decide (64 ≤ m.bytes.length ∧ m.bytes.length ≤ 4064)

/-- A request carries its data: a SEND or a WRITE of its length, a READ none. -/
def Machine.RoceReq.wf (q : RoceReq) : Bool :=
  decide (q.va < 2 ^ 64 ∧ q.key < 2 ^ 32 ∧ q.len < 2 ^ 32 ∧ (q.data.length = q.len ∨ (q.op = 2 ∧ q.data = [])))

/-- Stamps are times of 64 bits (R963). -/
def Machine.PtpMsg.wf : PtpMsg → Bool
  | .sync (some t) | .followUp t | .delayResp t => decide (t < 2 ^ 64)
  | .sync none | .delayReq => true

/-- One reading per sensor: 16 of each die, 16 stacks, 4 of the board (MGT_SENS registers). -/
def Machine.SensorSet.wf (x : SensorSet) : Bool :=
  decide (x.dieA.length = 16 ∧ x.dieB.length = 16 ∧ x.hbm.length = 16 ∧ x.board.length = 4)

/-- The commands a sender can form. -/
def Instr.wf : Instr → Bool
  | .registerWrite _ _ n _ => decide (1 ≤ n ∧ n ≤ 8)
  | .memoryAccess _ q peer => q.wf && (match peer with | some p => p.2.wf | none => true)
  | .rcFill _ a src => (match src with | .demand => true | .runAhead page => decide (page < 2 ^ 27)) && decide (a.toNat % 64 = 0)
  | .xorLineWrite _ a bs => decide (a.toNat % 64 = 0 ∧ bs.length = 64)
  | .patrolRead _ _ u _ => u.all Upset.wf
  | .trainingPhaseEnd _ res => decide (res.lanes.length = 8)
  | .portIdentity _ i => decide (i.length = 32)
  | .laneErrors _ _ n => decide (n < 2 ^ 32)
  | .frameReceive _ f => f.wf
  | .packetRoute _ k => k.wf
  | .writePkt k => k.wf
  | .xorWrite k => k.wf
  | .tallyAdd k => k.wf
  | .wghPush k => k.wf
  | .ackPkt k => k.wf
  | .ackTimeout _ n => decide (n < 2 ^ 32)
  | .combineF32 _ k => k.wf
  | .combineXor _ k => k.wf
  | .combineFlush _ k => k.wf
  | .sideChannelReceive _ m => msgWf m
  | .heartbeat _ m => msgWf m
  | .positionSend _ _ r => decide (r < 2 ^ 16)
  | .directSlotSend _ _ r => decide (r < 2 ^ 16)
  | .slotHeaderWrite _ _ r => decide (r < 2 ^ 16)
  | .arrivalCheck _ _ r => decide (r < 2 ^ 16)
  | .nodeRound _ k => k.wf
  | .clrDeadline _ _ r => decide (r < 2 ^ 16)
  | .clrStallLate _ _ r => decide (r < 2 ^ 16)
  | .creditAbandon _ _ r => decide (r < 2 ^ 16)
  | .gatherArrivalAdd _ _ r => decide (r < 2 ^ 16)
  | .fltSelfFail why => (match why with | .engine _ u => decide (65 ≤ u ∧ u < 83) | _ => true)
  | .suspectSend st => decide (st < 2 ^ 16)
  | .suspectMsg _ m => msgWf m
  | .failMsg _ m => msgWf m
  | .declareMsg _ m => msgWf m
  | .readyMsg _ m => msgWf m
  | .restoreMsg _ m => msgWf m
  | .doneMsg _ m => msgWf m
  | .resumeMsg _ m => msgWf m
  | .stopMsg _ m => msgWf m
  | .joinMsg _ m => msgWf m
  | .joinAnswer _ m => msgWf m
  | .ethFrameReceive _ f => decide (f.bytes < 2 ^ 16)
  | .neighbourAnswer _ peer m => ipWf peer && (match m with | .answer mac => decide (mac.length = 6) | _ => true)
  | .ptpEvent _ m => m.wf
  | .roceSend _ q => q.wf
  | .roceWrite _ q => q.wf
  | .roceRead _ q => q.wf
  | .nakInvalidRequest _ q => q.wf
  | .sqEntryComplete _ _ data => decide (data.length < 2 ^ 31)
  | .statusReq _ m => m.wf
  | .offer _ m => m.wf
  | .startMsg _ m => m.wf
  | .pitchEnd _ m => m.wf
  | .tollGet _ m => m.wf
  | .readyRequest offs => decide (offs.length = 17)
  | .telemetrySample t => decide (t.rails.length = 17)
  | .freqWindow n => decide (n < 2 ^ 32)
  | .oscWindow n => decide (n < 2 ^ 32)
  | .timeReq _ m => msgWf m
  | .timeResp _ m => msgWf m
  | .fwStart _ m => msgWf m
  | .fwData _ m => msgWf m
  | .fwAck _ m => msgWf m
  | .fwDone _ m => msgWf m
  | .recoveryBlock m => decide (m.length ≤ 4118)
  | .activate m => decide (m.length ≤ 4118)
  | .sensorSample x => x.wf
  | .uartRequest m => decide (m.length ≤ 17)
  | .i2cRead _ n => decide (1 ≤ n)
  | .bankWake .. | .memInitDone .. | .seqStart .. | .seqHalt .. | .descFetch .. | .fetchReturn .. | .nopOp ..
  | .fwd .. | .bwd .. | .cnv .. | .cpy0 .. | .cpy1 .. | .upd .. | .dcp .. | .prt .. | .clr .. | .tadd .. | .tarm ..
  | .loopOp .. | .jumpOp .. | .passOp .. | .endOp .. | .waitMetReport .. | .tileGate .. | .tileUngate ..
  | .tlyAdd .. | .tallyBankOp .. | .tlyClearAll .. | .fwdFirstPlane .. | .laneVectorStart .. | .sideStallRound ..
  | .fwdCombine .. | .fwdDeliver .. | .fwdComplete .. | .bwdFirstOperand .. | .operandCycle .. | .drainBegin ..
  | .drainRow .. | .bwdComplete .. | .cnvVector .. | .cnvComplete .. | .histInvalidate .. | .chanClear ..
  | .genStateWrite .. | .updSubmit .. | .updQueueClear .. | .updBegin .. | .updPrepass .. | .updFirstLane ..
  | .updBlockWritten .. | .updHeaderWrite .. | .updComplete .. | .mirrorStart .. | .mirrorRemoteAdd ..
  | .dcpSubmit .. | .cpyCopy .. | .cpyFill .. | .cpyCompare .. | .copyBurst .. | .paceResume .. | .cpyRequest ..
  | .swreq .. | .copyRetry .. | .chResume .. | .chAbort .. | .copyComplete .. | .prtSubmit .. | .prtQueueClear ..
  | .prtGather .. | .prtScatter .. | .prtParityPush .. | .prtShip .. | .prtBag .. | .scatterContribution ..
  | .prtRetry .. | .prtResume .. | .prtAbort .. | .prtComplete .. | .bankHandNow .. | .bankHandOnTally ..
  | .bankHandCancel .. | .handover .. | .memInvalidate .. | .invalidateDone .. | .mapRegionWrite ..
  | .mapRepairPop .. | .mapRcCfgWrite .. | .rcInvalidateDone .. | .portRetrain .. | .portDownRetry ..
  | .retrainTrigger .. | .combStoreFree .. | .lnkCombWrite .. | .scTxGo .. | .scRxPop .. | .heartbeatSend ..
  | .lnkHbSilent .. | .lnkWatchdog .. | .hbKick .. | .clrSubmit .. | .clrQueueClear .. | .reduce .. | .gather ..
  | .place .. | .permute .. | .permuteFenceEnd .. | .permuteArriveEnd .. | .clrRetry .. | .clrResume ..
  | .clrAbort .. | .declareSettle .. | .rebuildDone .. | .recoverTimeout .. | .reserveLost .. | .fenced ..
  | .ethLinkUp .. | .ethPortDown .. | .roceRetransmit .. | .cnpReceive .. | .rateRegain .. | .sqBell ..
  | .notAfter .. | .pitchNormStop .. | .checkpointDone .. | .scrub .. | .scrubEnd .. | .tollCkpt .. | .coldStart ..
  | .wardenLoadDone .. | .warmReserveEnter .. | .coldRestart .. | .warmRestart .. | .trialCommit .. | .flashRead ..
  | .flashProgram .. | .flashErase .. | .flashCmdDone .. | .feedLost .. | .feedRestored .. | .feedReverse ..
  | .surge .. | .overvoltage .. | .brownout .. | .brownoutRecover .. | .feedFault .. | .feedReclose ..
  | .railFault .. | .senseOpen .. | .shellWatchdog .. | .managerStep .. | .limitFloor .. | .overcurrentTrip ..
  | .droop .. | .droopRelease .. | .overtemp .. | .shutdown .. | .shutdownRelease .. | .pwrTileOnWrite ..
  | .pllLock .. | .pllUnlock .. | .pllSleep .. | .arrStop .. | .clkFreqWrite .. | .clkoutWrite .. | .timeStep ..
  | .timeSlew .. | .timeReqSend .. | .timeUnsync .. | .pcSample .. | .clear64 .. | .clear32 .. | .opcClear ..
  | .opcCfgWrite .. | .sampleGo .. | .snapGo .. | .dobRaise .. | .stageBegin .. | .stageBlock .. | .stageFinish ..
  | .stageActivate .. | .stageAbort .. | .stageOpEnd .. | .hello .. | .dbgNewChal .. | .dbgCheck ..
  | .dbgPwWrite .. | .sensFlowLow .. | .sensCoolantHot .. | .dieBlind .. | .cablePresent .. | .cagePresent ..
  | .sensConnPower .. | .alwaysOnOff .. | .jtagInstruction .. | .scMessageSent .. => true

end Sys2Proof
end

