-- ==== Sys2Proof/Safety.lean ====
section
/-! DEFINITION. What a sound state and a sound run are: every sparse part of the state stands in its one canonical form,
and a step neither faults nor refuses, takes one command off the queue, and keeps what was sent. -/

namespace Sys2Proof.Machine

/-- The canonical form of memory: addresses strictly rising, and no byte listed at what an unlisted address reads as. -/
def Memory.wf (m : List Host.Cell) : Bool := SMap.wf (fun _ => (0 : Byte)) m

/-- Every sparse part of the state is in canonical form, so that equal machines are equal data. -/
def State.canon (s : State) : Bool :=
  Memory.wf s.mem && SMap.wf (fun _ => false) s.valid && SMap.wf resetWord s.regs && SMap.wf (fun _ => []) s.flaws &&
    SMap.wf (fun _ => TileS.reset) s.tiles && SMap.wf (fun _ => DieS.reset) s.dies &&
    SMap.wf (fun _ => PortS.reset) s.ports

/-- Every command waiting is one a sender can form. -/
def State.queueWf (s : State) : Bool := s.pending.all Instr.wf

/-- A command runs: it answers a next state. -/
def Runs (c : Instr) (s : State) : Prop := ∃ t, exec c s = .next t

/-- The state a register write acts on once it is accepted: the access ungated a gated tile, and is acknowledged. -/
def State.acked (s : State) (a : Nat) : State := (s.touch a).answer .ack

/-- A register write of a requester passes every check of R484, R881 does not bar it, and `u` is the state it acts on. -/
def Accepted (s : State) (r : Requester) (a : Nat) (u : State) : Prop :=
  checkAccess s r true a = none ∧ notFurnished s a = false ∧ u = s.acked a

/-- A packet of type `typ` reaches its destination whole on die `d` (R639, R640, R646). -/
def Reaches (s : State) (k : Packet) (typ d : Nat) : Prop :=
  k.typ.toNat = typ ∧ isOwn s d k.dst.toNat = true ∧ k.bad = false

/-- A fault message of type `typ` at port `p`, in state 5 or 6, is acted on: it is for this station, or a flood of the own pitch not seen
before, which is sent on first (R772, R773). `u` is the state it acts on. -/
def Heard (s : State) (p : Nat) (m : List Byte) (typ : Nat) (u : State) : Prop :=
  byteAt m 0 = typ ∧ wardensRun s = true ∧ scUp s p = true ∧
    ((fltDst m ≠ 0xFFFF ∧ (fltDst m = servedStation s ∨ fltDst m = ownHome s) ∧ u = s) ∨
     (fltDst m = 0xFFFF ∧ s.m.fault.seen.contains (typ, fltSrc m, fltGen m) = false ∧ fltPitch m = pitchId s ∧
      u = (s.setFault { s.m.fault with seen := s.m.fault.seen ++ [(typ, fltSrc m, fltGen m)] }).sendPorts (some p) m))

/-- A pitch message of type `typ` is accepted at an Ethernet port (R838 to R840); `u` is the state it acts on. -/
def PitchTaken (s : State) (e : Nat) (m : PitchMsg) (typ : Nat) (u : State) : Prop :=
  ethUp s e = true ∧ s.m.sec.recovery = false ∧ s.m.furn.ident ≠ [] ∧ pitchRepeat s m = false ∧ pitchOk s m = true ∧
    m.typ = typ ∧
    u = (s.wr Reg.ethPitchSeq (BitVec.ofNat 64 m.seq)).setPitch { s.m.pitch with tag := m.tag, reply := [] }

/-- A pitch message is answered with a reply of a type and a body, which is kept for a repeat (R839, R841). -/
def State.replied (s : State) (e : Nat) (m : PitchMsg) (typ : Nat) (body : List Byte) : State :=
  let p := s.pitchSend e m.src typ (replyPitch s) body
  p.2.setPitch { p.2.m.pitch with reply := p.1 }

/-- The head of a tile's sequencer is `x`, of opcode `op`, valid and of the sequencer's generation (R345 to R347). -/
def HeadValid (s : State) (d t op : Nat) (x : Desc) : Prop :=
  headDesc s d t = some x ∧ seqActive s d t = true ∧ x.opcode = op ∧ anyBad (headChecks s d t x) = false ∧
    x.gen = s.g (Reg.seqGen d t) Reg.seqGen_gen

/-- The head is valid, past its fence, its wait is met and its unit is free: stage 6 of R352. -/
def HeadIssues (s : State) (d t op : Nat) (x : Desc) : Prop :=
  HeadValid s d t op x ∧ pastFence s d t x = true ∧ (x.waitEn = true → (s.tile d t).waitMet = true) ∧
    resourcesFree s d t x = true

/-- A value is the positive fraction p / q. -/
def XV.isFrac (x : XV) (p q : Nat) : Bool :=
  match x with
  | .fin false n d => decide (0 < d ∧ n * q = p * d)
  | _ => false

/-- A register that keeping a record in a die's log may write: DOB_EVENTS, DOB_LOG_STAT, DOB_LOG_LAST, CNT_LOG_DROP and
the word of die request lines 0 to 7 (R1007 to R1009). -/
def logReg (d a : Nat) : Prop :=
  a = Reg.dobEvents d ∨ a = Reg.dobLogStat d ∨ (Reg.dobLogLast d 0 ≤ a ∧ a < Reg.dobLogLast d 8) ∨ a = Reg.dobCnt32 d 119 ∨
    a = Reg.dcpReq d 0

/-- An address of the ring of 256 records of a die's log (R1007). -/
def inLogRing (s : State) (d a : Nat) : Prop :=
  s.g (Reg.dobLogCtl d) Reg.dobLogCtl_base ≤ a ∧ a < s.g (Reg.dobLogCtl d) Reg.dobLogCtl_base + 16384

/-- From `s` to `t` nothing happened but records of die `d`: every unit, port, queue and register stands as before but
for the registers of the die's log, the flash ring, and the registers `ev`; every byte of memory outside the die's log
ring reads as before. -/
structure Logged (s t : State) (d : Nat) (ev : List Nat) : Prop where
  rd : ∀ a, a ∉ ev → ¬ logReg d a → t.rd a = s.rd a
  ctl : t.rd (Reg.dobLogCtl d) = s.rd (Reg.dobLogCtl d)
  evs : ∀ i, i < 64 → (s.rd (Reg.dobEvents d)).getLsbD i = true → (t.rd (Reg.dobEvents d)).getLsbD i = true
  byte : ∀ a, ¬ inLogRing s d a → t.byte a = s.byte a
  dies : ∀ k, ∃ b, t.die k = { s.die k with logDropped := b }
  mod : ∃ l, t.m = { s.m with flashLog := l }
  tiles : t.tiles = s.tiles
  ports : t.ports = s.ports
  flaws : t.flaws = s.flaws
  loose : t.loose = s.loose
  waiting : t.waiting = s.waiting
  out : t.out = s.out
  free : t.free = s.free
  reply : t.reply = s.reply
  pending : t.pending = s.pending

/-- From `s` to `t` only the module's own part changed: its registers, its sensors, clocks, time, flash and keys. Every
tile, die and port, every register of a die outside die A's log, every waiting access, and every byte of memory
outside die A's log ring stands as before. -/
structure Quiet (s t : State) : Prop where
  rd : ∀ a, a < 0x7F0000000000 → ¬ logReg 0 a → t.rd a = s.rd a
  byte : ∀ a, ¬ inLogRing s 0 a → t.byte a = s.byte a
  dies : ∀ k, ∃ b, t.die k = { s.die k with logDropped := b }
  tiles : t.tiles = s.tiles
  ports : t.ports = s.ports
  flaws : t.flaws = s.flaws
  loose : t.loose = s.loose
  waiting : t.waiting = s.waiting

/-- A step that keeps the machine sound: the canonical form is kept, the queue loses its front command, what was sent
stays sent, and no free value is drawn twice. -/
structure Sound (s t : State) : Prop where
  canon : s.canon = true → t.canon = true
  queue : t.pending = s.pending.tail
  sent : s.out <+: t.out
  drawn : s.free ≤ t.free

end Sys2Proof.Machine
end

