-- ==== Sys2Proof/Certificates/Slice0/Obligations.lean ====
section
/-! DEFINITION. The statements about the model, for the provers. -/

open Sys2Proof Sys2Proof.Machine

/-! ## The queue, the step and the reset state -/

/-- A step with a command at the front of the queue runs that command on the state with the queue's rest. -/
def Obligations.StepRunsTheFrontCommand : Prop :=
  ∀ (c : Instr) (rest : List Instr) (s : State), s.pending = c :: rest →
    step s = exec c { s with pending := rest }

/-- A step with an empty queue is one tick of time (the model's choice: DESIGN CHOICE, log entry 2). -/
def Obligations.EmptyQueueStepIsATick : Prop :=
  ∀ s : State, s.pending = [] → step s = .next s.tick

/-- No command ends a run: every command answers a next state in every state. -/
def Obligations.EveryCommandAnswersANextState : Prop :=
  ∀ (c : Instr) (s : State), ∃ t, exec c s = .next t

/-- Every step from every state answers a state: its queue is the old queue without its front command, everything sent
stays sent, no free value is drawn twice, and the canonical form of every sparse part is kept. -/
def Obligations.EveryStepKeepsTheMachineSound : Prop :=
  ∀ s : State, ∃ t, step s = .next t ∧ Sound s t

/-- The state right after reset is in canonical form, and lists nothing. -/
def Obligations.ResetIsCanonical : Prop :=
  State.reset.canon = true ∧ State.reset.mem = [] ∧ State.reset.pending = [] ∧ State.reset.out = []

/-- The canonical form of memory is kept by every command, in every state that has it. -/
def Obligations.EveryCommandKeepsMemoryCanonical : Prop :=
  ∀ (c : Instr) (s t : State), s.canon = true → exec c s = .next t → Memory.wf t.mem = true ∧ t.canon = true

/-! ## Accesses, the row cache and external memory -/

/-- Where an access of registers or memory, a fill, a wake, an XOR write, a patrol read and the end of initialisation
complete, and with what effect. -/
def Obligations.AccessCommandsComplete : Prop :=
  -- REGISTER_WRITE: an aligned 8-byte write takes the register's effect, any other write of a register is an error (R5)
  (∀ (r : Requester) (a : Addr) (n : Nat) (v : Word) (l : RegLoc) (s : State), rgnOf a.toNat = .reg l →
    checkAccess s r true a.toNat = none →
    exec (.registerWrite r a n v) s =
      if a.toNat % 8 = 0 ∧ n = 8 then .next (s.regWrite r l a.toNat v)
      else .next ((s.refuse r a.toNat true .regAccess).answer (.error .regAccess))) ∧
  -- MEMORY_ACCESS: a lone access that no check refuses and that need not wait is served
  (∀ (r : Requester) (q : Access) (s : State), (∀ l, rgnOf q.addr.toNat ≠ .reg l) → q.upset = [] →
    firstErr s r q.write q.addr.toNat q.bytes ((q.bytes + 63 + q.addr.toNat % 64) / 64) = none → mustWait s q = none →
    exec (.memoryAccess r q none) s = .next (s.serve r q)) ∧
  -- RC_FILL on a miss that waits: the line is read and installed, and the accesses that wait for it are served
  (∀ (d : Die) (a : Addr) (off : Nat) (s : State), rgnOf a.toNat = .tr2 d off → carveGib s d ≠ 0 →
    (pageAttr s d a.toNat).cache = true → s.waiting.any (fun w => w.why == .fill d (rcLine off)) = true →
    exec (.rcFill d a .demand) s =
      .next ((s.rcFill d (rcLine off) 3 (fillLinkBad s d (rcLine off))).2.fillServe d (rcLine off)
        (s.rcFill d (rcLine off) 3 (fillLinkBad s d (rcLine off))).1)) ∧
  -- BANK_WAKE: the bank's field becomes on, it no longer wakes, and the accesses that wait for it go on
  (∀ (d : Die) (t : Tile) (b : BankIx) (s : State), (s.tile d t).waking.contains b.val = true →
    exec (.bankWake d t b) s =
      .next (((s.setTile d t { s.tile d t with waking := (s.tile d t).waking.filter (· != b.val) }).setBankPwr d t b 0).release
        (· == .bank d t b))) ∧
  -- XOR_LINE_WRITE: a whole line, acknowledged, or the error of the check that refuses it
  (∀ (r : Requester) (a : Addr) (bs : List Byte) (s : State), a.toNat % 64 = 0 → bs.length = 64 →
    exec (.xorLineWrite r a bs) s =
      .next ((s.xorLine r a.toNat bs).2.answer
        (match (s.xorLine r a.toNat bs).1 with | none => .ack | some e => .error e))) ∧
  -- PATROL_READ: the line at the position is read, and the position goes to the next line, after the last to 0
  (∀ (d : Die) (c : ExtCtl) (us : List Upset) (w : Bool) (s : State), s.on (Reg.mapCtl d) Reg.mapCtl_scrub_en = true →
    s.dieOn d = true → (s.die d).initDone = true →
    exec (.patrolRead d c us w) s =
      .next (((s.upsets us).patrol d c (s.g (scrubPos d c) ⟨0, 36⟩) w).p (scrubPos d c) ⟨0, 36⟩
        ((s.g (scrubPos d c) ⟨0, 36⟩ + 1) % ctlLines c))) ∧
  -- MEM_INIT_DONE: both tiers of the die hold zeros; phase 7 once both dies have ended
  (∀ (d : Die) (s : State), phase6 s = true → (s.die d).initDone = false → (s.die (1 - d.val)).initDone = false →
    exec (.memInitDone d) s =
      .next (((((s.zeroExt d).setDie d { s.die d with initDone := true }).release (· == .init d)).readyEnter)))

/-! ## The sequencer -/

/-- Where a sequencer starts, halts, fetches, takes a fetch, and where a wait is reported and a tile gates and ungates. -/
def Obligations.SequencerCommandsComplete : Prop :=
  -- SEQ_START: an idle or halted sequencer runs, or halts with cause 4 on a stale generation (R397 to R399)
  (∀ (r : Requester) (d : Die) (t : Tile) (s u : State), Accepted s r (Reg.seqCtl d t) u →
    exec (.seqStart r d t) s = .next (u.seqStart d t)) ∧
  -- SEQ_HALT: the sequencer halts with cause 7 before the access ungates the tile (R395, R400)
  (∀ (r : Requester) (d : Die) (t : Tile) (s u : State), checkAccess s r true (Reg.seqCtl d t) = none →
    notFurnished s (Reg.seqCtl d t) = false → u = (s.seqHalt d t 7).acked (Reg.seqCtl d t) →
    exec (.seqHalt r d t) s = .next u) ∧
  -- DESC_FETCH: the descriptor after those held is read and joins them, not yet arrived
  (∀ (d : Die) (t : Tile) (s : State), mayFetch s d t = true →
    ∃ u, exec (.descFetch d t) s = .next u ∧
      (u.tile d t).fetched = ((s.readLine (.seq d t) (seqPcOf s d t + 64 * (s.tile d t).fetched.length)).2.tile d t).fetched ++
        [⟨(s.readLine (.seq d t) (seqPcOf s d t + 64 * (s.tile d t).fetched.length)).1, false⟩]) ∧
  -- FETCH_RETURN: the oldest outstanding descriptor has arrived
  (∀ (d : Die) (t : Tile) (s : State),
    exec (.fetchReturn d t) s =
      .next ((s.setTile d t { s.tile d t with fetched := markReady (s.tile d t).fetched }).advance d t)) ∧
  -- WAIT_MET_REPORT: the judged wait is reported met
  (∀ (d : Die) (t : Tile) (s : State), (s.tile d t).waitJudged = true → s.arrClk d = true → (s.die d).arrRoot = true →
    (s.tile d t).gated = false →
    exec (.waitMetReport d t) s =
      .next (s.setTile d t { s.tile d t with waitJudged := false, waitMet := true })) ∧
  -- TILE_GATE: with the head's wait registered and nothing in flight the tile gates
  (∀ (d : Die) (t : Tile) (s : State), seqActive s d t = true → (s.tile d t).waitReg.isSome = true →
    (s.tile d t).ops = [] → exec (.tileGate d t) s = .next (s.setTile d t { s.tile d t with gated := true })) ∧
  -- TILE_UNGATE: a gated tile whose wait was judged met ungates
  (∀ (d : Die) (t : Tile) (s : State), (s.tile d t).gated = true → (s.tile d t).waitJudged = true →
    (s.arrayWake d).arrClk d = true → exec (.tileUngate d t) s = .next (s.ungate d t))

/-- A unit descriptor at the head of a sequencer that passes the stages of issue (R352) enters flight at the end of the
operations in flight, as issued, and SEQ_PC goes to the next descriptor. -/
def Obligations.UnitDescriptorsEnterFlight : Prop :=
  ∀ (d : Die) (t : Tile) (x : Desc) (s : State) (c : Instr) (op : Nat),
    (c, op) ∈ [(Instr.fwd d t, 1), (.bwd d t, 2), (.cnv d t, 3), (.cpy0 d t, 4), (.cpy1 d t, 5)] →
    HeadIssues s d t op x →
    ∃ y : Desc, (op ≠ 1 → y = issued x (loopCtr s d t x.idxLoop)) ∧
      exec c s = .next (((s.issueMark d t x).setTile d t { (s.issueMark d t x).tile d t with
        ops := ((s.issueMark d t x).tile d t).ops ++
          [⟨op, (s.issueMark d t x).g (Reg.seqIssued d t) Reg.seqIssued_issued, seqPcOf s d t, y, false⟩] }).popTo d t
        (seqPcOf s d t + 64))

/-- A die-engine descriptor at the head of a sequencer joins the end of its engine's queue, or halts the sequencer with
cause 5 where the queue is full (R281, R359 to R362, R515). -/
def Obligations.EngineDescriptorsJoinTheirQueue : Prop :=
  ∀ (d : Die) (t : Tile) (x : Desc) (s : State) (c : Instr) (op u : Nat),
    (c, op, u) ∈ [(Instr.upd d t, 6, 64), (.prt d t, 8, 65), (.clr d t, 9, 66),
      (.dcp d t, 7, 67 + dcpRoute (s.die d) (issued x (loopCtr s d t x.idxLoop)))] →
    HeadValid s d t op x →
    ∃ q : QDesc, q.desc = issued x (loopCtr s d t x.idxLoop) ∧ q.addr = seqPcOf s d t ∧ q.tile = t.val ∧
      (((s.die d).queue u).length < queueCap u →
        exec c s = .next (((s.engPush d u q).2.issueMark d t x).popTo d t (seqPcOf s d t + 64))) ∧
      (queueCap u ≤ ((s.die d).queue u).length →
        exec c s = .next (((s.engPush d u q).2.seqHalt d t 5).raise ⟨0x05, 0, 2⟩ (.tile d t) { mark := x.mark }))

/-- What the descriptors the sequencer performs itself do when they issue, each followed by its completion add, and where
SEQ_PC goes (R344, R357, R363 to R375). -/
def Obligations.SequencerDescriptorsTakeEffect : Prop :=
  ∀ (d : Die) (t : Tile) (x : Desc) (s : State),
    -- NOP
    (HeadIssues s d t 0 x → exec (.nopOp d t) s =
      .next (((s.issueMark d t x).doneAdd d t x).popTo d t (seqPcOf s d t + 64))) ∧
    -- TADD: up to three adds, in order
    (HeadIssues s d t 0x10 x → exec (.tadd d t) s =
      .next ((((s.issueMark d t x).tadds d t x ([16, 24, 32].take (x.b 40 % 4))).doneAdd d t x).popTo d t
        (seqPcOf s d t + 64))) ∧
    -- TARM: the arm or disarm joins the bank's queue
    (HeadIssues s d t 0x11 x → exec (.tarm d t) s =
      .next ((((s.issueMark d t x).tallyQueue (nfld (x.le 16 2) 14 1) (x.le 16 2 % 2 ^ 14) (tarmOp x)).doneAdd d t x).popTo
        d t (seqPcOf s d t + 64))) ∧
    -- LOOP: back while the count is not reached, with the counter one higher
    (HeadIssues s d t 0x18 x → (loopCtr s d t (x.b 20) + 1) % 2 ^ 32 < x.le 16 4 →
      (s.issueMark d t x).rd (Reg.seqLoop d t (x.b 20 / 2)) = s.rd (Reg.seqLoop d t (x.b 20 / 2)) →
      exec (.loopOp d t) s =
        .next ((((s.issueMark d t x).setLoop d t (x.b 20) (loopCtr s d t (x.b 20) + 1)).doneAdd d t x).popTo d t
          (seqPcOf s d t - x.le 22 2 * 64))) ∧
    -- JUMP: to the target, indexed
    (HeadIssues s d t 0x19 x → exec (.jumpOp d t) s =
      .next (((s.issueMark d t x).doneAdd d t x).popTo d t ((issued x (loopCtr s d t x.idxLoop)).le 16 6))) ∧
    -- PASS: the pass number is set
    (HeadIssues s d t 0x1A x → nbit (x.b 22) 0 = false → exec (.passOp d t) s =
      .next ((((s.issueMark d t x).setPass d t (x.le 16 6)).doneAdd d t x).popTo d t (seqPcOf s d t + 64))) ∧
    -- END: the completion add, and a halt with cause 1
    (HeadIssues s d t 0x1F x → exec (.endOp d t) s =
      .next (((s.issueMark d t x).doneAdd d t x).seqHalt d t 1))

/-- Where the tally commands complete: a TLY_ADD joins the end of its bank's queue, a bank performs its oldest operation,
and a clear joins every bank's queue (R378, R381, R382, R1095). -/
def Obligations.TallyCommandsComplete : Prop :=
  (∀ (r : Requester) (d : Die) (n : TallyIx) (v : Word) (s u : State), Accepted s r (Reg.tlyAdd d n.toNat) u →
    exec (.tlyAdd r d n v) s =
      .next (u.setDie d { u.die d with
        banks := (u.die d).banks.set (n.toNat % 8)
          ((u.die d).banks.getD (n.toNat % 8) [] ++
            [.add n.toNat (sgn 32 (fld v 0 32))]) })) ∧
  (∀ (d : Die) (b : Fin 8) (o : TallyOp) (os : List TallyOp) (s : State), (s.die d).banks.getD b.val [] = o :: os →
    exec (.tallyBankOp d b) s =
      .next ((s.setDie d { s.die d with banks := (s.die d).banks.set b.val os }).tallyPerform d b.val o)) ∧
  (∀ (r : Requester) (d : Die) (s u : State), Accepted s r (Reg.tlyCtl d) u →
    exec (.tlyClearAll r d) s =
      .next (u.setDie d { u.die d with
        banks := (u.die d).banks.map (· ++ [.clear]) }))


/-! ## The forward array, the backward array, the converter and the weighhouse -/

/-- Where the stages of a forward operation complete: its beginning, a lane's next vector, a side-stall round, the
combine, the delivery and the end, each on a tile whose clocks run. -/
def Obligations.ForwardArrayCommandsComplete : Prop :=
  ∀ (d : Die) (t : Tile) (o : OpRec) (f : FwdS) (s : State), fwdOp s d t = some o → s.tileClk d t = true →
    -- FWD_FIRST_PLANE: the operation takes the array, with no vector begun and its window mode fixed (R83, R87 to R91)
    ((s.tile d t).fwd = none →
      ∃ u md top bot, exec (.fwdFirstPlane d t) s = .next u ∧
        (u.tile d t).fwd = some
          { issue := o.issue, mode := md, top := top, bottom := bot,
            planes := effPlanes (startupOn s d t && nfld (o.desc.b 34) 0 2 != 3) (nfld (o.desc.b 35) 0 4 + 1),
            starts := List.replicate 8 0, oldest := 0, vecs := [], sideVec := 0, sideRound := 0, out := [],
            delivered := 0, drew := [] } ∧
        (nfld (o.desc.b 34) 0 2 ≠ 2 → md = nfld (o.desc.b 34) 0 2) ∧
        (nfld (o.desc.b 34) 0 2 = 2 → s.on (Reg.wghSlot d t (nfld (o.desc.b 41) 0 6)) Reg.wghSlot_valid = false →
          md = 1)) ∧
    -- LANE_VECTOR_START: the lane takes its next vector (R101 to R104)
    (∀ lane : Fin 8, (s.tile d t).fwd = some f → f.starts.getD lane.val 0 < o.desc.le 24 2 →
      f.starts.getD lane.val 0 ≤ f.oldest + 3 →
      ∃ u g y, exec (.laneVectorStart d t lane) s = .next u ∧
        (s.getVec d t o f (f.starts.getD lane.val 0)).1.vecs.find? (fun z => z.v == f.starts.getD lane.val 0) = some y ∧
        (u.tile d t).fwd = some g ∧
        g.starts = (s.getVec d t o f (f.starts.getD lane.val 0)).1.starts.set lane.val (f.starts.getD lane.val 0 + 1) ∧
        g.vecs = ((s.getVec d t o f (f.starts.getD lane.val 0)).1.upd (f.starts.getD lane.val 0)
          (fun z => { z with lanes := z.lanes ++ [lane.val] })).vecs) ∧
    -- SIDE_STALL_ROUND: one round of the next vector's side list, or, where its lines are refused, the vector is marked
    -- bad (R117 to R126)
    ((s.tile d t).fwd = some f → nbit (o.desc.b 34) 3 = true → f.sideVec < o.desc.le 24 2 → f.sideVec ≤ f.oldest + 3 →
      ∃ u g, exec (.sideStallRound d t) s = .next u ∧ (u.tile d t).fwd = some g ∧
        ((g.sideVec = f.sideVec + 1 ∧ g.sideRound = 0) ∨
          (g.sideVec = (s.getVec d t o f f.sideVec).1.sideVec ∧
            g.sideRound = (s.getVec d t o f f.sideVec).1.sideRound + 1))) ∧
    -- FWD_COMBINE: the oldest vector's column sums leave the array (R96 to R98, R107, R127)
    (∀ y : FwdVec, (s.tile d t).fwd = some f → f.vecs.find? (fun z => z.v == f.oldest) = some y → 8 ≤ y.lanes.length →
      y.sideDone = true → f.out.length < 2 →
      ∃ u cs, exec (.fwdCombine d t) s = .next u ∧
        (u.tile d t).fwd = some { f with vecs := f.vecs.filter (fun z => z.v != y.v), oldest := f.oldest + 1,
                                         out := f.out ++ [cs] } ∧
        cs.sums = ((if y.side = [] ∨ y.sideBad = true then columnSums s d t o.desc y.xs
          else ((columnSums s d t o.desc y.xs).zip y.side).map (fun p => p.1 + p.2)).map (clampBits 32)) ∧
        cs.bad = (y.bad || y.sideBad || (!nbit (o.desc.b 34) 3 && y.outl)) ∧
        cs.exp = (if y.live = false then sgn 8 (o.desc.b 38)
          else if f.mode = 3 then y.bottom + 8 + sgn 8 (o.desc.b 38) else y.bottom + sgn 8 (o.desc.b 38))) ∧
    -- FWD_DELIVER: the oldest combined vector enters the converter's queue, which holds four (R109, R110, R190)
    (∀ (c : ColSums) (cs : List ColSums), (s.tile d t).fwd = some f → f.out = c :: cs → (s.tile d t).cnvQ.length < 4 →
      exec (.fwdDeliver d t) s = .next (s.setTile d t { s.tile d t with
        cnvQ := (s.tile d t).cnvQ ++ [c], fwd := some { f with out := cs, delivered := f.delivered + 1 } })) ∧
    -- FWD_COMPLETE: every vector is delivered (R111)
    ((s.tile d t).fwd = some f → f.delivered = o.desc.le 24 2 →
      exec (.fwdComplete d t) s = .next ((s.setFwd d t none).opDone d t o.issue))

/-- Where the stages of a backward operation complete on a tile whose clocks run: the first operand cycle, an operand
cycle, the beginning of a drain, a drained row and the end. -/
def Obligations.BackwardArrayCommandsComplete : Prop :=
  ∀ (d : Die) (t : Tile) (s : State), s.tileClk d t = true →
    -- BWD_FIRST_OPERAND: the oldest operation not begun takes the array (R182)
    (∀ o : OpRec, (bwdOps s d t).find? (fun o => !((s.tile d t).bwd.ops.any (fun p => p.issue == o.issue))) = some o →
      (s.tile d t).bwd.cur = none → (s.tile d t).bwd.full.length < 2 →
      exec (.bwdFirstOperand d t) s = .next (s.setBwd d t { (s.tile d t).bwd with
        ops := (s.tile d t).bwd.ops ++ [⟨o.issue, 0, false, false, false, 0, [], []⟩],
        cur := some (BwdSet.fresh o.issue 0) })) ∧
    -- OPERAND_CYCLE: four reduction positions; inside a couch window each cell takes the sum of its four products, and
    -- after the block's last cycle its set is finished and the next block begins (R135 to R145, R149, R150)
    (∀ (c : BwdSet) (o : OpRec), (s.tile d t).bwd.cur = some c → opRec s d t c.issue = some o →
      (s.tile d t).bwd.full.length < 2 →
      ∃ u z, exec (.operandCycle d t) s = .next u ∧ z.cycles = c.cycles + 1 ∧ z.issue = c.issue ∧ z.block = c.block ∧
        (4 * c.cycles % 64 ≠ 0 → z.acc = (List.range 4096).map (fun e => (cellSum (bwdFlush o.desc) (c.acc.getD e 0)
          ((List.range 4).map (fun j => (((s.tile d t).bwd.winA.getD (64 * (e / 64) + 4 * c.cycles % 64 + j) (0, false)).1,
            ((s.tile d t).bwd.winB.getD (64 * (e % 64) + 4 * c.cycles % 64 + j) (0, false)).1)))).1)) ∧
        (if c.cycles + 1 < bwdCycles o.desc then (u.tile d t).bwd.cur = some z
         else (∃ l, (u.tile d t).bwd.full = l ++ [z]) ∧
           (u.tile d t).bwd.cur = (if c.block + 1 < bwdM o.desc * bwdN o.desc
             then some (BwdSet.fresh o.issue (c.block + 1)) else none))) ∧
    -- DRAIN_BEGIN: the oldest finished block is judged; a block that goes to memory drains its own sums (R152, R162 to R181)
    (∀ (c : BwdSet) (cs : List BwdSet) (o : OpRec) (p : BwdOp), (s.tile d t).bwd.drain = none →
      (s.tile d t).bwd.full = c :: cs → opRec s d t c.issue = some o →
      (s.tile d t).bwd.ops.find? (fun q => q.issue == c.issue) = some p →
      ∃ u z, exec (.drainBegin d t) s = .next u ∧ (u.tile d t).bwd.drain = some z ∧ z.set = c ∧ z.row = 0 ∧
        (bwdDest o.desc = false → z.vals = c.acc ∧ z.bad = blockBad c ∧ z.writes = true ∧ z.dirEntry = none)) ∧
    -- DRAIN_ROW: one output row; after the last the set is free (R153, R154)
    (∀ (z : BwdDrain) (o : OpRec) (p : BwdOp), (s.tile d t).bwd.drain = some z → opRec s d t z.set.issue = some o →
      (s.tile d t).bwd.ops.find? (fun q => q.issue == z.set.issue) = some p →
      ∃ u, exec (.drainRow d t) s = .next u ∧
        (u.tile d t).bwd.drain = (if z.row < 63 then some { z with row := z.row + 1 } else none)) ∧
    -- BWD_COMPLETE: every block is drained; an operation to memory is observed in the history (R184, R241)
    (∀ (p : BwdOp) (ps : List BwdOp) (o : OpRec), (s.tile d t).bwd.ops = p :: ps → opRec s d t p.issue = some o →
      bwdM o.desc * bwdN o.desc ≤ p.drained →
      ∃ v, exec (.bwdComplete d t) s =
          .next ((v.setBwd d t { (v.tile d t).bwd with ops := ps }).opDone d t o.issue) ∧
        v = (if bwdDest o.desc = true then s
          else (s.largest p.maxOut).2.observeDx d t (o.desc.le 52 2) (nfld (o.desc.b 48) 0 4)
            (s.largest p.maxOut).1))

/-- Where the converter's vectors and its end complete, and the writes of the history, the channel maxima and the
shakers. -/
def Obligations.ConverterAndWeighhouseCommandsComplete : Prop :=
  (∀ (d : Die) (t : Tile) (o : OpRec) (s : State), cnvOp s d t = some o → s.tileClk d t = true →
    -- CNV_VECTOR of a memory source: the next row is read and converted (R188, R203 to R223)
    (((s.tile d t).cnv.getD (CnvS.fresh o.issue)).next < o.desc.le 24 2 → cnvSrc o.desc = true →
      ∃ p, p = s.readSpan (.tileUnit d t) (o.desc.le 32 6 + ((s.tile d t).cnv.getD (CnvS.fresh o.issue)).next *
          o.desc.le 40 2 * 64) (cnvWidth o.desc * fmtSize (nfld (o.desc.b 48) 0 4)) ∧
        exec (.cnvVector d t) s = .next (p.2.cnvVec d t o ((s.tile d t).cnv.getD (CnvS.fresh o.issue)) false
          (rowValues (nfld (o.desc.b 48) 0 4) p.1 (cnvWidth o.desc)))) ∧
    -- CNV_VECTOR of the input queue: the oldest vector there is taken and converted (R190)
    (∀ (q : ColSums) (qs : List ColSums),
      ((s.tile d t).cnv.getD (CnvS.fresh o.issue)).next < o.desc.le 24 2 → cnvSrc o.desc = false →
      (s.tile d t).cnvQ = q :: qs →
      exec (.cnvVector d t) s = .next ((s.setTile d t { s.tile d t with cnvQ := qs }).cnvVec d t o
        ((s.tile d t).cnv.getD (CnvS.fresh o.issue)) q.bad (sumValues o.desc q))) ∧
    -- CNV_COMPLETE: with the push made and every packet acknowledged, the history fold and the completion (R225 to R238)
    (∀ c : CnvS, (s.tile d t).cnv = some c → o.desc.le 24 2 ≤ c.next → ownerBusy s d (· == .cnv t o.issue) = false →
      (nbit (o.desc.b 48) 4 = true → c.pushed = true) →
      ∃ v, exec (.cnvComplete d t) s = .next ((v.setCnv d t none).opDone d t o.issue) ∧
        v = (if nbit (o.desc.b 47) 7 = true then s.observeQ d t (cnvLayer o.desc) (cnvMean c) else s))) ∧
  -- HIST_INVALIDATE: the 64 history entries lose their valid bits (R251)
  (∀ (r : Requester) (d : Die) (t : Tile) (s u : State), Accepted s r (Reg.wghCtl d t) u →
    exec (.histInvalidate r d t) s = .next (u.histClear d t 64)) ∧
  -- CHAN_CLEAR: the channel maxima are 0 (R233)
  (∀ (r : Requester) (d : Die) (t : Tile) (s u : State), Accepted s r (Reg.wghCtl d t) u →
    exec (.chanClear r d t) s = .next (u.chanClear d t) ∧
      ∀ n < 128, (u.chanClear d t).rd (Reg.wghChan d t n) = resetWord (Reg.wghChan d t n)) ∧
  -- GEN_STATE_WRITE: the half of the shaker's state is written, and an all-zero state sets bit 0 (R260, R270)
  (∀ (r : Requester) (d : Die) (t : Tile) (g : Fin 8) (hi : Bool) (v : Word) (s u : State),
    Accepted s r (if hi then Reg.genStateHi d t g else Reg.genStateLo d t g) u →
    shakerHeld u d t g = false →
    exec (.genStateWrite r d (.tile t) g hi v) s =
      .next (u.shakerWrite (Reg.genStateLo d t g)
        (Reg.genStateHi d t g) hi v)) ∧
  (∀ (r : Requester) (d : Die) (g : Fin 8) (hi : Bool) (v : Word) (s u : State),
    Accepted s r (if hi then Reg.updGenStateHi d g else Reg.updGenStateLo d g) u →
    updShakerHeld u d = false →
    exec (.genStateWrite r d .update g hi v) s =
      .next (u.shakerWrite (Reg.updGenStateLo d g)
        (Reg.updGenStateHi d g) hi v))

/-! ## The update unit -/

/-- Where a write of a die engine's submit register completes: the descriptor is read and joins the engine's queue. -/
def Obligations.SubmitWritesQueueTheDescriptor : Prop :=
  ∀ (r : Requester) (d : Die) (v : Word) (s u w : State) (bs : List Byte) (c : Instr) (n a : Nat),
    (c, n, a) ∈ [(Instr.updSubmit r d v, 64, Reg.updSubmit d), (.prtSubmit r d v, 65, Reg.prtSubmit d),
      (.clrSubmit r d v, 66, Reg.clrSubmit d), (.dcpSubmit r d v, 67, Reg.dcpSubmit d)] →
    Accepted s r a u → v.toNat % 2 ^ 48 % 64 = 0 →
    u.readLine (engReq d n) (v.toNat % 2 ^ 48) = (some bs, w) →
    ((w.die d).queue (if n = 67 then 67 + dcpRoute (w.die d) bs else n)).length <
      queueCap (if n = 67 then 67 + dcpRoute (w.die d) bs else n) →
    exec c s = .next (w.engPush d (if n = 67 then 67 + dcpRoute (w.die d) bs else n)
      ⟨bs, 0, v.toNat % 2 ^ 48, 255⟩).2

/-- Where the stages of an update descriptor complete: the beginning, the prepass, the first lane, a written block or
row, the header, the end, the start and the end of a mirror; and the clearing of the queue. -/
def Obligations.UpdateUnitCommandsComplete : Prop :=
  ∀ (d : Die) (s : State),
    -- UPD_QUEUE_CLEAR: every descriptor not yet begun is discarded (R333)
    (∀ (r : Requester) (u : State), Accepted s r (Reg.updCtl d) u →
      exec (.updQueueClear r d) s = .next (u.updFlush d)) ∧
    -- UPD_BEGIN: the head descriptor with its parameter block, no condition of R1092 and no mirror that holds it back
    (∀ (q : QDesc) (qs : List QDesc) (p : List Byte), (s.die d).updQ = q :: qs → engReady s d 64 q = true →
      s.arrClk d = true → s.on (Reg.updCtl d) Reg.updCtl_hold = false → (s.die d).u.cur = none →
      updDescBad q.desc = false → (s.die d).u.parm = some (some p) → updParmBad q.desc p = false →
      (updMirror q.desc = true → ((s.die d).u.mirrors.filter (mirrorLive s d)).length < 4) →
      (((s.die d).u.mirrors.filter (mirrorLive s d)).any (fun m => parmA m.parm 0x20 == parmA p 0x20)) = false →
      exec (.updBegin d) s = .next (s.updStart d q p)) ∧
    (∀ (q : QDesc) (qs : List QDesc) (p : List Byte) (l : List (Option Byte)) (u w : State), (s.die d).updQ = q :: qs →
      engReady s d 64 q = true → s.arrClk d = true → s.on (Reg.updCtl d) Reg.updCtl_hold = false →
      (s.die d).u.cur = none → updDescBad q.desc = false → (s.die d).u.parm = none →
      s.readSpan (updReq d) (q.desc.le 16 6) 128 = (l, u) → whole l = some p → updParmBad q.desc p = false →
      w = u.setUpd d { (u.die d).u with parm := some (some p) } →
      (updMirror q.desc = true → ((w.die d).u.mirrors.filter (mirrorLive w d)).length < 4) →
      (((w.die d).u.mirrors.filter (mirrorLive w d)).any (fun m => parmA m.parm 0x20 == parmA p 0x20)) = false →
      exec (.updBegin d) s = .next (w.updStart d q p)) ∧
    -- UPD_PREPASS: the learning exponent follows from the largest master magnitude (R299, R300)
    (∀ c : UpdS, (s.die d).u.cur = some c → c.lrExp = none → s.arrClk d = true →
      ∃ z, z = (if updRow c.q.desc = true
          then s.prepassRows d c.q.desc (rowLen c.parm) (updRows s d c.q.desc) 0 (updN c.q.desc)
          else s.prepassBlocks d (c.q.desc.le 28 6) 0 (updN c.q.desc)) ∧
        exec (.updPrepass d) s = .next (((z.2.largest z.1).2.setUpdCur d (some { c with
          lrExp := some (prepassExp (sgn 8 (s.g (Reg.updCfg d) Reg.updCfg_wg_gap)) (z.2.largest z.1).1) })).dcnt d 3
            (520 + updN c.q.desc * 64))) ∧
    -- UPD_FIRST_LANE: the lanes take the first unit (R279)
    (∀ (c : UpdS) (e : Int), (s.die d).u.cur = some c → c.lrExp = some e → s.arrClk d = true →
      exec (.updFirstLane d) s = .next (s.setUpdCur d (some { c with lanes := true }))) ∧
    -- UPD_BLOCK_WRITTEN: the next block, or the next ledger entry of a row descriptor (R287 to R315, R587 to R593)
    (∀ (c : UpdS) (e : Int), (s.die d).u.cur = some c → c.lrExp = some e → s.arrClk d = true → c.lanes = true →
      c.next < updN c.q.desc →
      exec (.updBlockWritten d) s = .next (if updRow c.q.desc = true then s.updEntry d c e
        else (s.updBlock d c e).mirrorNote d c.num (fun m => { m with written := m.written + 1 }))) ∧
    -- UPD_HEADER_WRITE: the shard header follows the last unit; the descriptor waits for its acknowledgement (R316, R332)
    (∀ (c : UpdS) (e : Int), (s.die d).u.cur = some c → c.lrExp = some e → s.arrClk d = true → c.lanes = true →
      updN c.q.desc ≤ c.next →
      ∃ v w : State, exec (.updHeaderWrite d) s = .next (v.mirrorNote d c.num (fun m => { m with hdrDone := true })) ∧
        (v.die d).u.cur = none ∧
        w = (if updRow c.q.desc = true
          then (s.largest c.gmax).2.shardLine d (c.q.desc.le 28 6) (parmA c.parm 0x20) c.hdr
            (newHdr c e (s.largest c.gmax).1)
          else (s.largest c.gmax).2.updWrite d (parmA c.parm 0x20)
            ((newHdr c e (s.largest c.gmax).1).map some)) ∧
        ∃ b, (v.die d).u.fin = (w.die d).u.fin ++ [(c.q, b)]) ∧
    -- UPD_COMPLETE: the oldest descriptor whose header is acknowledged makes its completion add, unless withheld (R317, R1091)
    (∀ (q : QDesc) (b : Bool) (l : List (QDesc × Bool)), (s.die d).u.fin = (q, b) :: l →
      exec (.updComplete d) s = .next (if b = true then s.setUpd d { (s.die d).u with fin := l }
        else (s.setUpd d { (s.die d).u with fin := l }).doneAdd d 64 q.desc)) ∧
    -- MIRROR_START: the oldest mirror not begun, once a block is written (R320)
    (∀ m : MirrorS, (s.die d).u.mirrors.find? (fun m => !m.started) = some m → m.written ≠ 0 →
      exec (.mirrorStart d) s = .next (s.mirrorNote d m.num (fun m => { m with started := true }))) ∧
    -- MIRROR_REMOTE_ADD: one add to the partner's tally, with every line of the mirror acknowledged (R321)
    (∀ m : MirrorS, (s.die d).u.mirrors.find? (fun m => m.ended && !m.bad) = some m →
      exec (.mirrorRemoteAdd d) s = .next ((s.setUpd d { (s.die d).u with
        mirrors := (s.die d).u.mirrors.filter (·.num != m.num) }).addTally d 64
          (2 ^ 31 + nfld (leAt m.parm 0x68 4) 0 31) 1))

/-! ## Copy channels and the porter -/

/-- Where a copy channel begins an operation, makes a burst, pauses and resumes, counts requests, retries, is aborted and
ends. -/
def Obligations.CopyChannelCommandsComplete : Prop :=
  -- CPY_COPY, CPY_FILL, CPY_COMPARE: the issued descriptor of a tile (R511), the head of a die channel's queue (R513, R516)
  (∀ (k : ChanId) (c : Instr) (n : Nat) (s : State),
    (c, n) ∈ [(Instr.cpyCopy k, 0), (.cpyFill k, 1), (.cpyCompare k, 2)] → chan s k = none → chanClk s k = true →
    (∀ (d : Die) (t : Tile) (i : Fin 2) (o : OpRec), k = .tile d t i →
      (s.tile d t).ops.find? (fun o => o.opcode == 4 + i.val) = some o → cpKind o.desc = n →
      exec c s = .next (s.chBegin k ⟨o.desc, o.issue, o.addr, t⟩)) ∧
    (∀ (d : Die) (i : Fin 16) (q : QDesc) (qs : List QDesc), k = .die d i → (s.die d).queue (67 + i.val) = q :: qs →
      engReady s d (67 + i.val) q = true → cpKind q.desc = n → anyBad (cpyChecks q.desc 7) = false →
      exec c s = .next ((s.engPop d (67 + i.val)).chBegin k q))) ∧
  (∀ (k : ChanId) (x : ChS) (s : State), chan s k = some x → chanClk s k = true →
    -- COPY_BURST: at once, on a pending request of the line whose turn it is, or on a tally's level (R527 to R538)
    (x.ready = true →
      (cpPace x.q.desc = 0 → exec (.copyBurst k) s = .next (s.chBurst k x)) ∧
      (cpPace x.q.desc = 1 → linePending s k (cpLine x.q.desc) ≠ 0 → lineTurn s k (cpLine x.q.desc) = true →
        exec (.copyBurst k) s = .next ((s.lineTake k (cpLine x.q.desc)).chBurst k x)) ∧
      (cpPace x.q.desc = 2 → x.paused = false →
        (x.q.desc.b 51 < chLevel s k (cpTally x.q.desc) ∨ x.rest ≤ chLevel s k (cpTally x.q.desc)) →
        exec (.copyBurst k) s =
          .next ((s.tallyQueue k.dn (cpTally x.q.desc) (.level (cpTally x.q.desc) k.key)).chBurst k x)) ∧
      (cpPace x.q.desc = 2 → x.paused = false → chLevel s k (cpTally x.q.desc) ≤ x.q.desc.b 51 →
        chLevel s k (cpTally x.q.desc) < x.rest →
        exec (.copyBurst k) s = .next ((s.setChan k (some { x with paused := true })).chCnt k 2 1))) ∧
    -- PACE_RESUME (R536)
    (x.paused = true → min (x.q.desc.b 50) x.rest ≤ chLevel s k (cpTally x.q.desc) →
      exec (.paceResume k) s = .next (s.setChan k (some { x with paused := false }))) ∧
    -- COPY_RETRY (R542)
    (∀ (f : ChFail) (fs : List ChFail), x.fails = f :: fs → x.halted = false → x.abort = false →
      exec (.copyRetry k) s = .next ((s.chRetried k).chRedo k x f (f.attempts + 1))) ∧
    -- COPY_COMPLETE (R526, R547, R551)
    (x.abort = false → chDone s k x = true → exec (.copyComplete k) s = .next (s.chFinish k x)) ∧
    (x.abort = true → chBusy s k = false → exec (.copyComplete k) s = .next (s.chFinish k x))) ∧
  -- CPY_REQUEST: one more pending request, of at most 255 (R529, R530)
  (∀ (d : Die) (t : Tile) (l : Fin 2) (s : State),
    s.g (Reg.cpyReq d t (l.val / 8)) ⟨8 * (l.val % 8), 8⟩ ≠ 255 →
    exec (.cpyRequest (.tile d t l)) s = .next (s.p (Reg.cpyReq d t (l.val / 8)) ⟨8 * (l.val % 8), 8⟩
      (s.g (Reg.cpyReq d t (l.val / 8)) ⟨8 * (l.val % 8), 8⟩ + 1))) ∧
  (∀ (d : Die) (l : Fin 10) (s : State),
    s.g (Reg.dcpReq d (l.val / 8)) ⟨8 * (l.val % 8), 8⟩ ≠ 255 →
    exec (.cpyRequest (.die d l)) s = .next (s.p (Reg.dcpReq d (l.val / 8)) ⟨8 * (l.val % 8), 8⟩
      (s.g (Reg.dcpReq d (l.val / 8)) ⟨8 * (l.val % 8), 8⟩ + 1))) ∧
  -- SWREQ: as many requests as the value says (R534)
  (∀ (r : Requester) (d : Die) (t : Tile) (v : Word) (s u : State), Accepted s r (Reg.cpySwreq d t) u →
    exec (.swreq r (.tile d t) v) s = .next (u.requests false d t 1 (fld v 0 8))) ∧
  (∀ (r : Requester) (d : Die) (v : Word) (s u : State), Accepted s r (Reg.dcpSwreq d) u →
    exec (.swreq r (.die d) v) s = .next (u.requests true d 0 9 (fld v 0 8))) ∧
  -- CH_RESUME: the failing access of a halted channel is issued again (R546, R550); CH_ABORT (R547, R548)
  (∀ (r : Requester) (k : ChanId) (x : ChS) (f : ChFail) (fs : List ChFail) (s u : State), Accepted s r k.ctl u →
    chan u k = some x → x.halted = true → x.fails = f :: fs →
    exec (.chResume r k) s = .next ((u.p k.err ⟨49, 4⟩ 0).chRedo k x f 1)) ∧
  (∀ (r : Requester) (k : ChanId) (x : ChS) (s u : State), Accepted s r k.ctl u → chan u k = some x →
    chDone u k x = false →
    exec (.chAbort r k) s = .next (if chBusy u k = true
      then u.setChan k (some { x with abort := true, fails := [], halted := false })
      else u.chFinish k { x with abort := true, fails := [], halted := false }))

/-- Where a porter descriptor begins, makes progress, retries, is resumed and aborted, and ends; and the clearing of its
queue. -/
def Obligations.PorterCommandsComplete : Prop :=
  ∀ (d : Die) (s : State),
    -- PRT_QUEUE_CLEAR (R609)
    (∀ (r : Requester) (u : State), Accepted s r (Reg.prtCtl d) u →
      exec (.prtQueueClear r d) s = .next (u.engFlush d 65)) ∧
    -- PRT_GATHER, PRT_SCATTER, PRT_PARITY_PUSH, PRT_SHIP: the head of the queue begins (R565, R576, R584, R600 to R602)
    (∀ (c : Instr) (n : Nat) (q : QDesc) (qs : List QDesc),
      (c, n) ∈ [(Instr.prtGather d, 0), (.prtScatter d, 1), (.prtParityPush d, 2), (.prtShip d, 3)] →
      (s.die d).prtQ = q :: qs → (s.die d).prt = none → s.fabClk d = true → engReady s d 65 q = true →
      prtKind q.desc = n → prtBad q.desc (tableE s d (prtTable q.desc)) = false →
      (n = 1 → ledgerHeld s d q.desc = false) →
      ∃ p : PrtS, p.q = q ∧ p.next = 0 ∧ p.fails = [] ∧ p.halted = false ∧ p.abort = false ∧
        exec c s = .next (if n < 2 then (s.engPop d 65).setPrt d (some p)
          else ((s.engPop d 65).setPrt d (some p)).prtGo d p)) ∧
    -- PRT_BAG, SCATTER_CONTRIBUTION: the next bag, the next index entry (R561 to R573, R576 to R582)
    (∀ p : PrtS, (s.die d).prt = some p → p.fails = [] → p.halted = false → p.abort = false →
      p.next < prtN p.q.desc → s.fabClk d = true →
      (prtKind p.q.desc = 0 → exec (.prtBag d) s = .next (s.prtBag d p)) ∧
      (prtKind p.q.desc = 1 → exec (.scatterContribution d) s = .next (s.scatterNext d p))) ∧
    -- PRT_RETRY, PRT_RESUME (R542, R546, R604)
    (∀ (p : PrtS) (f : EngFail) (fs : List EngFail), (s.die d).prt = some p → p.fails = f :: fs →
      (p.halted = false → s.fabClk d = true →
        exec (.prtRetry d) s = .next (s.prtRedo d p f (f.attempts + 1)))) ∧
    (∀ (r : Requester) (p : PrtS) (f : EngFail) (fs : List EngFail) (u : State), Accepted s r (Reg.prtCtl d) u →
      (u.die d).prt = some p → p.fails = f :: fs → p.halted = true →
      exec (.prtResume r d) s = .next ((u.p (Reg.prtErr d) Reg.prtErr_cause 0).prtRedo d p f 1)) ∧
    -- PRT_ABORT (R547, R604)
    (∀ (r : Requester) (p : PrtS) (u : State), Accepted s r (Reg.prtCtl d) u → (u.die d).prt = some p →
      prtOver p = false →
      exec (.prtAbort r d) s = .next (u.setPrt d
        (if prtBusy u d = true then some { p with abort := true, fails := [], halted := false }
         else none))) ∧
    -- PRT_COMPLETE: every write acknowledged; an aborted descriptor makes no completion add (R605)
    (∀ p : PrtS, (s.die d).prt = some p → prtBusy s d = false →
      (p.abort = true → exec (.prtComplete d) s = .next (s.setPrt d none)) ∧
      (p.abort = false → prtOver p = true →
        exec (.prtComplete d) s = .next ((s.setPrt d none).doneAdd d 65 p.q.desc)))

/-! ## Banks, the address map and the ports' training -/

/-- Where handovers, invalidations and the writes of the address map complete. -/
def Obligations.BankAndMapCommandsComplete : Prop :=
  ∀ (d : Die) (s : State),
    -- BANK_HAND_NOW: the handover is triggered (R415); BANK_HAND_ON_TALLY: it waits, and is judged (R415, R418)
    (∀ (r : Requester) (t : Tile) (b : BankIx) (v : Word) (u w : State), Accepted s r (Reg.memBankHand d t b) u →
      u.on (Reg.memBankHand d t b) Reg.memBankHand_pending = false →
      (w = ((u.handFields d t b v).p (Reg.memBankHand d t b) Reg.memBankHand_mode 1).p (Reg.memBankHand d t b)
          Reg.memBankHand_pending 1 →
        exec (.bankHandNow r d t b v) s =
          .next (w.setDie d { w.die d with trig := (w.die d).trig ++ [(t.val, b.val)] })) ∧
      (w = ((u.handFields d t b v).p (Reg.memBankHand d t b) Reg.memBankHand_mode 2).p (Reg.memBankHand d t b)
          Reg.memBankHand_pending 1 →
        exec (.bankHandOnTally r d t b v) s = .next (w.judge d (fld v 13 14)))) ∧
    -- BANK_HAND_CANCEL: no handover is pending or triggered, and no mode stands (R420)
    (∀ (r : Requester) (t : Tile) (b : BankIx) (u : State), Accepted s r (Reg.memBankHand d t b) u →
      ∃ w, exec (.bankHandCancel r d t b) s = .next w ∧ (w.die d).trig.contains (t.val, b.val) = false ∧
        w.on (Reg.memBankHand d t b) Reg.memBankHand_pending = false) ∧
    -- HANDOVER: the owner fields take the next owner, the handover is over, and no other register changes (R416)
    (∀ (t : Tile) (b : BankIx), (s.die d).trig.contains (t.val, b.val) = true →
      ∃ w, exec (.handover d t b) s = .next w ∧ (w.die d).trig.contains (t.val, b.val) = false ∧
        w.on (Reg.memBankHand d t b) Reg.memBankHand_pending = false ∧
        w.g (Reg.memBankOwn d t b) Reg.memBankOwn_kind = s.g (Reg.memBankHand d t b) Reg.memBankHand_next_kind ∧
        w.g (Reg.memBankOwn d t b) Reg.memBankOwn_id = s.g (Reg.memBankHand d t b) Reg.memBankHand_next_id ∧
        (∀ a, a ≠ Reg.memBankHand d t b → a ≠ Reg.memBankOwn d t b → w.rd a = s.rd a) ∧
        w = { s with regs := w.regs, dies := w.dies }) ∧
    -- MEM_INVALIDATE: the named regions begin to be invalidated; INVALIDATE_DONE: their lines are invalid (R438)
    (∀ (r : Requester) (t : Tile) (v : Word) (u : State), Accepted s r (Reg.memInvalidate d t) u →
      exec (.memInvalidate r d t v) s =
        .next (u.setTile d t { u.tile d t with inval := (u.tile d t).inval ||| v.toNat % 2 ^ 28 })) ∧
    (∀ (t : Tile) (v : Word), (s.tile d t).inval &&& v.toNat ≠ 0 →
      exec (.invalidateDone d t v) s = .next (((s.setTile d t { s.tile d t with
        inval := (s.tile d t).inval ^^^ ((s.tile d t).inval &&& v.toNat) }).invalRegions d t
          (invalBits ((s.tile d t).inval &&& v.toNat))).release (· == .invalidating d t))) ∧
    -- MAP_REGION_WRITE: a range takes its fields; an attribute word takes them, its enable only where the region may
    -- stand (R478, R481)
    (∀ (r : Requester) (n : Fin 256) (v : Word) (u : State), Accepted s r (Reg.mapRegionRange d n) u →
      exec (.mapRegionWrite r d n false v) s =
        .next ((u.p (Reg.mapRegionRange d n) Reg.mapRegionRange_base_page (fld v 0 27)).p (Reg.mapRegionRange d n)
          Reg.mapRegionRange_npages (fld v 32 20))) ∧
    (∀ (r : Requester) (n : Fin 256) (v : Word) (u : State), Accepted s r (Reg.mapRegionAttr d n) u →
      regionBad d (u.g (Reg.mapRegionRange d n) Reg.mapRegionRange_base_page)
        (u.g (Reg.mapRegionRange d n) Reg.mapRegionRange_npages) (fld v 6 1 == 1) = false →
      ∃ w, exec (.mapRegionWrite r d n true v) s = .next w ∧
        w.rd (Reg.mapRegionAttr d n) = setFld (BitVec.ofNat 64 (fld v 0 7)) 0 1 (fld v 0 1)) ∧
    -- MAP_REPAIR_POP: the oldest entry of the repair queue goes (R508)
    (∀ (r : Requester) (u : State), Accepted s r (Reg.mapRepairStat d) u →
      exec (.mapRepairPop r d) s = .next (u.setDie d { u.die d with repair := (u.die d).repair.tail })) ∧
    -- MAP_RC_CFG_WRITE: the carve takes its size and its tags are being invalidated; RC_INVALIDATE_DONE (R490, R505)
    (∀ (r : Requester) (v : Word) (u : State), Accepted s r (Reg.mapRcCfg d) u →
      exec (.mapRcCfgWrite r d v) s = .next (u.rcResize d v)) ∧
    ((s.die d).rcInvalid = true →
      exec (.rcInvalidateDone d) s = .next (s.setDie d { s.die d with rcInvalid := false }))

/-- Where the training of a port begins, goes on and ends. -/
def Obligations.PortTrainingCommandsComplete : Prop :=
  ∀ (p : Port) (s : State),
    -- PORT_RETRAIN (R622)
    (∀ (r : Requester) (u : State), Accepted s r (Reg.lnkPortCtl (portDie p) (portLoc p)) u →
      u.on (Reg.lnkPortCtl (portDie p) (portLoc p)) Reg.lnkPortCtl_enable = true →
      exec (.portRetrain r p) s = .next (u.trainStart p)) ∧
    -- TRAINING_PHASE_END: Detect notes the lanes without a signal and with a DC fault; Adapt; lane identification (R622 to R627)
    (∀ res : TrainResult, lnkClk s (portDie p) = true →
      (s.portState p = 1 → ∃ o h, exec (.trainingPhaseEnd p res) s =
        .next ((s.setPort p { s.port p with link := { (s.port p).link with openLanes := o, shortLanes := h } }).setPortState
          p 2)) ∧
      (s.portState p = 2 → exec (.trainingPhaseEnd p res) s = .next (s.setPortState p 3)) ∧
      (s.portState p = 3 → exec (.trainingPhaseEnd p res) s = .next (s.laneIdent p res))) ∧
    -- PORT_DOWN_RETRY: one second after the port went down (R627)
    (s.portState p = 0 → lnkClk s (portDie p) = true →
      s.on (Reg.lnkPortCtl (portDie p) (portLoc p)) Reg.lnkPortCtl_enable = true →
      (s.port p).link.downAt + 1000000000 ≤ s.now → exec (.portDownRetry p) s = .next (s.trainStart p)) ∧
    -- PORT_IDENTITY: the expected peer brings the port up; another stops it in state 6 (R631 to R633, R808)
    (∀ ident : List Byte, s.portState p = 4 →
      s.on (Reg.lnkPortExpect (portDie p) (portLoc p)) Reg.lnkPortExpect_valid = true →
      (s.g (Reg.lnkPortExpect (portDie p) (portLoc p)) Reg.lnkPortExpect_expect_station = leAt ident 0 2 →
        s.g (Reg.lnkPortExpect (portDie p) (portLoc p)) Reg.lnkPortExpect_expect_port = byteAt ident 2 →
        exec (.portIdentity p ident) s = .next ((s.portUp p).joinSend p)) ∧
      (s.g (Reg.lnkPortExpect (portDie p) (portLoc p)) Reg.lnkPortExpect_expect_station ≠ leAt ident 0 2 →
        ∃ v w : State, exec (.portIdentity p ident) s = .next (w.scPump p ((w.port p).scq.length + 1)) ∧
          w = (v.setPortState p 6).portRaise p 3 ∧
          v.rd (Reg.lnkPortPeerHi (portDie p) (portLoc p)) = BitVec.ofNat 64 (leAt ident 12 8))) ∧
    -- LANE_ERRORS above lane_err_max: the lane is noted dead, with cause 4, and the port retrains (R629)
    (∀ (lane : Fin 8) (errs : Nat) (v : State), s.portState p = 5 →
      s.g (Reg.lnkPortErrCfg (portDie p) (portLoc p)) Reg.lnkPortErrCfg_lane_err_max < errs →
      v = s.setPort p { s.port p with link := { (s.port p).link with errLanes := (s.port p).link.errLanes ||| 2 ^ lane.val } } →
      exec (.laneErrors p lane errs) s =
        .next ((v.p (Reg.lnkPortLanes (portDie p) (portLoc p)) (Reg.lnkPortLanes_cause lane) 4).trainStart p)) ∧
    -- RETRAIN_TRIGGER: 20 µs without a frame, or replay_max consecutive replays (R621)
    (s.portState p = 5 → (s.port p).link.lastRx + 20000 ≤ s.now →
      exec (.retrainTrigger p true) s = .next (s.trainStart p)) ∧
    (s.portState p = 5 →
      s.g (Reg.lnkPortErrCfg (portDie p) (portLoc p)) Reg.lnkPortErrCfg_replay_max ≤ (s.port p).replays →
      exec (.retrainTrigger p false) s = .next (s.trainStart p))

/-! ## The link: frames, packets, combining, the side channel and heartbeats -/

/-- Where frames and packets complete. -/
def Obligations.FrameAndPacketCommandsComplete : Prop :=
  -- FRAME_RECEIVE: a whole frame whose code words and CRC are good is accepted; its corrected symbols are counted
  (∀ (p : Port) (f : FrameIn) (s : State), (s.portState p = 5 ∨ s.portState p = 6) → f.bytes.length = 642 →
    f.fecOk = true → crc32c (f.bytes.take 638) = leAt f.bytes 638 4 →
    exec (.frameReceive p f) s =
      .next ((s.dcnt (portDie p) (80 + 5 * portLoc p + 3) f.corrected).rxFrame p f.bytes)) ∧
  -- PACKET_ROUTE: a packet for this module is delivered here; another is sent on (R645 to R652)
  (∀ (d : Die) (k : Packet) (s : State), k.bad = false → isOwn s d k.dst.toNat = true →
    exec (.packetRoute d k) s = .next (s.emit (.deliver k))) ∧
  (∀ (d : Die) (k : Packet) (s u : State), k.bad = false → isOwn s d k.dst.toNat = false →
    s.forward d k = (none, u) → exec (.packetRoute d k) s = .next u) ∧
  -- WRITE and XOR_WRITE: the payload is written, and the packet acknowledged with status 0 (R595, R598, R640)
  (∀ (k : Packet) (s u : State), Reaches s k 1 (addrDie k.addr.toNat) →
    s.writeSpan (.link (Fin.ofNat 2 (addrDie k.addr.toNat))) k.addr.toNat k.payload = (none, u) →
    exec (.writePkt k) s = .next (u.ackIt (addrDie k.addr.toNat) k none)) ∧
  (∀ (k : Packet) (s u : State), Reaches s k 3 (addrDie k.addr.toNat) →
    s.xorLines (addrDie k.addr.toNat) k.addr.toNat (k.src.toNat % 8) (chunks 64 64 k.payload) = (none, u) →
    exec (.xorWrite k) s = .next (u.ackIt (addrDie k.addr.toNat) k none)) ∧
  -- TALLY_ADD: the amount joins the bank's queue (R378, R646)
  (∀ (k : Packet) (s : State), Reaches s k 4 (nfld k.addr.toNat 14 1) →
    exec (.tallyAdd k) s = .next ((s.tallyQueue (nfld k.addr.toNat 14 1) (nfld k.addr.toNat 0 14)
      (.add (nfld k.addr.toNat 0 14) (sgn 32 k.ext.toNat))).ackIt (nfld k.addr.toNat 14 1) k none)) ∧
  -- WGH_PUSH: the slot of a tile whose domain is on takes the push (R225 to R228)
  (∀ (k : Packet) (s : State), Reaches s k 5 (nfld k.addr.toNat 6 1) →
    s.tileOn (nfld k.addr.toNat 6 1) (nfld k.addr.toNat 0 6) = true →
    exec (.wghPush k) s = .next ((s.slotPush (nfld k.addr.toNat 6 1) (nfld k.addr.toNat 0 6) (nfld k.addr.toNat 8 6)
      (leAt k.payload 4 2) (leAt k.payload 0 4) (nbit (byteAt k.payload 6) 0)).ackIt (nfld k.addr.toNat 6 1) k none)) ∧
  -- ACK: the tracked packet of its tag is released, and its source unit takes the status (R643, R644)
  (∀ (k : Packet) (x : Track) (s : State), k.typ = 2 → isOwn s (k.unit.toNat % 2) k.dst.toNat = true →
    k.bad = false → tracked s (k.unit.toNat % 2) k.tag.toNat = some x →
    exec (.ackPkt k) s = .next ((s.untrack (k.unit.toNat % 2) x.tag).ownerTakes (k.unit.toNat % 2) x
      (nfld k.ext.toNat 0 4) (nfld k.ext.toNat 4 4))) ∧
  -- ACK_TIMEOUT: a tracked packet without its ACK in time is released as lost, with the timeout's event (R642)
  (∀ (d : Die) (n : Nat) (x : Track) (s : State), tracked s d n = some x →
    x.sent + 1000 * s.g (Reg.lnkCfg d) Reg.lnkCfg_ack_timeout_us ≤ s.now →
    exec (.ackTimeout d n) s =
      .next ((((s.dbrk d 115 1).raise ⟨0x15, 0, 2⟩ (.die d)).untrack d n).ownerTakes d x 4 0))

/-- Where combining and the side channel complete, and the heartbeats. -/
def Obligations.CombineAndSideChannelCommandsComplete : Prop :=
  -- COMBINE_F32 and COMBINE_XOR: a contribution joins its round, which is emitted once it is whole (R663 to R667)
  (∀ (d : Die) (k : Packet) (c : Instr) (typ : Nat) (s u : State),
    (c, typ) ∈ [(Instr.combineF32 d k, 0x10), (.combineXor d k, 0x11)] → Reaches s k typ d →
    (combE s d (k.tag.toNat % 1024)).valid = true → (combE s d (k.tag.toNat % 1024)).tag = k.tag.toNat / 1024 →
    (combRound s d (k.tag.toNat % 1024)).any (fun m => m.index == k.index) = false → combPieces s d < 2048 →
    u = s.setDie d { s.die d with comb := { (s.die d).comb with
      held := (s.die d).comb.held ++ [(k.tag.toNat % 1024, k)] } } →
    exec c s = .next (if (combE s d (k.tag.toNat % 1024)).fanIn ≤ (combRound u d (k.tag.toNat % 1024)).length
      then u.combEmit d (k.tag.toNat % 1024) else u)) ∧
  -- COMBINE_FLUSH: what the round holds is emitted (R669)
  (∀ (d : Die) (k : Packet) (s : State), Reaches s k 0x12 d → (combE s d (k.tag.toNat % 1024)).valid = true →
    (combE s d (k.tag.toNat % 1024)).tag = k.tag.toNat / 1024 → combRound s d (k.tag.toNat % 1024) ≠ [] →
    exec (.combineFlush d k) s = .next (s.combEmit d (k.tag.toNat % 1024))) ∧
  -- COMB_STORE_FREE: the oldest waiting contribution takes the free piece (R671)
  (∀ (d : Die) (k : Packet) (ks : List Packet) (s : State), (s.die d).comb.waits = k :: ks → combPieces s d < 2048 →
    exec (.combStoreFree d) s = .next ((s.setDie d { s.die d with comb := { (s.die d).comb with waits := ks } }).combAdd
      d k)) ∧
  -- LNK_COMB_WRITE: an entry that holds nothing takes its 30 bits (R672)
  (∀ (r : Requester) (d : Die) (n : Fin 1024) (v : Word) (s u : State), Accepted s r (Reg.lnkComb d n) u →
    combRound u d n = [] →
    exec (.lnkCombWrite r d n v) s = .next (u.wr (Reg.lnkComb d n) (BitVec.ofNat 64 (v.toNat % 2 ^ 30)))) ∧
  -- SC_TX_GO: the message in LNK_SC_TX is sent, and tx_busy stands (R673, R674); SC_RX_POP: the oldest received goes (R676)
  (∀ (r : Requester) (p : Port) (s u : State), Accepted s r (Reg.lnkScCtl (portDie p) (portLoc p)) u →
    (u.on (Reg.lnkScCtl (portDie p) (portLoc p)) Reg.lnkScCtl_tx_busy = false →
      exec (.scTxGo r p) s = .next ((u.p (Reg.lnkScCtl (portDie p) (portLoc p)) Reg.lnkScCtl_tx_busy 1).scSend p
        ((List.range 8).flatMap (fun j => leBytes 8 (u.rd (Reg.lnkScTx (portDie p) (portLoc p) j)).toNat)))) ∧
    exec (.scRxPop r p) s = .next (u.setPort p { u.port p with scRx := (u.port p).scRx.tail })) ∧
  -- SIDE_CHANNEL_RECEIVE: a message of a type no command takes joins the port's queue of 16 (R676)
  (∀ (p : Port) (m : List Byte) (s : State), scUp s p = true → byteAt m 0 ∉ [1, 2, 0x10] → ¬ (0x11 ≤ byteAt m 0 ∧ byteAt m 0 ≤ 0x1A) →
    (s.port p).scRx.length < 16 →
    exec (.sideChannelReceive p m) s =
      .next (s.setPort p { s.port p with scRx := (s.port p).scRx ++ [padTo 0 64 m] })) ∧
  -- HEARTBEAT_SEND: hb_us after the last one, with the station, the home, the state and the generation (R763, R764)
  (∀ (p : Port) (s : State), scUp s p = true →
    (s.port p).link.hbSent + 1000 * s.g (Reg.lnkHbCfg (portDie p)) Reg.lnkHbCfg_hb_us ≤ s.now →
    exec (.heartbeatSend p) s =
      .next ((s.setPort p { s.port p with link := { (s.port p).link with hbSent := s.now } }).scSend p (scMsg 0x10
        (leBytes 2 (s.g (Reg.lnkStation (portDie p)) Reg.lnkStation_station) ++
          leBytes 2 (s.g (Reg.lnkStation (portDie p)) Reg.lnkStation_home) ++ leBytes 1 p.val ++
          leBytes 1 (s.g (Reg.lnkFltStatus (portDie p)) Reg.lnkFltStatus_alive +
            2 * s.g (Reg.lnkStateGen (portDie p)) Reg.lnkStateGen_state) ++
          leBytes 4 (s.g (Reg.lnkStateGen (portDie p)) Reg.lnkStateGen_gen) ++ leBytes 4 0)))) ∧
  -- HEARTBEAT of an alive peer of the same generation: LNK_PORT_HB takes it, and the port is not silent (R765, R767)
  (∀ (p : Port) (m : List Byte) (s : State), scUp s p = true → byteAt m 0 = 0x10 → nfld (byteAt m 7) 0 1 = 1 →
    leAt m 8 4 = s.g (Reg.lnkStateGen (portDie p)) Reg.lnkStateGen_gen →
    ∃ u, exec (.heartbeat p m) s = .next u ∧ (u.port p).link.hbAt = s.now ∧
      u.g (Reg.lnkFltStatus (portDie p)) ⟨portLoc p, 1⟩ = 0) ∧
  -- LNK_HB_SILENT: miss × hb_us without a heartbeat (R767)
  (∀ (p : Port) (s : State), s.dieOn (portDie p) = true →
    ((s.port p).link.hbAt + 1000 * (s.g (Reg.lnkHbCfg (portDie p)) Reg.lnkHbCfg_miss *
      s.g (Reg.lnkHbCfg (portDie p)) Reg.lnkHbCfg_hb_us) ≤ s.now) →
    (s.rd (Reg.lnkFltStatus (portDie p))).getLsbD (portLoc p) = false →
    exec (.lnkHbSilent p) s =
      .next ((((s.p (Reg.lnkFltStatus (portDie p)) ⟨portLoc p, 1⟩ 1).setPort p { s.port p with
        link := { (s.port p).link with silentAt := s.now } }).dbrk (portDie p) (72 + 5 * portLoc p + 4) 1).raise
          ⟨0x15, 2, portLoc p⟩ (.die (portDie p)))) ∧
  -- LNK_WATCHDOG: wd_ms without a kick clears alive (R766); HB_KICK sets it and restarts the time
  (∀ (d : Die) (s : State), s.on (Reg.lnkFltStatus d) Reg.lnkFltStatus_alive = true →
    (s.die d).kickAt + 1000000 * s.g (Reg.lnkHbCfg d) Reg.lnkHbCfg_wd_ms ≤ s.now →
    exec (.lnkWatchdog d) s = .next ((s.p (Reg.lnkFltStatus d) Reg.lnkFltStatus_alive 0).raise ⟨0x15, 2, 16⟩ (.die d))) ∧
  (∀ (r : Requester) (d : Die) (s u : State), Accepted s r (Reg.lnkHbKick d) u →
    exec (.hbKick r d) s =
      .next ((u.setDie d { u.die d with kickAt := u.now }).p (Reg.lnkFltStatus d) Reg.lnkFltStatus_alive 1))

/-! ## The clearing engine -/

/-- Where clearing descriptors begin, go on, retry, are resumed and aborted, and end. -/
def Obligations.ClearingCommandsComplete : Prop :=
  ∀ (d : Die) (s : State),
    -- CLR_QUEUE_CLEAR (R745)
    (∀ (r : Requester) (u : State), Accepted s r (Reg.clrCtl d) u →
      exec (.clrQueueClear r d) s = .next (u.engFlush d 66)) ∧
    -- REDUCE, GATHER, PLACE, PERMUTE: the head of the queue begins (R682, R724, R732, R733)
    (∀ (c : Instr) (n : Nat) (q : QDesc) (qs : List QDesc),
      (c, n) ∈ [(Instr.reduce d, 0), (.gather d, 1), (.place d, 2), (.permute d, 3)] → (s.die d).clrQ = q :: qs →
      clrFree s d = true → s.on (Reg.clrCtl d) Reg.clrCtl_hold = false → (s.die d).clr.ops.length < 4 →
      engReady s d 66 q = true → clrKind q.desc = n → clrBad s d q.desc = false →
      (n = 0 → epochLag s d (clrEp q.desc) = 0) → (n ≠ 3 → clrThinned q.desc = false) →
      exec c s = .next (s.clrStart d q)) ∧
    (∀ (i : Fin 4) (o : ClrOp), clrAt s d i = some o →
      -- POSITION_SEND, CREDIT_ABANDON (R689, R691, R695, R696, R699)
      (∀ (r : Nat) (n : ClrNode), o.node r = some n → n.ended = false →
        exec (.positionSend d i r) s = .next ((s.position d o n).reduceSettle d o.num)) ∧
      (∀ (r t p : Nat) (k : Packet) (ws : List (Nat × Packet)) (n : ClrNode), o.node r = some n → n.waitAt = some t →
        n.ended = false → n.waits = (p, k) :: ws → mayUp s o.q.desc n p = false →
        t + 1000 * s.g (Reg.clrCfg d) Reg.clrCfg_stall_us ≤ s.now →
        exec (.creditAbandon d i r) s = .next (((s.putOp d (o.setNode { n with ended := true, waits := [] })).dbrk d 26
          (Route.npos n.rec' - n.up)).reduceSettle d o.num)) ∧
      -- DIRECT_SLOT_SEND, SLOT_HEADER_WRITE, ARRIVAL_CHECK (R712 to R723)
      (∀ (r : Nat) (z : ClrSlot), o.slots.find? (fun z => z.r == r) = some z → z.phase = 0 →
        (z.next < Route.len z.rec' → exec (.directSlotSend d i r) s = .next (s.slotSend d o z)) ∧
        (Route.len z.rec' ≤ z.next → clrBusyTo s d o.num r = false →
          exec (.slotHeaderWrite d i r) s = .next ((s.putOp d (o.setSlot { z with phase := 1 })).clrSend d o.num r
            z.station (slotAddr o.q.desc z (clr16 s d o.q.desc) (clrRankA o.q.desc))
            [leBytes 2 (clrRankA o.q.desc) ++ leBytes 1 (clrStep o.q.desc) ++ leBytes 1 (clrEp o.q.desc) ++
              leBytes 1 ((clr16 s d o.q.desc).toNat + 2) ++ leBytes 59 0]))) ∧
      (∀ (r : Nat) (z : ClrSlot), o.targets.find? (fun z => z.r == r) = some z → z.phase ≠ 2 →
        exec (.arrivalCheck d i r) s = .next (s.targetCheck d o z)) ∧
      -- GATHER_ARRIVAL_ADD: one add to the destination's tally; the last completes the GATHER (R727)
      (∀ (r : Nat) (e : List Byte) (u : State), clrKind o.q.desc = 1 → clrN o.q.desc ≤ o.next → r < clrRankA o.q.desc →
        o.marks.contains r = false → clrBusyTo s d o.num r = false →
        s.clrRead d (clrB o.q.desc + 16 * r) 16 = (.ok e, u) →
        ∃ v, v = (u.putOp d { o with marks := r :: o.marks }).addTally d 66 (nfld (leAt e 2 4) 0 31 + 2 ^ 31) 1 ∧
          exec (.gatherArrivalAdd d i r) s = .next (if o.marks.length + 1 = clrRankA o.q.desc
            then (v.doneAdd d 66 o.q.desc).clrLeave d o.num else v)) ∧
      -- PERMUTE_FENCE_END, PERMUTE_ARRIVE_END (R733 to R737)
      (clrKind o.q.desc = 3 → o.phase = 0 → clrMin o.q.desc ≤ tVal s d (nfld (o.q.desc.le 46 2) 0 14) →
        exec (.permuteFenceEnd d i) s = .next (s.permuteMove d o)) ∧
      (clrKind o.q.desc = 3 → o.phase = 2 → clrRankA o.q.desc ≤ tVal s d (nfld (o.q.desc.le 42 2) 0 14) →
        exec (.permuteArriveEnd d i) s = .next (s.clrRun d { o with phase := 3 }))) ∧
    -- NODE_ROUND: a round emitted to the engine is taken (R693 to R705)
    (∀ k : Packet, clrFree s d = true → exec (.nodeRound d k) s = .next (s.takeRound d k)) ∧
    -- CLR_DEADLINE, CLR_STALL_LATE: the children missing from the oldest round are declared late (R706 to R710)
    (∀ (i : Fin 4) (r : Nat) (o : ClrOp) (n : ClrNode), clrNodeAt s d i r = some (o, n) →
      (n.judged = false → clrDue s d o n.rec' = true → exec (.clrDeadline d i r) s = .next (s.declareLate d o n)) ∧
      (n.judged = true → n.oldestAt + 1000 * s.g (Reg.clrCfg d) Reg.clrCfg_stall_us ≤ s.now →
        exec (.clrStallLate d i r) s = .next (s.declareLate d o n))) ∧
    -- CLR_RETRY, CLR_RESUME (R542, R546, R743)
    (∀ (f : ClrFail) (fs : List ClrFail), (s.die d).clr.fails = f :: fs → (s.die d).clr.halted = false →
      s.fabClk d = true → exec (.clrRetry d) s = .next (s.clrRedo d f (f.f.attempts + 1))) ∧
    (∀ (r : Requester) (f : ClrFail) (fs : List ClrFail) (u : State), Accepted s r (Reg.clrCtl d) u →
      (u.die d).clr.halted = true → (u.die d).clr.fails = f :: fs →
      exec (.clrResume r d) s = .next ((u.p (Reg.clrErr d) Reg.clrErr_cause 0).clrRedo d f 1)) ∧
    -- CLR_ABORT: nothing fails or is held any longer, and what is in flight is aborted (R547, R743)
    (∀ (r : Requester) (u : State), Accepted s r (Reg.clrCtl d) u →
      ∃ w, exec (.clrAbort r d) s = .next w ∧ (w.die d).clr.fails = [] ∧ (w.die d).clr.halted = false ∧
        (w.die d).clr.held = [] ∧ (w.die d).clr.ops =
          ((u.die d).clr.ops.filter (fun o => clrBusy u d o.num)).map (fun o => { o with abort := true }))

/-! ## Failure and recovery -/

/-- Where the causes of failure detection complete: a failed station says so, a member suspects a silent one, and the
deadlines of recovery pass. -/
def Obligations.FailureDetectionCommandsComplete : Prop :=
  ∀ s : State,
    -- FLT_SELF_FAIL: a running member whose fault holds sends FAIL, halts its sequencers, and raises the event (R770)
    (∀ why : FailWhy, s.m.st = .running → failHolds s why = true →
      exec (.fltSelfFail why) s = .next (((s.sendPorts none (fltMsg s 0x12 (reserveOf (servedStation s)) (servedStation s)
        (leBytes 2 (servedStation s) ++ leBytes 1 (failCode why).1 ++ leBytes 1 (failCode why).2))).haltSeqs).wardenRaise
          0)) ∧
    -- SUSPECT_SEND: every port to the active station is lost, and none was sent for agree_ms (R774)
    (∀ st : Nat, wardensRun s = true → nbit st 15 = false → portsTo s st ≠ [] → (portsTo s st).all (portLost s) = true →
      declared s st = false → s.m.fault.sent.filter (·.1 == st) = [] →
      exec (.suspectSend st) s = .next ((s.setFault { s.m.fault with sent := s.m.fault.sent.filter (·.1 != st) ++
        [(st, s.now)] }).sendTo (reserveOf st) (fltMsg s 0x11 (reserveOf st) (servedStation s)
          (leBytes 2 st ++ leBytes 1 (suspectCause s (portsTo s st)))))) ∧
    -- DECLARE_SETTLE: ack_timeout_us after the DECLARE the routes go around the failed station, and READY goes (R782)
    (∀ y : Decl, s.m.fault.decls.find? (fun z => !z.settled) = some y → s.m.st = .recovery →
      y.since + 1000 * s.g (Reg.lnkCfg 0) Reg.lnkCfg_ack_timeout_us ≤ s.now →
      ∃ v, v = (s.setRoute y.f (routeAround s y.f)).setFault { s.m.fault with
          decls := s.m.fault.decls.map (fun z => if z = y then { z with settled := true } else z) } ∧
        exec .declareSettle s = .next (v.each State.sendReady
          (((v.m.fault.decls.filter (fun z => z.gen == ownGen s)).map (·.coord)).eraseDups))) ∧
    -- REBUILD_DONE: both rebuild REDUCEs of each die are over: a serving reserve may resume (R795)
    (∀ (old : Nat × Nat) (v : State), s.m.fault.rebuild = some old → rebuildOver s = true →
      v = (((s.p (Reg.clrXor 0) Reg.clrXor_xor 0).p (Reg.clrXor 1) Reg.clrXor_xor 0).parityOff) →
      v.m.fault.serving.isSome = true →
      exec .rebuildDone s = .next (v.setFault { v.m.fault with rebuild := none }).tryResume) ∧
    -- RECOVER_TIMEOUT: a coordinator or a member that recovers for too long stops the job (R802)
    (∀ t : Nat, s.m.fault.declaredAt = some t → s.m.st = .recovery → t + 1000000 * setting s 22 ≤ s.now →
      exec .recoverTimeout s = .next (s.stopFlood 4 (s.m.fault.serving.getD 0))) ∧
    (∀ y : Decl, s.m.fault.declaredAt = none → s.m.fault.decls.getLast? = some y → s.m.st = .recovery →
      s.m.fault.step = none → s.m.fault.resumes = [] → y.since + 1000000 * setting s 22 ≤ s.now →
      exec .recoverTimeout s = .next (s.stopFlood 5 y.f)) ∧
    -- RESERVE_LOST: the group's reserve is silent on every port (R778)
    (wardensRun s = true → nbit (ownHome s) 15 = false → s.m.fault.reserveLost = false →
      portsTo s (reserveOf (ownHome s)) ≠ [] → silentLong s (portsTo s (reserveOf (ownHome s))) = true →
      (portsTo s (reserveOf (ownHome s))).all (portSilent s) = true →
      exec .reserveLost s = .next ((s.parityOff.wardenRaise 2).setFault { s.m.fault with reserveLost := true })) ∧
    -- FENCED: a member whose every port is lost for agree_ms fences itself (R804)
    (isMember s = true → silentLong s (expectPorts s) = true → exec .fenced s = .next s.fence)

/-- What each message of recovery does where it is heard. -/
def Obligations.RecoveryMessagesComplete : Prop :=
  ∀ (p : Port) (m : List Byte) (s u : State),
    -- SUSPECT: it is noted; the reserve declares the station once enough stations agree (R775, R776)
    (∀ v : State, Heard s p m 0x11 u → v = u.setFault { u.m.fault with
        suspects := u.m.fault.suspects.filter (fun y => !(y.1 == leAt m 16 2 && y.2.1 == fltSrc m)) ++
          [(leAt m 16 2, fltSrc m, u.now)] } →
      exec (.suspectMsg p m) s = .next (if mayDeclare v (leAt m 16 2) && agreed v (leAt m 16 2)
        then v.declare (leAt m 16 2) else v)) ∧
    -- FAIL: the reserve declares the sender (R775, R776)
    (Heard s p m 0x12 u → mayDeclare u (fltSrc m) = true → fltGen m = ownGen u →
      exec (.failMsg p m) s = .next (u.declare (fltSrc m))) ∧
    -- DECLARE: the station it names fences itself, any other member accepts it (R777, R782, R804)
    (Heard s p m 0x13 u → isMember u = true →
      (leAt m 16 2 = servedStation u → exec (.declareMsg p m) s = .next u.fence) ∧
      (leAt m 16 2 ≠ servedStation u → ownGen u ≤ fltGen m →
        u.m.fault.decls.any (fun x => x.f == leAt m 16 2 && x.gen == fltGen m) = false →
        exec (.declareMsg p m) s = .next (u.acceptDeclare (leAt m 16 2) (fltGen m) (leAt m 18 2)))) ∧
    -- READY: the coordinator notes the sender's step, and floods RESTORE once all are in (R786)
    (Heard s p m 0x14 u → u.m.fault.declaredAt.isSome = true → fltGen m = ownGen u →
      (reserveOf (fltSrc m) = ownHome u → declared u (fltSrc m) = true) →
      exec (.readyMsg p m) s = .next (u.setFault { u.m.fault with
        readys := u.m.fault.readys.filter (·.1 != fltSrc m) ++ [(fltSrc m, leAt m 16 6)] }).tryRestore) ∧
    -- RESTORE: a member in recovery that accepted the coordinator's DECLARE acts on it (R788, R791, R795)
    (∀ y : Decl, Heard s p m 0x15 u → declOf u (fltSrc m) = some y → u.m.st = .recovery →
      exec (.restoreMsg p m) s = .next (u.restoreAct y.f y.coord (leAt m 16 6) false)) ∧
    -- DONE: the coordinator notes it, refreshes once every partner has shipped, and may resume (R790, R791, R798)
    (∀ v : State, Heard s p m 0x16 u → u.m.fault.declaredAt.isSome = true → fltGen m = ownGen u →
      v = u.setFault { u.m.fault with dones := u.m.fault.dones.filter (·.1 != fltSrc m) ++
        [(fltSrc m, ((u.m.fault.dones.find? (·.1 == fltSrc m)).getD (fltSrc m, false, false)).2.1 || nbit (byteAt m 16) 0,
          ((u.m.fault.dones.find? (·.1 == fltSrc m)).getD (fltSrc m, false, false)).2.2 || nbit (byteAt m 16) 1)] } →
      exec (.doneMsg p m) s =
        .next (if shipsIn v && !v.m.fault.refreshed then v.refresh else v).tryResume) ∧
    -- RESUME: once every coordinator has resumed, the member does (R787, R799)
    (∀ (y : Decl) (v : State), Heard s p m 0x17 u → declOf u (fltSrc m) = some y → u.m.st = .recovery →
      v = u.setFault { u.m.fault with resumes := u.m.fault.resumes ++ [fltSrc m] } →
      exec (.resumeMsg p m) s = .next (if (u.m.fault.decls.filter (fun y => y.gen == ownGen u)).all
        (fun y => v.m.fault.resumes.contains y.coord) then v.resumeAct (leAt m 16 6) else v)) ∧
    -- STOP (R803, R842)
    (Heard s p m 0x18 u → pstate u = 2 →
      exec (.stopMsg p m) s =
        .next (((u.haltAll.wardenRaise 5).setPitch { u.m.pitch with stopped := true }).drain 4 true)) ∧
    -- JOIN: answered with its result (R809); JOIN_ANSWER of result 0: joined (R808)
    (Heard s p m 0x19 u → joinResult u m = 0 →
      ∃ v, v = u.scSend p (fltMsg u 0x1A (fltSrc m) (servedStation u) (leBytes 1 0)) ∧
        exec (.joinMsg p m) s = .next (v.setFault { v.m.fault with
          joins := v.m.fault.joins.filter (· != fltSrc m) ++ [fltSrc m] })) ∧
    (Heard s p m 0x1A u → byteAt m 16 = 0 →
      exec (.joinAnswer p m) s = .next (u.setFault { u.m.fault with joined := true }))

/-! ## Ethernet, pitches, start-up and flash -/

/-- Where the Ethernet commands complete: ports, frames, neighbours, PTP, requests of queue pairs and the send queues. -/
def Obligations.EthernetCommandsComplete : Prop :=
  ∀ (e : Fin 8) (s : State),
    -- ETH_LINK_UP (R815, R820); ETH_PORT_DOWN (R816, R832)
    (∀ (o : Bool) (u : State), ethMay s e = true → u = (s.p (Reg.ethPortStatus e) Reg.ethPortStatus_up 1).p
        (Reg.ethPortStatus e) Reg.ethPortStatus_optical o.toNat →
      exec (.ethLinkUp e o) s = .next u ∧ ethUp u e = true ∧
        u.g (Reg.ethPortStatus e) Reg.ethPortStatus_optical = o.toNat) ∧
    ((s.m.st ≠ .off ∨ s.m.sec.recovery = true) → exec (.ethPortDown e) s = .next ((s.ethDown e).ethRaise e 0)) ∧
    -- ETH_FRAME_RECEIVE: the bytes are counted; a RoCEv2 packet and a PFC frame are taken (R814, R819, R825, R833)
    (∀ (f : EthFrame) (u : State), ethUp s e = true → f.bytes ≤ 9216 → f.tags ≤ 1 →
      u = s.inc64 (Reg.ethCntBytes e 1) f.bytes →
      (f.kind = .own → exec (.ethFrameReceive e f) s = .next u) ∧
      (∀ (ok ce : Bool) (qp : Nat), f.kind = .roce ok ce qp → s.m.sec.recovery = false →
        exec (.ethFrameReceive e f) s = .next (u.roceTake e f ok ce qp)) ∧
      (∀ (prio : Nat) (on : Bool), f.kind = .pfc prio on →
        exec (.ethFrameReceive e f) s = .next (u.pfcTake e prio on))) ∧
    -- NEIGHBOUR_ANSWER: a resolution and an echo are answered; an answer joins the network's cache of 64 (R818)
    (∀ peer : List Byte, ethUp s e = true →
      exec (.neighbourAnswer e peer .resolve) s = .next (s.ethEmit e (.reply peer (ownMac s e)) 64) ∧
      (∀ pl : List Byte, exec (.neighbourAnswer e peer (.echo pl)) s =
        .next (s.ethEmit e (.reply peer pl) (max 64 (udpFrame s e peer pl.length)))) ∧
      (∀ (mac : List Byte) (l : List (List Byte × List Byte)),
        l = (ethPort s (e.val / 4 * 4)).nbr.filter (fun y => y.1 != peer) ++ [(peer, mac)] →
        exec (.neighbourAnswer e peer (.answer mac)) s =
          .next (s.setEth (e.val / 4 * 4) { ethPort s (e.val / 4 * 4) with nbr := l.drop (l.length - 64) }))) ∧
    -- PTP_EVENT: the stamps of the exchange are kept; its last message makes the measurement (R821, R822, R968)
    (ethUp s e = true → (e.val = 0 ∨ e.val = 4) → s.m.st ≠ .off →
      (∀ t1 : Nat, exec (.ptpEvent e (.sync t1)) s =
        .next (s.setTime { s.m.time with ptp := { t1 := t1, t2 := some s.now, t3 := none } })) ∧
      exec (.ptpEvent e .delayReq) s =
        .next ((s.setTime { s.m.time with ptp := { s.m.time.ptp with t3 := some s.now } }).ethEmit e (.ptpDelayReq s.now) 90) ∧
      (∀ t1 t2 t3 t4 : Nat, s.m.time.ptp = ⟨some t1, some t2, some t3⟩ → linkTime s = false →
        exec (.ptpEvent e (.delayResp t4)) s =
          .next ((s.setTime { s.m.time with ptp := ⟨none, none, none⟩ }).measure
            ((((t1 : Int) - t2) + ((t4 : Int) - t3)).fdiv 2)))) ∧
    (∀ (r : RoceReq) (u v : State), roceMeets s e r = true → u = s.roceServed e r →
      -- ROCE_WRITE, ROCE_READ of a region that lets them in (R827, R828), and any other opcode (R824)
      (mrGrants s r r.data.length true = true → u.writeSpan (.roce e) r.va r.data = (none, v) →
        exec (.roceWrite e r) s = .next (v.ethEmit e (.ack r.qp) (roceFrames 4))) ∧
      (∀ (l : List (Option Byte)) (bs : List Byte), mrGrants s r r.len false = true →
        u.readSpan (.roce e) r.va r.len = (l, v) → whole l = some bs →
        exec (.roceRead e r) s = .next (v.ethEmit e (.readResp r.qp bs) (roceFrames r.len))) ∧
      (3 ≤ r.op → exec (.nakInvalidRequest e r) s = .next (u.nak e (.nakInvalid r.qp) true)) ∧
      -- ROCE_SEND into a free buffer of the ring: written, a request made, acknowledged (R829, R830)
      (∀ (base n head size line : Nat), base = s.g (Reg.ethRing e r.qp) Reg.ethRing_base →
        n = s.g (Reg.ethRingCfg e r.qp) Reg.ethRingCfg_nbuf → head = s.g (Reg.ethRingCfg e r.qp) Reg.ethRingCfg_head →
        size = s.g (Reg.ethRingCfg e r.qp) Reg.ethRingCfg_buf_bytes * 64 → line = e.val + 1 → r.data.length ≤ size →
        s.g (Reg.dcpReq (addrDie base) (line / 8)) ⟨8 * (line % 8), 8⟩ < n →
        u.writeSpan (.roce e) (base + head * size) r.data = (none, v) →
        exec (.roceSend e r) s = .next ((((v.p (Reg.ethRingCfg e r.qp) Reg.ethRingCfg_head ((head + 1) % n)).request true
          (addrDie base) 0 line).ethEmit e (.ack r.qp) (roceFrames 4)).planArrives))) ∧
    (∀ (q : Fin 64) (x : QpS), qpOf s e q = some x →
      -- ROCE_RETRANSMIT: up to seven times (R831); CNP_RECEIVE halves the rate, RATE_REGAIN raises it (R834)
      (x.err = false → x.out ≠ [] → x.sentAt + 1000 * s.g (Reg.ethPortCfg e) Reg.ethPortCfg_ack_us ≤ s.now →
        exec (.roceRetransmit e q) s = .next (if 7 ≤ x.resends then s.qpError e q
          else (s.setQp e q { x with resends := x.resends + 1, sentAt := s.now }).each (fun s r => s.sqSend e q r) x.out)) ∧
      exec (.cnpReceive e q) s = .next (s.setQp e q { x with rate := x.rate / 2, rateAt := s.now }) ∧
      (x.rate < lineRate → x.rateAt + 55000 ≤ s.now →
        exec (.rateRegain e q) s =
          .next (s.setQp e q { x with rate := min lineRate (x.rate + lineRate / 16), rateAt := s.now })) ∧
      -- SQ_ENTRY_COMPLETE: the oldest request leaves, the head moves past it, and its tally takes one (R835, R387)
      (∀ (r : SqReq) (rs : List SqReq) (data : List Byte), x.err = false → x.out = r :: rs → r.op ≠ 2 →
        exec (.sqEntryComplete e q data) s = .next ((((s.setQp e q { x with out := rs, sentAt := s.now, resends := 0 }).p
          (Reg.ethSqCfg e q) Reg.ethSqCfg_head ((r.entry + 1) % 65536)).addTally
            (addrDie (s.g (Reg.ethSq e q) Reg.ethSq_base)) 67 r.tally 1).sqPump e q 65536))) ∧
    -- SQ_BELL: the tail moves, and the entries up to it are sent (R835)
    (∀ (r : Requester) (v : Word) (u : State), Accepted s r (Reg.ethSqBell e) u →
      (fld v 32 16 + 65536 - u.g (Reg.ethSqCfg e (fld v 0 6)) Reg.ethSqCfg_head) % 65536 ≤
        u.g (Reg.ethSqCfg e (fld v 0 6)) Reg.ethSqCfg_entries →
      exec (.sqBell r e v) s =
        .next ((u.p (Reg.ethSqCfg e (fld v 0 6)) Reg.ethSqCfg_tail (fld v 32 16)).sqPump e (fld v 0 6) 65536))

/-- Where the pitch messages and the happenings of a pitch complete. -/
def Obligations.PitchCommandsComplete : Prop :=
  ∀ s : State,
    (∀ (e : Fin 8) (m : PitchMsg) (u : State),
      -- STATUS_REQ (R840), TOLL_GET (R856)
      (PitchTaken s e m 1 u → exec (.statusReq e m) s = .next (u.replied e m 0x81 (statusBody u))) ∧
      (PitchTaken s e m 5 u → exec (.tollGet e m) s = .next (u.replied e m 0x85
        ((u.m.flash.tolls.find? (fun t => leAt t 28 4 == leAt m.body 0 4)).getD (List.replicate 4 0)))) ∧
      -- OFFER with no pitch open, on a module ready for one, in a form the module reads (R843, R862)
      (∀ (o : OfferBody) (t : Nat) (b : List Byte) (v : State), PitchTaken s e m 2 u → pstate u = 0 → notReady u = false →
        (u.m.st = .ready ∨ u.m.st = .warmReserve ∨ (u.m.st = .standby ∧ flowBelow u = false)) → offerOf m.body = some o →
        u.offerAccept e m o = (t, b, v) → exec (.offer e m) s = .next (v.replied e m t b)) ∧
      -- START of a loaded plan: generation 1, the sequencers start, the module runs, the pitch is in Running (R842, R398)
      (∀ v : State, PitchTaken s e m 3 u → pstate u = 1 → u.m.pitch.loaded = true → planLoaded u = true → u.m.st = .ready →
        idleReserve u = false → v = (((((u.setGen 1).setHolds 0).startSeqs.setMod .running).showState 1).pitchTo 2 0) →
        exec (.startMsg e m) s = .next (v.replied e m 0x84 (ansBody 3 0))) ∧
      -- PITCH_END in Loading and in Running (R842, R844)
      (∀ v : State, PitchTaken s e m 4 u → pstate u = 1 → v = u.drain 1 true →
        exec (.pitchEnd e m) s = .next (v.replied e m 0x84 (ansBody 4 0))) ∧
      (∀ v : State, PitchTaken s e m 4 u → pstate u = 2 → u.m.st ≠ .recovery → v = u.endRunning (byteAt m.body 0) →
        exec (.pitchEnd e m) s = .next (v.replied e m 0x84 (ansBody 4 0)))) ∧
    -- NOT_AFTER, PITCH_NORM_STOP, CHECKPOINT_DONE (R842)
    (s.m.pitch.notAfter < s.now → s.m.st ≠ .recovery →
      (pstate s = 1 → exec .notAfter s = .next (s.drain 2 true)) ∧
      (pstate s = 2 → exec .notAfter s = .next (s.drain 2 false))) ∧
    (pstate s = 2 → s.m.st = .running → normStopped s = true → exec .pitchNormStop s = .next (s.drain 3 false)) ∧
    (pstate s = 3 → exec .checkpointDone s = .next (s.pitchTo 4 0)) ∧
    -- SCRUB: the module is scrubbed (R847); SCRUB_END: the record is signed, stored and sent, and the pitch is over (R855)
    (∀ u v : State, pstate s = 4 → u = (((s.haltSeqs.tallyClear 0).tallyClear 1).scrubChip.zeroExt 0).zeroExt 1 →
      v = u.scrubHist.scrubOwn.ethDestroy →
      exec .scrub s = .next (v.setFault { v.m.fault with scrubbed := true })) ∧
    (∀ (t : List Byte) (u : State), pstate s = 4 → s.m.fault.scrubbed = true → s.tollSign (openRec s) false s.now = (t, u) →
      exec .scrubEnd s = .next (if t = [] then u
        else (u.pitchSend s.m.pitch.port s.m.pitch.peer 0x85 (pitchId s) t).2).pitchOver) ∧
    -- TOLL_CKPT: the counters are written every ckpt_s (R853)
    (pstate s ≠ 0 → s.m.pitch.wroteAt + 1000000000 * s.g Reg.ethTollCfg Reg.ethTollCfg_ckpt_s ≤ s.now →
      exec .tollCkpt s = .next s.tollWrite)

/-- Where start-up, restarts and the furnish flash complete. -/
def Obligations.StartupAndFlashCommandsComplete : Prop :=
  ∀ s : State,
    -- COLD_START: both slots are judged; the one phase 2 chooses runs, or recovery mode is entered (R858, R1020 to R1024)
    (∀ (a b : Bool) (w x y z : State) (c : Nat → Nat) (k : Option (Nat × Nat)), s.m.st = .off → s.m.pwr.low = false →
      s.m.pwr.shut = false → w = s.coldReset.showFuses → x = (w.setPhase 1).p Reg.secVersion Reg.secVersion_floor (versionFloor w) →
      c = (fun v => imageCause x v (if v = 0 then a else b) [0]) →
      y = ((x.p Reg.secStatus Reg.secStatus_cause_a (c 0)).p Reg.secStatus Reg.secStatus_cause_b (c 1)).setPhase 2 →
      (if (topFloor (floors y)).isNone = true then y.secRaise 3 else y).bootChoice (fun v => c v == 0) = (k, z) →
      ∃ u : State, exec (.coldStart a b) s = .next (match k with
          | none => z.recovery
          | some (v, mode) => (if mode = 0 then u.raiseFloor v else u).startStandby a b) ∧
        ∀ v mode, k = some (v, mode) → u = ((z.p Reg.secStatus Reg.secStatus_slot v).p Reg.secStatus Reg.secStatus_trial
          (if mode = 2 then 1 else 0)).p Reg.secVersion Reg.secVersion_running (leAt (imageBlock z v 0) 8 4)) ∧
    -- READY_REQUEST: both dies power up, the rails take their voltage, the offsets are kept (R861, R907)
    (∀ offs : List Int, mayLeave s = true → s.m.boot.want = true → s.m.boot.up = false → flowBelow s = false →
      ∃ u v : State, exec (.readyRequest offs) s = .next u ∧
        v = (((s.setBoot { s.m.boot with up := true }).dieUp 0).dieUp 1).each (fun s r => s.setRail r (railMv r))
          ((List.range 17).drop 2) ∧
        u = v.setM { v.m with pwr := { v.m.pwr with offs := offs } }) ∧
    -- WARDEN_LOAD_DONE: once both sections verify, the furnish is written and the ports train (R861, R868, R1020)
    (phase6 s = true → s.m.boot.loaded = false →
      exec .wardenLoadDone s = .next (
        if sectionCause s (s.g Reg.secStatus Reg.secStatus_slot) (imageBlock s (s.g Reg.secStatus Reg.secStatus_slot) 0) 1 = 0 ∧
           sectionCause s (s.g Reg.secStatus Reg.secStatus_slot) (imageBlock s (s.g Reg.secStatus Reg.secStatus_slot) 0) 2 = 0
        then (((s.setBoot { s.m.boot with loaded := true }).furnWrite.trainAll).setPhase 8).readyEnter else s)) ∧
    -- WARM_RESERVE_ENTER: tiles off, Ethernet ports but 0 and 4 down, clocks and rails lowered (R862)
    (s.m.st = .ready → nbit (identStation s) 15 = true → s.m.fault.serving = none →
      ∃ u v : State, exec .warmReserveEnter s = .next (((v.setRail 2 650).setRail 3 650).showState 4) ∧
        u = (((s.setMod .warmReserve).tilesOff 0).tilesOff 1).each (fun s e => s.ethDown e) [1, 2, 3, 5, 6, 7] ∧
        v = ((u.pllsWarm 0).pllsWarm 1).setBoot { u.m.boot with warmNext := false }) ∧
    -- COLD_RESTART, WARM_RESTART: with the key byte; a staging operation holds the restart back (R864, R866, R1031)
    (∀ (r : Requester) (v : Word) (u : State), Accepted s r Reg.mgtCtl u → fld v 8 8 = 0xA5 →
      (u.on Reg.secStatus Reg.secStatus_busy = false → exec (.coldRestart r v) s = .next u.restartCold ∧
        exec (.warmRestart r v) s = .next u.restartWarm) ∧
      (u.on Reg.secStatus Reg.secStatus_busy = true →
        exec (.coldRestart r v) s = .next (u.setBoot { u.m.boot with restart := some true }))) ∧
    -- TRIAL_COMMIT: within a second of phase 5, once both sections pass (R1023)
    (∀ h : List Byte, h = imageBlock s (s.g Reg.secStatus Reg.secStatus_slot) 0 →
      s.on Reg.secStatus Reg.secStatus_trial = true → s.now ≤ s.m.sec.phase5 + 1000000000 →
      exec .trialCommit s = .next (
        if sectionCause s (s.g Reg.secStatus Reg.secStatus_slot) h 1 = 0 ∧
           sectionCause s (s.g Reg.secStatus Reg.secStatus_slot) h 2 = 0
        then ((((s.dirWrite (s.g Reg.secStatus Reg.secStatus_slot) 0 (leAt h 8 4)).floorWrite (leAt h 8 4)).fuseEpoch
          (byteAt h 6)).p Reg.secStatus Reg.secStatus_trial 0).secRaise 2 else s)) ∧
    -- FLASH_READ, FLASH_PROGRAM, FLASH_ERASE: in Standby with the furnish read, an aligned command takes effect and the
    -- window is busy (R883, R885); FLASH_CMD_DONE: it is not any longer
    (∀ (r : Requester) (v : Word) (c : Instr) (op : Nat) (u w : State),
      (c, op) ∈ [(Instr.flashRead r v, 1), (.flashProgram r v, 2), (.flashErase r v, 3)] → Accepted s r Reg.mgtFlashCmd u →
      u.m.st = .standby → 4 ≤ u.g Reg.mgtStatus Reg.mgtStatus_phase → u.on Reg.mgtFlashCmd Reg.mgtFlashCmd_busy = false →
      fld (setFld v 0 2 op) 8 20 % (if op = 3 then 65536 else 256) = 0 →
      w = ((u.p Reg.mgtFlashCmd Reg.mgtFlashCmd_offset (fld (setFld v 0 2 op) 8 20)).p Reg.mgtFlashCmd Reg.mgtFlashCmd_op
        op).p Reg.mgtFlashCmd Reg.mgtFlashCmd_device (fld (setFld v 0 2 op) 2 1) →
      exec c s = .next ((w.p Reg.mgtFlashCmd Reg.mgtFlashCmd_busy 1).flashDo op (fld (setFld v 0 2 op) 2 1)
        (furnOff + w.g Reg.mgtFlashCmd Reg.mgtFlashCmd_offset / (if op = 3 then 65536 else 256) *
          (if op = 3 then 65536 else 256)))) ∧
    (∀ ok : Bool, s.on Reg.mgtFlashCmd Reg.mgtFlashCmd_busy = true →
      exec (.flashCmdDone ok) s = .next ((s.p Reg.mgtFlashCmd Reg.mgtFlashCmd_busy 0).p Reg.mgtFlashCmd
        Reg.mgtFlashCmd_error (!ok).toNat))

/-! ## Power, clocks and time -/

/-- Where the feeds, the rails, the limits, the samples and the domains' writes complete. -/
def Obligations.PowerCommandsComplete : Prop :=
  ∀ s : State,
    (∀ f : Fin 2,
      -- FEED_LOST of one feed while the other stands, FEED_RESTORED, FEED_REVERSE (R889 to R891)
      (aonOn s = true → s.on (Reg.pwrFeed f) Reg.pwrFeed_lost = false →
        s.on (Reg.pwrFeed (1 - f.val)) Reg.pwrFeed_lost = false →
        exec (.feedLost f) s =
          .next (((s.p (Reg.pwrFeed f) Reg.pwrFeed_lost 1).mbrk (Reg.pwrCnt32 1) 0x20 1 1).pwrRaise 0)) ∧
      exec (.feedRestored f) s = .next (s.p (Reg.pwrFeed f) Reg.pwrFeed_lost 0) ∧
      (aonOn s = true → s.on (Reg.pwrFeed f) Reg.pwrFeed_reverse = false →
        exec (.feedReverse f) s = .next (((s.openSwitch f).p (Reg.pwrFeed f) Reg.pwrFeed_reverse 1).pwrRaise 1)) ∧
      -- FEED_FAULT opens the switch; FEED_RECLOSE closes it 100 ms later, unless latched (R899, R900)
      (∀ v w : State, aonOn s = true → s.m.pwr.sw.contains f.val = false → v = s.openSwitch f →
        w = (v.setPwr { v.m.pwr with opens := v.m.pwr.opens ++ [(f.val, s.now)] }).pwrRaise 2 →
        exec (.feedFault f) s =
          .next (if feedLatched w.m.pwr f = true then w.p (Reg.pwrFeed f) Reg.pwrFeed_fault 1 else w)) ∧
      (∀ t : Nat, ((s.m.pwr.opens.filter (fun y => y.1 == f.val)).map (·.2)).getLast? = some t →
        s.m.pwr.sw.contains f.val = true → feedLatched s.m.pwr f = false →
        s.on (Reg.pwrFeed f) Reg.pwrFeed_reverse = false → t + 100000000 ≤ s.now →
        exec (.feedReclose f) s = .next (s.closeSwitch f))) ∧
    -- SURGE, OVERVOLTAGE, BROWNOUT, OVERCURRENT_TRIP, BROWNOUT_RECOVER (R892 to R896, R923)
    (aonOn s = true → exec .surge s = .next (s.p Reg.pwrStatus Reg.pwrStatus_surge 1)) ∧
    exec .overvoltage s = .next (((s.toOff).openSwitch 0).openSwitch 1) ∧
    (∀ v : State, s.m.st ≠ .off → s.m.pwr.low = false →
      v = (((s.mbrk (Reg.pwrCnt32 2) 0x20 2 1).pwrRaise 3).dropDies) →
      exec .brownout s = .next (v.setPwr { v.m.pwr with low := true }) ∧
      exec .overcurrentTrip s = .next (v.setPwr { v.m.pwr with low := true })) ∧
    (s.m.pwr.low = true → exec .brownoutRecover s = .next (s.setPwr { s.m.pwr with low := false }).standbyExit) ∧
    -- RAIL_FAULT by what the rail feeds, SENSE_OPEN, SHELL_WATCHDOG (R901 to R905, R908)
    (∀ (r : Fin 17) (v : State), aonOn s = true → v = ((s.p Reg.pwrStatus Reg.pwrStatus_rail_fault r).p Reg.pwrStatus
        Reg.pwrStatus_rail_fault_valid 1).pwrRaise 4 →
      exec (.railFault r) s = .next (if r.val < 2 then v.toOff else if r.val < 16 then v.holdStandby
        else v.each (fun s e => s.ethDown e) (List.range 8))) ∧
    (∀ r : Fin 17, aonOn s = true → 2 ≤ r.val → r.val ≤ 11 → (s.rd Reg.pwrSense).getLsbD r = false →
      exec (.senseOpen r) s = .next ((((s.p (Reg.pwrRail r) Reg.pwrRail_set_mv
        (s.g (Reg.pwrRail r) Reg.pwrRail_set_mv + 25)).setBit Reg.pwrSense r).mbrk (Reg.pwrCnt32 3) 0x20 3 1).pwrRaise 5)) ∧
    (aonOn s = true → s.on Reg.pwrStatus Reg.pwrStatus_shell_hold = false →
      exec .shellWatchdog s = .next ((s.p Reg.pwrStatus Reg.pwrStatus_shell_hold 1).stretch.pwrRaise 6)) ∧
    -- MANAGER_STEP: a limit over its bound lowers k_m by one, down to 4; with all released it rises by one, up to 16 (R918 to R922)
    (∀ (k : Nat) (v w : State), s.m.st ≠ .off →
      k = (if overBound s ≠ 0 then max 4 (s.g Reg.pwrStretch Reg.pwrStretch_k_m - 1)
        else if released s = true ∧ s.g Reg.pwrStretch Reg.pwrStretch_k_m < 16
          then s.g Reg.pwrStretch Reg.pwrStretch_k_m + 1 else s.g Reg.pwrStretch Reg.pwrStretch_k_m) →
      v = (let v0 := (s.p Reg.pwrStretch Reg.pwrStretch_cause (overBound s)).p Reg.pwrStretch Reg.pwrStretch_k_m k
        if s.g Reg.pwrStretch Reg.pwrStretch_k_m < k then v0.p Reg.pwrStatus Reg.pwrStatus_floor 0 else v0) →
      w = (v.setPwr { v.m.pwr with floorAt := if k = 4 then some (s.m.pwr.floorAt.getD s.now) else none }).stretch →
      exec .managerStep s = .next (if k < 16 then w.inc64 Reg.pwrCnt64 1 else w)) ∧
    (∀ t : Nat, s.m.pwr.floorAt = some t → t + 100000000 ≤ s.now → s.g Reg.pwrStretch Reg.pwrStretch_cause ≠ 0 →
      s.on Reg.pwrStatus Reg.pwrStatus_floor = false →
      exec .limitFloor s = .next ((s.p Reg.pwrStatus Reg.pwrStatus_floor 1).pwrRaise 7)) ∧
    -- DROOP, DROOP_RELEASE (R924), OVERTEMP (R925)
    (∀ d : Die, s.dieOn d = true →
      (droop s d ≠ 8 → exec (.droop d) s = .next ((s.setDroop d 8).mbrk (Reg.pwrCnt32 0) 0x20 0 1)) ∧
      exec (.droopRelease d) s = .next (s.setDroop d 16) ∧ exec (.overtemp d) s = .next s.overtemp) ∧
    -- SHUTDOWN, SHUTDOWN_RELEASE (R911 to R913)
    (∀ v : State, s.m.pwr.shut = false → v = s.setPwr { s.m.pwr with shut := true } →
      exec .shutdown s = .next (if s.m.st = .off then v else (v.pwrRaise 9).dropDies)) ∧
    (s.m.pwr.shut = true → exec .shutdownRelease s = .next (s.setPwr { s.m.pwr with shut := false }).standbyExit) ∧
    -- TELEMETRY_SAMPLE: surge and sag show the higher feed (R928, R929)
    (∀ t : Telem, aonOn s = true → ∃ u, exec (.telemetrySample t) s = .next u ∧
      u.on Reg.pwrStatus Reg.pwrStatus_surge = decide (6000 < max t.mvA t.mvB) ∧
      u.on Reg.pwrStatus Reg.pwrStatus_sag = decide (3400 ≤ max t.mvA t.mvB ∧ max t.mvA t.mvB < 4000)) ∧
    -- PWR_TILE_ON_WRITE: where no tile that goes off is busy, the register takes the value (R914, R915)
    (∀ (r : Requester) (d : Die) (v : Word) (u : State), Accepted s r (Reg.pwrTileOn d) u →
      (∀ t < 64, tileBusy u d t = false) →
      ∃ w, exec (.pwrTileOnWrite r d v) s = .next w ∧ w.rd (Reg.pwrTileOn d) = v)

/-- Where the clocks' happenings and writes complete. -/
def Obligations.ClockCommandsComplete : Prop :=
  ∀ s : State,
    -- FREQ_WINDOW: dev is the count less 2^20; qualified follows two good windows (R937, R941)
    (∀ (n : Nat) (good : Prop) (v w : State), refUp s = true → oscOk s = true → s.m.st ≠ .off →
      (good ↔ 1000000 * ((n : Int) - 2 ^ 20).natAbs ≤ 2 ^ 20 * s.g Reg.mckRefCfg Reg.mckRefCfg_ref_ppm) →
      v = s.p Reg.mckRefMeas Reg.mckRefMeas_dev (encS 32 ((n : Int) - 2 ^ 20)) →
      ((¬ good ∧ w = (v.setClk { s.m.clk with refGood := 0 }).p Reg.mckStatus Reg.mckStatus_qualified 0) ∨
       (good ∧ 1 ≤ s.m.clk.refGood ∧
          w = (v.setClk { s.m.clk with refGood := s.m.clk.refGood + 1 }).p Reg.mckStatus Reg.mckStatus_qualified 1)) →
      exec (.freqWindow n) s = .next w.refUpdate) ∧
    -- OSC_WINDOW: a good oscillator is lost at one bad window, and good again after sixteen (R942 to R944)
    (∀ (n : Nat) (v : State), aonOn s = true →
      (oscOk s = true → (n < 97000 ∨ 103000 < n) →
        v = (((s.setClk { s.m.clk with oscGood := 0 }).p Reg.mckStatus Reg.mckStatus_osc_ok 0).p Reg.timeStatus
          Reg.timeStatus_sync 0).mckRaise 1 → exec (.oscWindow n) s = .next v.refUpdate.noReference) ∧
      (oscOk s = false → 97000 ≤ n → n ≤ 103000 → 15 ≤ s.m.clk.oscGood →
        v = (s.setClk { s.m.clk with oscGood := s.m.clk.oscGood + 1 }).p Reg.mckStatus Reg.mckStatus_osc_ok 1 →
        exec (.oscWindow n) s = .next v.refUpdate)) ∧
    -- PLL_LOCK of a running PLL; PLL_UNLOCK, the third within a second stopping the PLL (R945, R947, R949)
    (∀ (d : Die) (pll : Fin 5),
      ((s.die d).power = true → nbit (s.die d).pllRun pll = true →
        exec (.pllLock d pll) s = .next (((s.setLock d pll true).arrShow d).phaseSix)) ∧
      (∀ (l : List (Nat × Nat × Nat)) (u v w : State), s.dieOn d = true → (s.rd (Reg.clkStatus d)).getLsbD pll = true →
        l = s.m.clk.losses ++ [(d.val, pll.val, s.now)] →
        u = ((s.setClk { s.m.clk with losses := l }).setLock d pll false).arrShow d →
        v = (u.dbrk d 34 1).raise ⟨0x19, 0, 0⟩ (.die d) { source := pll } →
        w = v.setDie d { v.die d with pllRun := (v.die d).pllRun &&& (31 - 2 ^ pll.val) } →
        exec (.pllUnlock d pll) s = .next (
          if 3 ≤ (l.filter (fun x => x.1 == d.val && x.2.1 == pll.val && decide (s.now ≤ x.2.2 + 1000000000))).length
          then ((w.p (Reg.clkStatus d) Reg.clkStatus_failed 1).raise ⟨0x19, 0, 2⟩ (.die d) { source := pll }).holdStandby
          else v)) ∧
      -- PLL_SLEEP (R953)
      (∀ v : State, (s.die d).power = true → s.on (Reg.clkCtl d) Reg.clkCtl_pll_sleep = true → allGated s d = true →
        (s.die d).u.cur.isSome = false → (s.die d).updQ = [] →
        v = s.setDie d { s.die d with arrRoot := false, pllRun := (s.die d).pllRun &&& 30 } →
        exec (.pllSleep d) s = .next ((v.setLock d 0 false).arrShow d)) ∧
      -- ARR_STOP with every tile gated and the update unit idle (R951, R952)
      (∀ (r : Requester) (u : State), Accepted s r (Reg.clkCtl d) u → allGated u d = true → (u.die d).u.cur.isNone = true →
        exec (.arrStop r d) s = .next ((u.setDie d { u.die d with arrRoot := false }).arrShow d)) ∧
      -- CLK_FREQ_WRITE of legal frequencies that differ from those that stand (R955, R956)
      (∀ (r : Requester) (v : Word) (u w : State), Accepted s r (Reg.clkFreq d) u → mhzOk 1000 (fld v 0 16) = true →
        mhzOk 1200 (fld v 16 16) = true → u.g (Reg.clkFreq d) Reg.clkFreq_arr_mhz ≠ fld v 0 16 →
        w = ((u.p (Reg.clkFreq d) Reg.clkFreq_arr_mhz (fld v 0 16)).setLock d 0 false).arrShow d →
        w.g (Reg.clkFreq d) Reg.clkFreq_fab_mhz ≠ fld v 16 16 →
        exec (.clkFreqWrite r d v) s =
          .next (((w.p (Reg.clkFreq d) Reg.clkFreq_fab_mhz (fld v 16 16)).setLock d 1 false).arrShow d))) ∧
    -- CLKOUT_WRITE: at once while CLKOUT is low with no pending edge (R959 to R961)
    (∀ (r : Requester) (v : Word) (u w : State), Accepted s r Reg.mckClkout u → fld v 1 3 ≤ 4 →
      w = ((u.p Reg.mckClkout Reg.mckClkout_en (fld v 0 1)).p Reg.mckClkout Reg.mckClkout_div_m1 (fld v 4 12)).p Reg.mckClkout
        Reg.mckClkout_src (fld v 1 3) →
      exec (.clkoutWrite r v) s =
        .next (if clkoutIdle u = true then w.setClk { w.m.clk with clkout := w.rd Reg.mckClkout } else w))

/-- Where the time base's commands complete. -/
def Obligations.TimeCommandsComplete : Prop :=
  ∀ s : State,
    -- TIME_STEP before the first sync; TIME_SLEW adds to the slew left, 1 ns in 200 (R965, R966)
    (∀ (r : Requester) (v : Word) (u : State), Accepted s r Reg.timeStep u → u.on Reg.timeStatus Reg.timeStatus_sync_ever = false →
      exec (.timeStep r v) s = .next (((u.wr Reg.timeNow v).wr Reg.timeFrac 0).setTime { u.m.time with rem := 0 })) ∧
    (∀ (r : Requester) (v : Word) (u : State), Accepted s r Reg.timeSlew u →
      exec (.timeSlew r v) s = .next (u.setSlew (u.m.time.slew + 200 * sgn 32 (fld v 0 32)))) ∧
    -- TIME_REQ_SEND each link_ms while link time is in use (R971, R973)
    (∀ q : Nat, linkTime s = true → s.m.time.sentAt + 1000000 * s.g Reg.timeCfg Reg.timeCfg_link_ms ≤ s.now →
      q = (s.m.time.seq + 1) % 65536 →
      exec .timeReqSend s = .next ((s.setTime { s.m.time with seq := q, sentAt := s.now }).scSend
        (s.g Reg.mckRefCfg Reg.mckRefCfg_ref_port) ([1, 10] ++ leBytes 2 q ++ leBytes 8 s.now))) ∧
    (∀ (p : Port) (m : List Byte), s.portState p = 5 →
      -- TIME_REQ is answered with its sequence and its t1, the two stamps and sync (R972, R973)
      (byteAt m 0 = 1 → exec (.timeReq p m) s = .next (s.scSend p ([2, 27] ++ slice m 2 2 ++ slice m 4 8 ++ leBytes 8 s.now ++
        leBytes 8 s.now ++ leBytes 1 (synced s).toNat))) ∧
      -- TIME_RESP: round trip and offset; a measurement while link time is in use; otherwise it is counted (R974, R975)
      (∀ (t1 t2 t3 rtt off : Int) (u : State), byteAt m 0 = 2 → t1 = leAt m 4 8 → t2 = leAt m 12 8 → t3 = leAt m 20 8 →
        rtt = (s.now - t1) - (t3 - t2) → off = ((t2 - t1) - (s.now - t3)).fdiv 2 →
        u = ((s.p Reg.timeLink Reg.timeLink_offset (encS 32 off)).p Reg.timeLink Reg.timeLink_rtt (encS 16 rtt)).p Reg.timeLink
          Reg.timeLink_seq (leAt m 2 2) →
        exec (.timeResp p m) s = .next (
          if p.val = s.g Reg.mckRefCfg Reg.mckRefCfg_ref_port ∧ leAt m 2 2 = s.m.time.seq ∧
              rtt ≤ s.g Reg.timeCfg Reg.timeCfg_rtt_max_ns ∧ nbit (byteAt m 28) 0 = true
          then (if linkTime s = true then u.measure off else u) else s.mbrk (Reg.mckCnt32 1) 0x24 1 1))) ∧
    -- TIME_UNSYNC after holdover_s without a measurement (R970)
    (s.m.time.accAt + 1000000000 * s.g Reg.timeCfg Reg.timeCfg_holdover_s ≤ s.now → synced s = true →
      exec .timeUnsync s = .next ((s.p Reg.timeStatus Reg.timeStatus_sync 0).timeRaise 1))

/-! ## Observability, staging, debug, sensors -/

/-- Where the samples, the clears, the snapshots and the wardens' events complete. -/
def Obligations.ObservabilityCommandsComplete : Prop :=
  ∀ s : State, ∀ d : Die,
    -- PC_SAMPLE of a tile captures and traces; PC_SAMPLE of the wardens writes DOB_WARDEN_PC (R996)
    (∀ t : Tile, s.dieOn d = true → s.g (Reg.obsPcCfg d t) Reg.obsPcCfg_period_us ≠ 0 →
      exec (.pcSample d (some t)) s = .next ((s.pcCapture d t).trace d t 5 (stallCode s d t) (headMark s d t)
        (s.g (Reg.seqIssued d t) Reg.seqIssued_issued) (seqPcOf s d t)
        ((s.tile d t).waitReg.getD 0 % 2 ^ 14 + 2 ^ 16 * (s.tile d t).ops.length))) ∧
    (s.dieOn d = true → s.g (Reg.dobPcCfg d) Reg.dobPcCfg_period_us ≠ 0 →
      exec (.pcSample d none) s = .next (s.each (fun s w => s.wardenPc d w) (List.range 8))) ∧
    -- CLEAR64 and CLEAR32 of a block (R986); OPC_CLEAR and OPC_CFG_WRITE (R995); SAMPLE_GO (R993)
    (∀ (r : Requester) (b : CntBlock) (u : State), Accepted s r b.ctl u →
      exec (.clear64 r b) s = .next ((u.dropWords b.c64.1 b.c64.2).clearSat b.c32.1 b.c32.2) ∧
      exec (.clear32 r b) s = .next (u.dropWords b.c32.1 b.c32.2)) ∧
    (∀ (r : Requester) (t : Tile) (u : State),
      (Accepted s r (Reg.obsCtl d t) u → exec (.opcClear r d t) s =
        .next (u.setTile d t { u.tile d t with opc := List.replicate 4 (0, 0), opcOpen := false })) ∧
      (∀ v w : State, ∀ x : Word, Accepted s r (Reg.obsOpcCfg d t) u → fld x 32 3 < 6 →
        v = (u.p (Reg.obsOpcCfg d t) ⟨0, 32⟩ (fld x 0 32)).p (Reg.obsOpcCfg d t) Reg.obsOpcCfg_class (fld x 32 3) →
        w = v.setTile d t { v.tile d t with opc := List.replicate 4 (0, 0), opcOpen := false } →
        exec (.opcCfgWrite r d t x) s = .next w) ∧
      (Accepted s r (Reg.obsSample d t) u → exec (.sampleGo r d t) s = .next (u.sampleGo d t)) ∧
      -- SNAP_GO: one entry of each of the 83 units, and the time (R1012)
      (Accepted s r (Reg.dobCtl d) u → exec (.snapGo r d) s =
        .next ((u.each (fun x n => u.snapUnit d x n) (List.range 83)).wr (Reg.dobSnapTime d) (u.rd Reg.timeNow))) ∧
      -- DOB_RAISE of codes 0x3000 to 0x3007, with the four detail words (R1011)
      (∀ x : Word, ∀ n < 8, Accepted s r (Reg.dobRaise d) u → fld x 0 16 = 0x3000 + n →
        exec (.dobRaise r d x) s = .next (u.raise ⟨0x30, 0, n⟩ (.die d)
          { source := r.wardenNo, detail := (List.range 4).map (fun i => u.rd (Reg.dobRaiseDetail d i)) })))

/-- Where the staging operations, the distribution of an image and recovery mode complete. -/
def Obligations.StagingCommandsComplete : Prop :=
  ∀ s : State,
    -- the five ops of SEC_STAGE_CMD that R1030 does not refuse: busy rises (R1029, R1030)
    (∀ (r : Requester) (v : Word) (u w : State) (n op : Nat) (c : Instr), Accepted s r Reg.secStageCmd u →
      (c, op) ∈ [(.stageBegin r v, 1), (.stageBlock r v, 2), (.stageFinish r v, 3), (.stageActivate r v, 4),
        (.stageAbort r v, 5)] →
      n = fld (setFld v 0 3 op) 16 12 → w = u.p Reg.secStageCmd Reg.secStageCmd_block_no n → stageRefused w op n = false →
      exec c s = .next ((w.stageDo op n (stageWindow w)).secP Reg.secStatus_busy 1)) ∧
    -- STAGE_OP_END: busy falls, the result is written; a restart held by the op follows (R1029, R1031)
    (∀ (ok : Bool) (op blk c : Nat) (u v : State), s.m.sec.op = some (op, blk) → s.stageEnd op blk ok = (c, u) →
      v = u.fwStaged c →
      (v.m.boot.restart = none → exec (.stageOpEnd ok) s = .next v) ∧
      (v.m.boot.restart = some true → v.on Reg.secStatus Reg.secStatus_busy = false →
        exec (.stageOpEnd ok) s = .next (v.setBoot { v.m.boot with restart := none }).restartCold)) ∧
    (∀ (p : Port) (m : List Byte),
      -- FW_START is refused during a pitch, under a staging op and where the image already runs, else taken (R1032)
      (byteAt m 0 = 0x20 → wardensRun s = true →
        (pstate s ≠ 0 → exec (.fwStart p m) s = .next (s.scSend p (fwAck 0xFFFF 2))) ∧
        (∀ (l : List Nat) (u : State), pstate s = 0 → s.on Reg.secStatus Reg.secStatus_busy = false →
          slice m 5 32 ≠ headerDigest (imageBlock s (s.g Reg.secStatus Reg.secStatus_slot) 0) →
          l = fwPorts s (leAt m 2 2) (byteAt m 4) →
          u = s.setDist { DistS.reset with
            src := some p.val, origin := leAt m 2 2, dirs := byteAt m 4, digest := slice m 5 32,
            peers := l.map (fun q => { port := q, started := false, sent := 0, acked := 0, finished := false, stopped := false }) } →
          exec (.fwStart p m) s = .next ((u.scSend p (fwAck 0xFFFF 0)).each (fun s q => s.scSend q m) l))) ∧
      -- FW_DATA in order adds to the block, and stages it when it is whole (R1033, R1034)
      (byteAt m 0 = 0x22 → s.m.dist.src = some p.val → leAt m 2 2 = s.m.dist.staged + (if s.m.dist.op = some 1 then 1 else 0) →
        leAt m 4 2 = s.m.dist.buf.length → s.m.dist.buf.length < 4096 →
        exec (.fwData p m) s = .next (s.setDist { s.m.dist with
          buf := s.m.dist.buf ++ slice m 6 (min (byteAt m 1 - 4) (4096 - s.m.dist.buf.length)) }).fwStage) ∧
      -- FW_ACK of a receiver: 2 stops it; 0 of its next block advances it (R1033)
      (∀ (x : FwPeer) (y : FwPeer), byteAt m 0 = 0x21 → wardensRun s = true →
        s.m.dist.peers.find? (fun z => z.port == p.val) = some x →
        (byteAt m 4 = 2 → exec (.fwAck p m) s = .next (s.fwPeer p { x with stopped := true })) ∧
        (byteAt m 4 = 0 → leAt m 2 2 ≠ 0xFFFF → leAt m 2 2 = x.acked → y = { x with acked := x.acked + 1 } →
          exec (.fwAck p m) s = .next ((s.fwPeer p y).fwPump y 3))) ∧
      -- FW_DONE starts op 3 (R1034)
      (byteAt m 0 = 0x23 → s.m.dist.src = some p.val → stageRefused s 3 0 = false →
        ∃ u : State, exec (.fwDone p m) s = .next (u.setDist { u.m.dist with op := some 3 }) ∧
          u = (s.stageDo 3 0 []).secP Reg.secStatus_busy 1)) ∧
    -- HELLO, RECOVERY_BLOCK and ACTIVATE in recovery mode (R1037, R1038)
    (s.m.sec.recovery = true → ethUp s 0 = true → ∃ b : List Byte, exec .hello s = .next (s.ethEmit 0 (.recovery b) (b.length + 46)) ∧
      b = leBytes 2 0x51DF ++ leBytes 1 1 ++ [0] ++ serialBytes ++ (leBytes 1 s.m.sec.epoch ++ leBytes 4 (versionFloor s) ++
        leBytes 1 (s.g Reg.secStatus Reg.secStatus_cause_a) ++ leBytes 1 (s.g Reg.secStatus Reg.secStatus_cause_b))) ∧
    (∀ (m : List Byte) (n c : Nat) (u : State), recTakes s m 2 = true → n = leAt m 20 2 →
      s.stageWhole (if n = 0 then 1 else 2) n (padTo 0 4096 (m.drop 22)) true = (c, u) →
      exec (.recoveryBlock m) s = .next (u.recSend (recMsg 3 (leBytes 2 n ++ leBytes 1 c)))) ∧
    (∀ m : List Byte, recTakes s m 4 = true →
      exec (.activate m) s = .next ((s.stageWhole 3 0 [] true).2.stageWhole 4 0 [] true).2.restartCold)

/-- Where debug access and the JTAG instruction complete. -/
def Obligations.DebugCommandsComplete : Prop :=
  ∀ s : State,
    (∀ (r : Requester) (u : State), Accepted s r Reg.secDbgCtl u →
      -- DBG_NEW_CHAL: four fresh words, whose age is counted (R1045)
      (∀ v : State, v = u.drawWords (Reg.secDbgChal 0) 4 →
        exec (.dbgNewChal r) s = .next (v.setSec { v.m.sec with chalAt := some u.now })) ∧
      -- DBG_CHECK: the challenge is spent; three failures lock, a pass opens, another failure counts (R1045 to R1047)
      (∀ v : State, v = u.setSec { u.m.sec with chalAt := none } →
        exec (.dbgCheck r) s = .next (
          if 3 ≤ u.g Reg.secStatus Reg.secStatus_dbg_fails then (v.secRaise 9).secRaise 10
          else if dbgAllowed u = true ∧ dbgPasses u = true then (v.secP Reg.secStatus_dbg_open 1).secRaise 8
          else (v.secP Reg.secStatus_dbg_fails (u.g Reg.secStatus Reg.secStatus_dbg_fails + 1)).secRaise 9)) ∧
      -- DBG_PW_WRITE, once, by JTAG with debug access open (R1049)
      (u.on Reg.secDbgCtl Reg.secDbgCtl_method = true → u.m.sec.pwSet = false → u.jtagOpen = true →
        exec (.dbgPwWrite r) s = .next ((u.setSec { u.m.sec with
          pwSet := true, pwHash := shake32 (dbgResp u 32 ++ serialBytes) }).secP Reg.secStatus_pw_set 1))) ∧
    -- JTAG_INSTRUCTION: with debug access closed, EXTEST only in Standby without a pitch, every other than the public ones BYPASS (R1044)
    (∀ ir : JtagIr, exec (.jtagInstruction ir) s = .next (s.setSec { s.m.sec with
      ir := if s.jtagOpen = true then ir
        else match ir with
        | .extest => if s.m.st = .standby ∧ pstate s = 0 then .extest else .bypass
        | .other _ => .bypass
        | x => x }))

/-- Where the sensors, the connectors, the UART, the identity memory and the last pins complete. -/
def Obligations.SensorAndPinCommandsComplete : Prop :=
  ∀ s : State,
    -- SENSOR_SAMPLE: the coolant sensors, the dies, the HBM stacks, the board; then the limits are judged (R1066 to R1071)
    (∀ (x : SensorSet) (u v : State), s.m.st ≠ .off →
      u = ((((s.coolSample 0 x.inlet).coolSample 1 x.outlet).coolSample 2 x.loop).dieSample 0 x.dieA).dieSample 1 x.dieB →
      v = u.each (fun s n => s.p (Reg.mgtSensHbm (n / 8)) ⟨8 * (n % 8), 8⟩
        (match x.hbm[n]? with | some (some y) => min y 254 | _ => 0xFF)) (List.range 16) →
      exec (.sensorSample x) s = .next (v.each (fun s b => s.p Reg.mgtSensBoard ⟨16 * b, 16⟩
        (match x.board[b]? with | some (some y) => encS 16 y | _ => 0x8000)) (List.range 4)).coolJudge) ∧
    -- SENS_FLOW_LOW, SENS_COOLANT_HOT after a second beyond the limit, DIE_BLIND (R1068, R1069, R1072)
    (stood s.now s.m.sens.flow 1 = true → s.on Reg.mgtSensStatus Reg.mgtSensStatus_flow_low = false →
      exec .sensFlowLow s = .next ((s.p Reg.mgtSensStatus Reg.mgtSensStatus_flow_low 1).sensRaise 1)) ∧
    (stood s.now s.m.sens.inlet 1 = true → s.on Reg.mgtSensStatus Reg.mgtSensStatus_inlet_high = false →
      exec (.sensCoolantHot false) s = .next ((s.p Reg.mgtSensStatus Reg.mgtSensStatus_inlet_high 1).sensRaise 2)) ∧
    (stood s.now s.m.sens.outlet 1 = true → s.on Reg.mgtSensStatus Reg.mgtSensStatus_outlet_high = false →
      exec (.sensCoolantHot true) s = .next ((s.p Reg.mgtSensStatus Reg.mgtSensStatus_outlet_high 1).sensRaise 2)) ∧
    (∀ d : Die, s.dieOn d = true → s.g (Reg.mgtSensDie d) Reg.mgtSensDie_valid = 0 →
      exec (.dieBlind d) s = .next (s.p Reg.mgtSensStatus ⟨9 + d.val, 1⟩ 1).overtemp) ∧
    -- CABLE_PRESENT, CAGE_PRESENT, SENS_CONN_POWER (R1076 to R1079)
    (aonOn s = true → ∀ seated : Bool,
      (∀ p : Port, exec (.cablePresent p seated) s = .next (s.connSeat (.cable p) seated)) ∧
      (∀ (e : Fin 8) (hp : Bool) (u v : State), u = s.connSeat (.cage e) seated →
        v = u.setEth e { ethPort u e with lowPower := seated && hp } →
        exec (.cagePresent e seated hp) s = .next (if (seated && hp) = true then (v.ethDown e).ethRaise e 0 else v))) ∧
    (∀ (c : ConnId) (u : State), s.on Reg.mgtConn c.present = true → s.on Reg.mgtConn c.off = false →
      u = (s.p Reg.mgtConn c.off 1).sensRaise 3 →
      exec (.sensConnPower c) s = .next (match c with
        | .cable p => if u.dieOn (portDie p) = true then u.portDown p else u
        | .cage e => (u.ethDown e).ethRaise e 0)) ∧
    -- UART_REQUEST of 17 bytes that begin with 5Ah; I2C_READ in every module state (R1080 to R1082)
    (∀ m : List Byte, s.m.st ≠ .off → m.length = 17 → byteAt m 0 = 0x5A → exec (.uartRequest m) s = .next (s.uart m)) ∧
    (∀ (off : Byte) (n : Nat), exec (.i2cRead off n) s =
      .next (s.emit (.i2c ((List.range n).map (fun i => identBytes.getD ((off.toNat + i) % 256) 0))))) ∧
    -- ALWAYS_ON_OFF; SC_MESSAGE_SENT with nothing queued (R677)
    exec .alwaysOnOff s = .next s.toOff ∧
    (∀ p : Port, (s.port p).scq = [] →
      exec (.scMessageSent p) s = .next (s.p (Reg.lnkScCtl (portDie p) (portLoc p)) Reg.lnkScCtl_tx_busy 0))

/-! ## Numbers, bytes, codes and the address map -/

/-- R14 and R15: every row of the address map and of the SRAM span's layout. -/
def Obligations.AddressMapDecodes : Prop :=
  (∀ d < 2,
    (∀ x < 0x6000000000, rgnOf (0x6000000000 * d + x) = .hbm d x) ∧
    (∀ x < 0xB400000000, rgnOf (0x10000000000 + 0xB400000000 * d + x) = .tr2 d x) ∧
    (∀ t < 64, ∀ x < 0x1000000, rgnOf (0x400000000000 + 0x100000000 * d + 0x1000000 * t + x) =
      if x < 0x300000 then .sram d t x else if x < 0x400000 then .acc d t (x - 0x300000)
      else if x < 0x440000 then .wstore d t (x - 0x400000) else if x < 0x444000 then .trace d t (x - 0x440000)
      else .unmapped) ∧
    (∀ x < 0x2000000, rgnOf (0x400000000000 + 0x100000000 * d + 0x1000000 * 64 + x) = .pool d x) ∧
    (∀ t, 66 ≤ t → t < 256 → ∀ x < 0x1000000, rgnOf (0x400000000000 + 0x100000000 * d + 0x1000000 * t + x) = .unmapped) ∧
    (∀ x < 0x100000000, rgnOf (0x700000000000 + 0x100000000 * d + x) = .unmapped ∨
      ∃ l, rgnOf (0x700000000000 + 0x100000000 * d + x) = .reg l ∧ l.d = d ∧ l.blk.isModule = false)) ∧
  (∀ x < 0x600000, ∃ l, rgnOf (0x7F0000000000 + x) = .reg l ∧ l.blk.isModule = true) ∧
  (∀ a < 2 ^ 48, (0xC000000000 ≤ a ∧ a < 0x10000000000) ∨ (0x26800000000 ≤ a ∧ a < 0x400000000000) ∨
    (0x400200000000 ≤ a ∧ a < 0x700000000000) ∨ (0x700200000000 ≤ a ∧ a < 0x7F0000000000) ∨ 0x7F0000600000 ≤ a →
    rgnOf a = .unmapped)

/-- R22 to R24: where every register block begins, and what lies between the blocks. -/
def Obligations.RegisterBlocksDecode : Prop :=
  (∀ d < 2, ∀ t < 64, ∀ x < 0x1000,
    (∀ p ∈ [(0, Blk.fwd), (1, .bwd), (2, .cnv), (3, .wgh), (4, .seq), (5, .mem), (6, .cpy), (7, .obs), (8, .gen)],
      rgnOf (0x700000000000 + 0x100000000 * d + 0x10000 * t + 0x1000 * p.1 + x) = .reg ⟨p.2, d, t, x⟩) ∧
    (∀ k, 9 ≤ k → k < 16 → rgnOf (0x700000000000 + 0x100000000 * d + 0x10000 * t + 0x1000 * k + x) = .unmapped)) ∧
  (∀ d < 2, ∀ x, 0x400000 ≤ x → x < 0x1000000 → rgnOf (0x700000000000 + 0x100000000 * d + x) = .unmapped) ∧
  (∀ d < 2, ∀ x < 0x100000,
    ∀ p ∈ [(0, Blk.tly), (1, .upd), (2, .hbm), (3, .tr2), (4, .map), (5, .lnk), (6, .clr), (7, .prt), (8, .dcp), (9, .clk),
        (10, .dob)],
      rgnOf (0x700000000000 + 0x100000000 * d + 0x1000000 + 0x100000 * p.1 + x) = .reg ⟨p.2, d, 0, x⟩) ∧
  (∀ x < 0x100000, ∀ p ∈ [(0, Blk.pwr), (1, .eth), (2, .sec), (3, .mgt), (4, .mck), (5, .time)],
    rgnOf (0x7F0000000000 + 0x100000 * p.1 + x) = .reg ⟨p.2, 0, 0, x⟩)

/-- R37: the fields, limits and special encodings of the five floating formats. -/
def Obligations.FloatingFormatTable : Prop :=
  (f8e4 = ⟨4, 3, 7⟩ ∧ f8e5 = ⟨5, 2, 15⟩ ∧ bf16 = ⟨8, 7, 127⟩ ∧ f16 = ⟨5, 10, 15⟩ ∧ f32 = ⟨8, 23, 127⟩) ∧
  (f8e4.maxFin = 0x7E ∧ f8e5.maxFin = 0x7B ∧ bf16.maxFin = 0x7F7F ∧ f16.maxFin = 0x7BFF ∧ f32.maxFin = 0x7F7FFFFF) ∧
  ((f8e4.dec 0x7E).isFrac 448 1 = true ∧ (f8e4.dec 8).isFrac 1 (2 ^ 6) = true ∧ (f8e4.dec 1).isFrac 1 (2 ^ 9) = true) ∧
  ((f8e5.dec 0x7B).isFrac 57344 1 = true ∧ (f8e5.dec 4).isFrac 1 (2 ^ 14) = true ∧ (f8e5.dec 1).isFrac 1 (2 ^ 16) = true) ∧
  ((bf16.dec 0x7F7F).isFrac (255 * 2 ^ 120) 1 = true ∧ (bf16.dec 0x80).isFrac 1 (2 ^ 126) = true ∧ (bf16.dec 1).isFrac 1 (2 ^ 133) = true) ∧
  ((f16.dec 0x7BFF).isFrac 65504 1 = true ∧ (f16.dec 0x400).isFrac 1 (2 ^ 14) = true ∧ (f16.dec 1).isFrac 1 (2 ^ 24) = true) ∧
  ((f32.dec 0x7F7FFFFF).isFrac (16777215 * 2 ^ 104) 1 = true ∧ (f32.dec 0x800000).isFrac 1 (2 ^ 126) = true ∧
    (f32.dec 1).isFrac 1 (2 ^ 149) = true) ∧
  (∀ b < 256, f8e4.dec b = .nan ↔ b = 0x7F ∨ b = 0xFF) ∧ (∀ b < 256, ∀ s, f8e4.dec b ≠ .inf s) ∧
  (∀ f ∈ [f8e5, bf16, f16, f32], ∀ b, b < 2 ^ (f.sbit + 1) → b / 2 ^ f.M % 2 ^ f.X = 2 ^ f.X - 1 →
    f.dec b = if b % 2 ^ f.M = 0 then .inf (b.testBit f.sbit) else .nan)

/-- Every code of every floating format that is no NaN rounds to itself, in every mode and under every ovf_inf, with no
saturation: a value a format holds is never moved (R36, R42, R43). -/
def Obligations.FloatCodesRoundToThemselves : Prop :=
  ∀ f ∈ [f8e4, f8e5, bf16, f16, f32], ∀ b, b < 2 ^ (f.sbit + 1) → f.dec b ≠ .nan →
    ∀ (mode r : Nat) (ovf : Bool), mode < 3 → f.round mode r ovf false (f.dec b) = ⟨b, false, false⟩

/-- The three rounding modes on a quotient (R42, R43): nearest with ties to even, toward zero, and up exactly where the
draw lies below the fraction in 1/65536. -/
def Obligations.RoundingModes : Prop :=
  ∀ n d r q : Nat, 0 < d →
    (q = roundNat 0 r n d → 2 * (q * d) ≤ 2 * n + d ∧ 2 * n ≤ 2 * (q * d) + d ∧
      (2 * (q * d) = 2 * n + d ∨ 2 * n = 2 * (q * d) + d → q % 2 = 0)) ∧
    (q = roundNat 1 r n d → q * d ≤ n ∧ n < (q + 1) * d) ∧
    (q = roundNat 2 r n d → ∃ m f, n = m * d + f ∧ f < d ∧
      ((d * (r + 1) ≤ 65536 * f ∧ q = m + 1) ∨ (65536 * f < d * (r + 1) ∧ q = m)))

/-- Elements packed at 1, 2, 4, 8 or 16 bits read back where R34 and R35 put them, and all together. -/
def Obligations.PackedElementsReadBack : Prop :=
  ∀ b ∈ [1, 2, 4, 8, 16], ∀ es : List Nat, (∀ e ∈ es, e < 2 ^ b) → es.length * b % 8 = 0 →
    unpack (pack b es) b = es ∧ ∀ j (h : j < es.length), packedAt (pack b es) b j = es[j]

/-- R30: the integer readings, the values per quire and per sub-block. -/
def Obligations.IntegerReadings : Prop :=
  (∀ c < 2, reading 0 false c = c ∧ reading 0 true c = 2 * (c : Int) - 1) ∧
  (∀ c < 4, reading 1 false c = c ∧ reading 1 true c = if c < 2 then (c : Int) else (c : Int) - 4) ∧
  (reading 2 true 0 = 0 ∧ reading 2 true 1 = 1 ∧ reading 2 true 3 = -1 ∧ reading 2 true 2 = 0) ∧
  (∀ c < 16, reading 3 false c = c ∧ reading 3 true c = if c < 8 then (c : Int) else (c : Int) - 16) ∧
  (∀ c < 256, reading 4 false c = c ∧ reading 4 true c = if c < 128 then (c : Int) else (c : Int) - 256) ∧
  (∀ c < 65536, reading 5 false c = c ∧ reading 5 true c = if c < 32768 then (c : Int) else (c : Int) - 65536) ∧
  (∀ c < 16, reading 6 false c = c) ∧
  (List.range 7).map qVals = [512, 256, 256, 128, 64, 32, 128] ∧
  (List.range 7).map (fun f => qVals f / 8) = [64, 32, 32, 16, 8, 4, 16]

/-- R448: a code word of RS(36, 32), RS(68, 64) or RS(64, 60) with one bad byte, any byte and any error, is corrected; a
clean one shows no error. -/
def Obligations.SingleByteErrorsAreCorrected : Prop :=
  ∀ n ∈ [36, 68, 64], eccDecode n [] = .clean (List.replicate n 0) ∧
    ∀ j < n, ∀ x : Byte, x ≠ 0 → eccDecode n ((List.replicate n 0).set j x) = .corrected (List.replicate n 0)

/-- R3: a value's little-endian bytes read back as the value, and bytes as themselves. -/
def Obligations.LittleEndianReadsBack : Prop :=
  (∀ n v : Nat, (leBytes n v).length = n ∧ leNat (leBytes n v) = v % 256 ^ n) ∧
  (∀ bs : List Byte, leBytes bs.length (leNat bs) = bs) ∧
  (∀ (n v i : Nat), i < n → byteAt (leBytes n v) i = v / 256 ^ i % 256)

/-! ## Rules of the machine as a whole -/

/-- R984: a 32-bit counter holds at its end, sets sat, and raises EV_CNT_SAT as sat rises, and only then. The counter of
dropped log records counts inside the log itself (DEDUCED, log entry 23) and is left out. -/
def Obligations.CountersSaturateOnce : Prop :=
  ∀ (s t : State) (n a : Nat), 0 < n →
    -- die counters, event in DOB_EVENTS
    (∀ d < 2, ∀ j < 119, a = Reg.dobCnt32 d j → t = s.dbrk d j n →
      fld (t.rd a) 0 32 = min (fld (s.rd a) 0 32 + n) 0xFFFFFFFF ∧
      fld (t.rd a) 32 1 = (if 0xFFFFFFFF < fld (s.rd a) 0 32 + n then 1 else fld (s.rd a) 32 1) ∧
      (if fld (s.rd a) 32 1 = 0 ∧ 0xFFFFFFFF < fld (s.rd a) 0 32 + n then (t.rd (Reg.dobEvents d)).getLsbD 5 = true
        else t = s.inc32 a n)) ∧
    -- counters of the PWR, ETH and MCK blocks, event in DOB_EVENTS of die A
    (∀ j b, ((a = Reg.pwrCnt32 j ∧ j < 4) ∨ (a = Reg.ethCnt32 j ∧ j < 3) ∨ (a = Reg.mckCnt32 j ∧ j < 2)) →
      t = s.mbrk a b j n →
      fld (t.rd a) 0 32 = min (fld (s.rd a) 0 32 + n) 0xFFFFFFFF ∧
      fld (t.rd a) 32 1 = (if 0xFFFFFFFF < fld (s.rd a) 0 32 + n then 1 else fld (s.rd a) 32 1) ∧
      (if fld (s.rd a) 32 1 = 0 ∧ 0xFFFFFFFF < fld (s.rd a) 0 32 + n then (t.rd (Reg.dobEvents 0)).getLsbD 5 = true
        else t = s.inc32 a n))

/-- R986: clear64 and clear32 set every counter of that width and every sat bit of the block to 0, and no other register,
byte or unit changes. -/
def Obligations.ClearsZeroTheCounters : Prop :=
  ∀ (s u : State) (r : Requester) (b : CntBlock), Accepted s r b.ctl u →
    (∃ t, exec (.clear64 r b) s = .next t ∧ (∀ i < b.c64.2, t.rd (b.c64.1 + 8 * i) = 0) ∧
      (∀ j < b.c32.2, fld (t.rd (b.c32.1 + 8 * j)) 32 1 = 0 ∧
        fld (t.rd (b.c32.1 + 8 * j)) 0 32 = fld (u.rd (b.c32.1 + 8 * j)) 0 32) ∧
      (∀ a, ¬ (b.c64.1 ≤ a ∧ a < b.c64.1 + 8 * b.c64.2) → ¬ (b.c32.1 ≤ a ∧ a < b.c32.1 + 8 * b.c32.2) →
        t.rd a = u.rd a) ∧ t = { u with regs := t.regs }) ∧
    (∃ t, exec (.clear32 r b) s = .next t ∧ (∀ j < b.c32.2, t.rd (b.c32.1 + 8 * j) = 0) ∧
      (∀ a, ¬ (b.c32.1 ≤ a ∧ a < b.c32.1 + 8 * b.c32.2) → t.rd a = u.rd a) ∧ t = { u with regs := t.regs })

/-- R378: a tally takes the sum, or the nearest end of 0 to FFFF_FFFFh with EV_TLY_RANGE. -/
def Obligations.TallyAddsStayInRange : Prop :=
  ∀ (s t : State) (d n : Nat) (amount x : Int), d < 2 → n < 16384 → t = s.tallyDoAdd d n amount →
    x = (tVal s d n : Int) + amount →
    (x < 0 → tVal t d n = 0 ∧ (t.rd (Reg.tlyEvents d)).getLsbD 0 = true) ∧
    (0xFFFFFFFF < x → tVal t d n = 0xFFFFFFFF ∧ (t.rd (Reg.tlyEvents d)).getLsbD 0 = true) ∧
    (0 ≤ x → x ≤ 0xFFFFFFFF → (tVal t d n : Int) = x ∧ t = s.p (Reg.tlyState d n) Reg.tlyState_value x.toNat)

/-- R421: a handover write of mode 0b01 or 0b10 while one is pending writes nothing, returns an access error and raises
EV_MEM_HAND_BUSY. -/
def Obligations.PendingHandoversRefuseAnother : Prop :=
  ∀ (s u : State) (r : Requester) (d : Die) (t : Tile) (b : BankIx) (v : Word),
    Accepted s r (Reg.memBankHand d t b) u → u.on (Reg.memBankHand d t b) Reg.memBankHand_pending = true →
    exec (.bankHandNow r d t b v) s = .next ((u.raise ⟨0x06, 0, 3⟩ (.tile d t)).answer (.error .handBusy)) ∧
    exec (.bankHandOnTally r d t b v) s = .next ((u.raise ⟨0x06, 0, 3⟩ (.tile d t)).answer (.error .handBusy))

/-- R965: TIME_STEP sets the time before the first synchronisation; afterwards it sets nothing, returns an access error
and raises EV_TIME_STEP_REFUSED. -/
def Obligations.TimeStepsOnlyBeforeSync : Prop :=
  ∀ (s u : State) (r : Requester) (v : Word), Accepted s r Reg.timeStep u →
    (u.on Reg.timeStatus Reg.timeStatus_sync_ever = false → ∃ t, exec (.timeStep r v) s = .next t ∧
      t.rd Reg.timeNow = v ∧ t.rd Reg.timeFrac = 0 ∧ ∀ a, a ≠ Reg.timeNow → a ≠ Reg.timeFrac → t.rd a = u.rd a) ∧
    (u.on Reg.timeStatus Reg.timeStatus_sync_ever = true → ∃ t, exec (.timeStep r v) s = .next t ∧
      t.rd Reg.timeNow = u.rd Reg.timeNow ∧ t.rd Reg.timeFrac = u.rd Reg.timeFrac ∧ t.reply = .error .busy ∧
      (t.rd Reg.timeEvents).getLsbD 2 = true)

/-- R1049: pw_write fuses the password's hash once, with method 1 and debug access open, and has no effect once pw_set
is 1. -/
def Obligations.DebugPasswordIsFusedOnce : Prop :=
  ∀ (s u : State) (r : Requester), Accepted s r Reg.secDbgCtl u →
    (u.on Reg.secDbgCtl Reg.secDbgCtl_method = true → u.m.sec.pwSet = false →
      u.on Reg.secStatus Reg.secStatus_dbg_open = true → ∃ t, exec (.dbgPwWrite r) s = .next t ∧ t.m.sec.pwSet = true ∧
      t.m.sec.pwHash = shake32 (dbgResp u 32 ++ serialBytes) ∧ t.on Reg.secStatus Reg.secStatus_pw_set = true) ∧
    (u.m.sec.pwSet = true → exec (.dbgPwWrite r) s = .next u) ∧
    (u.on Reg.secStatus Reg.secStatus_dbg_open = false → exec (.dbgPwWrite r) s = .next u)

/-- R17 to R19: an access to an unmapped address, to a region that R16 does not give, or to a die that is off, writes
nothing, is answered by an access error, and raises its event in the DOB block of the die concerned (DEDUCED, log entry 13). -/
def Obligations.RefusedAccessesWriteNothing : Prop :=
  ∀ (s : State) (r : Requester) (q : Access) (d : Nat), 0 < q.bytes → d = errDie r (rgnOf q.addr.toNat) →
    (rgnOf q.addr.toNat = .unmapped → ∃ u, exec (.memoryAccess r q none) s = .next (u.answer (.error .unmapped)) ∧
      Logged s u d [] ∧ (u.rd (Reg.dobEvents d)).getLsbD 2 = true) ∧
    (rgnOf q.addr.toNat ≠ .unmapped → reaches s r (rgnOf q.addr.toNat) = false →
      ∃ u, exec (.memoryAccess r q none) s = .next (u.answer (.error .denied)) ∧
      Logged s u d [] ∧ (u.rd (Reg.dobEvents d)).getLsbD 3 = true) ∧
    (reaches s r (rgnOf q.addr.toNat) = true → (rgnOf q.addr.toNat).die = some d → s.dieOn d = false →
      ∃ u, exec (.memoryAccess r q none) s = .next (u.answer (.error .unreachable)) ∧
      Logged s u d [] ∧ (u.rd (Reg.dobEvents d)).getLsbD 4 = true)

/-- R5: a register access that no earlier check refuses, narrower than 64 bits or not aligned to 8 bytes, writes nothing,
returns an access error and raises EV_REG_ACCESS. -/
def Obligations.NarrowRegisterAccessesAreRefused : Prop :=
  ∀ (s : State) (r : Requester) (a : Addr) (n d : Nat) (v : Word) (l : RegLoc), rgnOf a.toNat = .reg l →
    d = errDie r (.reg l) → n ≠ 8 ∨ a.toNat % 8 ≠ 0 →
    (checkAccess s r true a.toNat = none → ∃ u, exec (.registerWrite r a n v) s = .next (u.answer (.error .regAccess)) ∧
      Logged s u d [] ∧ (u.rd (Reg.dobEvents d)).getLsbD 0 = true) ∧
    (∀ q : Access, q.write = false → q.addr = a → q.len = n → checkAccess s r false a.toNat = none →
      ∃ u, exec (.memoryAccess r q none) s = .next (u.answer (.error .regAccess)) ∧
      Logged s u d [] ∧ (u.rd (Reg.dobEvents d)).getLsbD 0 = true)

/-- The reset values of the register tables, one register of every block that resets any field to other than 0. -/
def Obligations.ResetRegisterValues : Prop :=
  ∀ d ∈ [0, 1], ∀ t ∈ [0, 63],
    State.reset.g (Reg.seqCtl d t) Reg.seqCtl_sleep_delay = 32 ∧ State.reset.g (Reg.memBankOwn d t 0) Reg.memBankOwn_kind = 4 ∧
    State.reset.g (Reg.cpyCfg d t) Reg.cpyCfg_retry_max = 3 ∧ State.reset.g (Reg.wghNormCfg d t) Reg.wghNormCfg_jump_lg = 768 ∧
    State.reset.g (Reg.updCfg d) Reg.updCfg_wg_gap = 10 ∧ State.reset.g (Reg.mapCtl d) Reg.mapCtl_scrub_hours = 24 ∧
    State.reset.g (Reg.lnkCfg d) Reg.lnkCfg_ack_timeout_us = 1000 ∧ State.reset.g (Reg.lnkCfg d) Reg.lnkCfg_ttl_init = 63 ∧
    State.reset.g (Reg.lnkHbCfg d) Reg.lnkHbCfg_hb_us = 100 ∧ State.reset.g (Reg.clrCfg d) Reg.clrCfg_level_us = 20 ∧
    State.reset.g (Reg.clkFreq d) Reg.clkFreq_arr_mhz = 1000 ∧ State.reset.g (Reg.clkFreq d) Reg.clkFreq_fab_mhz = 1200 ∧
    State.reset.g Reg.pwrCtl Reg.pwrCtl_cap_w = 2400 ∧ State.reset.g Reg.pwrCtl Reg.pwrCtl_peak_w = 2760 ∧
    State.reset.g Reg.pwrStretch Reg.pwrStretch_k_m = 16 ∧ State.reset.g Reg.ethPitchCfg Reg.ethPitchCfg_window_ms = 2000 ∧
    State.reset.g Reg.ethTollCfg Reg.ethTollCfg_ckpt_s = 60 ∧ State.reset.g Reg.mgtIdent Reg.mgtIdent_stepping = 0xB0 ∧
    State.reset.g Reg.mckRefCfg Reg.mckRefCfg_ref_ppm = 50 ∧ State.reset.g Reg.timeCfg Reg.timeCfg_sync_ns = 1000 ∧
    State.reset.rd Reg.timeNow = 0 ∧ State.reset.rd (Reg.tlyState d 0) = 0 ∧ State.reset.rd (Reg.fwdCtl d t) = 0

/-! ## Frames -/

/-- What the commands of the power stage, the reference, the time base, debug access, staging and the sensors leave
alone: every tile, die, port and waiting access, every die register outside die A's log, and every byte of memory outside
die A's log ring. -/
def Obligations.ModuleCommandsLeaveTheDiesAlone : Prop :=
  ∀ (s t : State) (r : Requester) (v : Word) (f : Fin 2) (n : Nat) (x : Telem) (y : SensorSet) (p : Port) (b : Bool)
    (i : JtagIr) (o : Byte) (rl : Fin 17) (dd : Die) (c : Instr),
    c ∈ [.feedLost f, .feedRestored f, .feedReverse f, .feedReclose f, .surge, .shellWatchdog, .senseOpen rl, .managerStep,
      .limitFloor, .droopRelease dd, .telemetrySample x, .freqWindow n, .clkoutWrite r v, .timeStep r v, .timeSlew r v,
      .timeUnsync, .dbgNewChal r, .dbgCheck r, .dbgPwWrite r, .jtagInstruction i, .sensorSample y, .sensFlowLow,
      .sensCoolantHot b, .cablePresent p b, .i2cRead o n, .stageBegin r v, .stageBlock r v, .stageFinish r v,
      .stageActivate r v, .stageAbort r v] →
    exec c s = .next t → Quiet s t

/-- What an accepted write of a counter, operation-counter, sample, snapshot, invalidation, range or repair register leaves
alone, beside the state the write acts on: every byte of memory, every port, the module's own part, what was sent, and
every tile but the one written. -/
def Obligations.DieRegisterWritesLeaveMemoryAlone : Prop :=
  ∀ (s u t : State) (r : Requester) (d : Die) (k : Tile) (b : CntBlock) (v : Word) (n : Fin 256) (a : Nat) (c : Instr),
    (c, a) ∈ [(.clear64 r b, b.ctl), (.clear32 r b, b.ctl), (.opcClear r d k, Reg.obsCtl d k),
      (.sampleGo r d k, Reg.obsSample d k), (.snapGo r d, Reg.dobCtl d), (.memInvalidate r d k v, Reg.memInvalidate d k),
      (.mapRegionWrite r d n false v, Reg.mapRegionRange d n), (.mapRepairPop r d, Reg.mapRepairStat d)] →
    Accepted s r a u → exec c s = .next t →
    (∀ x, t.byte x = u.byte x) ∧ t.valid = u.valid ∧ t.ports = u.ports ∧ t.m = u.m ∧ t.out = u.out ∧ t.waiting = u.waiting ∧
      (∀ e j, (e, j) ≠ (d.val, k.val) → j < 64 → t.tile e j = u.tile e j)

/-- A write inside one on-chip line that every check lets pass and that need not wait stores its bytes from its address on,
makes the line valid, is acknowledged, and changes no other byte and no register or unit; a read inside a valid line
returns the bytes stored and changes nothing but the answer (R406, R428, R437). -/
def Obligations.OnChipAccessesStoreAndRead : Prop :=
  ∀ (s : State) (r : Requester) (q : Access) (a : Nat), a = q.addr.toNat → q.upset = [] → q.linkErr = 0 → 0 < q.bytes →
    a % 64 + q.bytes ≤ 64 → (∀ d o, rgnOf a ≠ .hbm d o) → (∀ d o, rgnOf a ≠ .tr2 d o) → (∀ l, rgnOf a ≠ .reg l) →
    (∀ d t, (rgnOf a).tile = some (d, t) → (s.tile d t).gated = false) → mustWait s q = none →
    (q.write = true → fullCheck s r true a q.bytes = none → ∃ t, exec (.memoryAccess r q none) s = .next t ∧
      (∀ i (h : i < q.data.length), t.byte (a + i) = q.data[i]) ∧
      (∀ x, ¬ (a ≤ x ∧ x < a + q.data.length) → t.byte x = s.byte x) ∧ t.lineValid (a / 64) = true ∧
      t.reply = .ack ∧ t = { s with mem := t.mem, valid := t.valid, reply := .ack }) ∧
    (q.write = false → fullCheck s r false a q.bytes = none → fullCheck s r false (a - a % 64) 64 = none →
      s.lineValid (a / 64) = true →
      exec (.memoryAccess r q none) s = .next (s.answer (.data ((List.range q.len).map (fun i => s.byte (a + i))))))
end

