-- ==== Sys2Proof/Laws/SMap.lean ====
section
/-! SUPPORT. The laws of sparse maps: a read after a write, and the canonical form that every operation keeps. -/

namespace Sys2Proof.Machine

variable {α : Type}

theorem SMap.get_erase_same (d : Nat → α) (k : Nat) : ∀ m, SMap.get d (SMap.erase m k) k = d k
  | [] => rfl
  | (k', v) :: m => by
    by_cases h : k' = k
    · simp only [SMap.erase, h, if_true]; exact SMap.get_erase_same d k m
    · simp only [SMap.erase, h, if_false, SMap.get]; exact SMap.get_erase_same d k m

theorem SMap.get_erase_ne (d : Nat → α) {k j : Nat} (hj : j ≠ k) : ∀ m, SMap.get d (SMap.erase m k) j = SMap.get d m j
  | [] => rfl
  | (k', v) :: m => by
    have ih := SMap.get_erase_ne d hj m
    by_cases h : k' = k
    · have h' : ¬ k = j := fun e => hj e.symm
      simp only [SMap.erase, h, if_true, SMap.get, h', if_false, ih]
    · simp only [SMap.erase, h, if_false, SMap.get, ih]

theorem SMap.get_ins (d : Nat → α) (k : Nat) (v : α) (j : Nat) : ∀ m : List (Nat × α), (∀ x ∈ m, x.1 ≠ k) →
    SMap.get d (SMap.ins m k v) j = if k = j then v else SMap.get d m j
  | [], _ => rfl
  | (k', v') :: m, h => by
    have ih := SMap.get_ins d k v j m (fun x hx => h x (List.mem_cons_of_mem _ hx))
    have hk : k' ≠ k := h (k', v') List.mem_cons_self
    simp only [SMap.ins]
    split
    · rfl
    · simp only [SMap.get, ih]
      by_cases h1 : k' = j
      · have : ¬ k = j := fun e => hk (h1.trans e.symm)
        simp [h1, this]
      · simp [h1]

theorem SMap.mem_erase {k : Nat} {x : Nat × α} : ∀ {m : List (Nat × α)}, x ∈ SMap.erase m k → x ∈ m ∧ x.1 ≠ k
  | [], h => by cases h
  | (k', v) :: m, h => by
    simp only [SMap.erase] at h
    split at h
    · exact ⟨List.mem_cons_of_mem _ (SMap.mem_erase h).1, (SMap.mem_erase h).2⟩
    · rcases List.mem_cons.1 h with rfl | h'
      · exact ⟨List.mem_cons_self, by assumption⟩
      · exact ⟨List.mem_cons_of_mem _ (SMap.mem_erase h').1, (SMap.mem_erase h').2⟩

/-- A read of the key just written gives the value written. -/
@[simp] theorem SMap.get_set_same [DecidableEq α] (d : Nat → α) (m : List (Nat × α)) (k : Nat) (v : α) :
    SMap.get d (SMap.set d m k v) k = v := by
  unfold SMap.set
  split
  · rw [SMap.get_erase_same, ‹v = d k›]
  · rw [SMap.get_ins d k v k _ (fun x hx => (SMap.mem_erase hx).2), if_pos rfl]

/-- A write leaves every other key alone. -/
theorem SMap.get_set_ne [DecidableEq α] (d : Nat → α) (m : List (Nat × α)) {k j : Nat} (h : j ≠ k) (v : α) :
    SMap.get d (SMap.set d m k v) j = SMap.get d m j := by
  unfold SMap.set
  split
  · exact SMap.get_erase_ne d h m
  · rw [SMap.get_ins d k v j _ (fun x hx => (SMap.mem_erase hx).2), if_neg (fun e => h e.symm),
      SMap.get_erase_ne d h m]

theorem SMap.get_set [DecidableEq α] (d : Nat → α) (m : List (Nat × α)) (k j : Nat) (v : α) :
    SMap.get d (SMap.set d m k v) j = if j = k then v else SMap.get d m j := by
  by_cases h : j = k
  · subst h; simp
  · simp [h, SMap.get_set_ne d m h]

/-- Unlisting keys puts them at their default. -/
theorem SMap.get_drop (d : Nat → α) (p : Nat → Bool) (j : Nat) : ∀ m : List (Nat × α),
    SMap.get d (SMap.drop p m) j = if p j then d j else SMap.get d m j
  | [] => by simp [SMap.drop, SMap.get]
  | (k, v) :: m => by
    have ih := SMap.get_drop d p j m
    simp only [SMap.drop] at ih ⊢
    by_cases hk : p k = true
    · simp only [List.filter_cons, hk, Bool.not_true, Bool.false_eq_true, if_false, ih, SMap.get]
      by_cases h : k = j
      · subst h; simp [hk]
      · simp [h]
    · simp only [List.filter_cons, hk, Bool.not_false, if_true, SMap.get, ih]
      by_cases h : k = j
      · subst h; simp [hk]
      · simp [h]

theorem SMap.sortedFrom_mono : ∀ {lo lo' : Nat} {m : List (Nat × α)}, lo' ≤ lo → SMap.sortedFrom lo m = true →
    SMap.sortedFrom lo' m = true
  | _, _, [], _, _ => rfl
  | lo, lo', (k, v) :: m, h, hs => by
    simp only [SMap.sortedFrom, Bool.and_eq_true, decide_eq_true_eq] at hs ⊢
    exact ⟨h.trans hs.1, hs.2⟩

theorem SMap.sortedFrom_erase (k : Nat) : ∀ {lo : Nat} {m : List (Nat × α)}, SMap.sortedFrom lo m = true →
    SMap.sortedFrom lo (SMap.erase m k) = true
  | _, [], _ => rfl
  | lo, (k', v) :: m, hs => by
    simp only [SMap.sortedFrom, Bool.and_eq_true, decide_eq_true_eq] at hs
    have ih := SMap.sortedFrom_erase k hs.2
    simp only [SMap.erase]
    split
    · exact SMap.sortedFrom_mono (by omega) ih
    · simp only [SMap.sortedFrom, Bool.and_eq_true, decide_eq_true_eq]; exact ⟨hs.1, ih⟩

theorem SMap.sortedFrom_ins (k : Nat) (v : α) : ∀ {lo : Nat} {m : List (Nat × α)}, SMap.sortedFrom lo m = true →
    lo ≤ k → (∀ x ∈ m, x.1 ≠ k) → SMap.sortedFrom lo (SMap.ins m k v) = true
  | _, [], _, h, _ => by simp [SMap.ins, SMap.sortedFrom, h]
  | lo, (k', v') :: m, hs, h, hne => by
    simp only [SMap.sortedFrom, Bool.and_eq_true, decide_eq_true_eq] at hs
    have hk : k' ≠ k := hne (k', v') List.mem_cons_self
    simp only [SMap.ins]
    split
    · simp only [SMap.sortedFrom, Bool.and_eq_true, decide_eq_true_eq]; exact ⟨h, by omega, hs.2⟩
    · simp only [SMap.sortedFrom, Bool.and_eq_true, decide_eq_true_eq]
      exact ⟨hs.1, SMap.sortedFrom_ins k v hs.2 (by omega) (fun x hx => hne x (List.mem_cons_of_mem _ hx))⟩

theorem SMap.mem_ins {k : Nat} {v : α} {x : Nat × α} : ∀ {m : List (Nat × α)}, x ∈ SMap.ins m k v → x = (k, v) ∨ x ∈ m
  | [], h => .inl (List.mem_singleton.1 h)
  | (k', v') :: m, h => by
    simp only [SMap.ins] at h
    split at h
    · exact (List.mem_cons.1 h)
    · rcases List.mem_cons.1 h with rfl | h'
      · exact .inr List.mem_cons_self
      · exact (SMap.mem_ins h').imp id (List.mem_cons_of_mem _)

/-- A write keeps the canonical form. -/
theorem SMap.wf_set [DecidableEq α] {d : Nat → α} {m : List (Nat × α)} (h : SMap.wf d m = true) (k : Nat) (v : α) :
    SMap.wf d (SMap.set d m k v) = true := by
  simp only [SMap.wf, Bool.and_eq_true, List.all_eq_true, decide_eq_true_eq] at h ⊢
  have he : ∀ x ∈ SMap.erase m k, x.2 ≠ d x.1 := fun x hx => h.2 x (SMap.mem_erase hx).1
  unfold SMap.set
  split
  · exact ⟨SMap.sortedFrom_erase k h.1, he⟩
  · refine ⟨SMap.sortedFrom_ins k v (SMap.sortedFrom_erase k h.1) (Nat.zero_le _) (fun x hx => (SMap.mem_erase hx).2), ?_⟩
    intro x hx
    rcases SMap.mem_ins hx with rfl | hx'
    · assumption
    · exact he x hx'

theorem SMap.sortedFrom_drop (p : Nat → Bool) : ∀ {lo : Nat} {m : List (Nat × α)}, SMap.sortedFrom lo m = true →
    SMap.sortedFrom lo (SMap.drop p m) = true
  | _, [], _ => rfl
  | lo, (k, v) :: m, hs => by
    simp only [SMap.sortedFrom, Bool.and_eq_true, decide_eq_true_eq] at hs
    have ih := SMap.sortedFrom_drop p hs.2
    simp only [SMap.drop, List.filter_cons] at ih ⊢
    split
    · simp only [SMap.sortedFrom, Bool.and_eq_true, decide_eq_true_eq]; exact ⟨hs.1, ih⟩
    · exact SMap.sortedFrom_mono (by omega) ih

/-- Unlisting keys keeps the canonical form. -/
theorem SMap.wf_drop [DecidableEq α] {d : Nat → α} {m : List (Nat × α)} (h : SMap.wf d m = true) (p : Nat → Bool) :
    SMap.wf d (SMap.drop p m) = true := by
  simp only [SMap.wf, Bool.and_eq_true, List.all_eq_true, decide_eq_true_eq] at h ⊢
  exact ⟨SMap.sortedFrom_drop p h.1, fun x hx => h.2 x (List.mem_filter.1 hx).1⟩

theorem SMap.get_below (d : Nat → α) {k : Nat} : ∀ {lo : Nat} {m : List (Nat × α)}, SMap.sortedFrom lo m = true →
    k < lo → SMap.get d m k = d k
  | _, [], _, _ => rfl
  | lo, (k', v) :: m, hs, h => by
    simp only [SMap.sortedFrom, Bool.and_eq_true, decide_eq_true_eq] at hs
    have : ¬ k' = k := by omega
    simp only [SMap.get, this, if_false]
    exact SMap.get_below d hs.2 (by omega)

theorem SMap.ext_from (d : Nat → α) : ∀ {lo : Nat} {m n : List (Nat × α)}, SMap.sortedFrom lo m = true →
    SMap.sortedFrom lo n = true → (∀ x ∈ m, x.2 ≠ d x.1) → (∀ x ∈ n, x.2 ≠ d x.1) →
    (∀ k, SMap.get d m k = SMap.get d n k) → m = n
  | _, [], [], _, _, _, _, _ => rfl
  | _, [], (k, v) :: n, _, _, _, hn, h => by
    have := h k
    simp only [SMap.get, if_true] at this
    exact absurd this.symm (hn (k, v) List.mem_cons_self)
  | _, (k, v) :: m, [], _, _, hm, _, h => by
    have := h k
    simp only [SMap.get, if_true] at this
    exact absurd this (hm (k, v) List.mem_cons_self)
  | lo, (k, v) :: m, (j, w) :: n, sm, sn, hm, hn, h => by
    simp only [SMap.sortedFrom, Bool.and_eq_true, decide_eq_true_eq] at sm sn
    have hv := hm (k, v) List.mem_cons_self
    have hw := hn (j, w) List.mem_cons_self
    have hk := h k
    have hj := h j
    simp only [SMap.get, if_true] at hk hj
    have e : k = j := by
      rcases Nat.lt_trichotomy k j with l | l | l
      · rw [if_neg (by omega), SMap.get_below d sn.2 (by omega)] at hk; exact absurd hk hv
      · exact l
      · rw [if_neg (by omega), SMap.get_below d sm.2 (by omega)] at hj; exact absurd hj.symm hw
    subst e
    simp only [if_true] at hk
    subst hk
    rw [SMap.ext_from d sm.2 sn.2 (fun x hx => hm x (List.mem_cons_of_mem _ hx))
      (fun x hx => hn x (List.mem_cons_of_mem _ hx)) (fun i => by
        by_cases hi : k = i
        · subst hi; rw [SMap.get_below d sm.2 (by omega), SMap.get_below d sn.2 (by omega)]
        · have := h i
          simpa only [SMap.get, hi, if_false] using this)]

/-- Canonical maps that read alike are equal. -/
theorem SMap.ext [DecidableEq α] {d : Nat → α} {m n : List (Nat × α)} (hm : SMap.wf d m = true)
    (hn : SMap.wf d n = true) (h : ∀ k, SMap.get d m k = SMap.get d n k) : m = n := by
  simp only [SMap.wf, Bool.and_eq_true, List.all_eq_true, decide_eq_true_eq] at hm hn
  exact SMap.ext_from d hm.1 hn.1 hm.2 hn.2 h

end Sys2Proof.Machine
end

