-- ==== Sys2Proof/Laws/State.lean ====
section
/-! SUPPORT. What each named update does to each part of the state, and the read after it. -/

namespace Sys2Proof.Machine

variable (s : State)

@[simp] theorem State.wr_mem (a : Nat) (w : Word) : (s.wr a w).mem = s.mem := rfl
@[simp] theorem State.wr_valid (a : Nat) (w : Word) : (s.wr a w).valid = s.valid := rfl
@[simp] theorem State.wr_regs (a : Nat) (w : Word) : (s.wr a w).regs = SMap.set resetWord s.regs a w := rfl
@[simp] theorem State.wr_flaws (a : Nat) (w : Word) : (s.wr a w).flaws = s.flaws := rfl
@[simp] theorem State.wr_loose (a : Nat) (w : Word) : (s.wr a w).loose = s.loose := rfl
@[simp] theorem State.wr_tiles (a : Nat) (w : Word) : (s.wr a w).tiles = s.tiles := rfl
@[simp] theorem State.wr_dies (a : Nat) (w : Word) : (s.wr a w).dies = s.dies := rfl
@[simp] theorem State.wr_ports (a : Nat) (w : Word) : (s.wr a w).ports = s.ports := rfl
@[simp] theorem State.wr_m (a : Nat) (w : Word) : (s.wr a w).m = s.m := rfl
@[simp] theorem State.wr_waiting (a : Nat) (w : Word) : (s.wr a w).waiting = s.waiting := rfl
@[simp] theorem State.wr_out (a : Nat) (w : Word) : (s.wr a w).out = s.out := rfl
@[simp] theorem State.wr_reply (a : Nat) (w : Word) : (s.wr a w).reply = s.reply := rfl
@[simp] theorem State.wr_free (a : Nat) (w : Word) : (s.wr a w).free = s.free := rfl
@[simp] theorem State.wr_pending (a : Nat) (w : Word) : (s.wr a w).pending = s.pending := rfl

@[simp] theorem State.setTile_mem (d t : Nat) (x : TileS) : (s.setTile d t x).mem = s.mem := rfl
@[simp] theorem State.setTile_valid (d t : Nat) (x : TileS) : (s.setTile d t x).valid = s.valid := rfl
@[simp] theorem State.setTile_regs (d t : Nat) (x : TileS) : (s.setTile d t x).regs = s.regs := rfl
@[simp] theorem State.setTile_flaws (d t : Nat) (x : TileS) : (s.setTile d t x).flaws = s.flaws := rfl
@[simp] theorem State.setTile_loose (d t : Nat) (x : TileS) : (s.setTile d t x).loose = s.loose := rfl
@[simp] theorem State.setTile_tiles (d t : Nat) (x : TileS) :
     (s.setTile d t x).tiles = SMap.set (fun _ => TileS.reset) s.tiles (tileKey d t) x := rfl
@[simp] theorem State.setTile_dies (d t : Nat) (x : TileS) : (s.setTile d t x).dies = s.dies := rfl
@[simp] theorem State.setTile_ports (d t : Nat) (x : TileS) : (s.setTile d t x).ports = s.ports := rfl
@[simp] theorem State.setTile_m (d t : Nat) (x : TileS) : (s.setTile d t x).m = s.m := rfl
@[simp] theorem State.setTile_waiting (d t : Nat) (x : TileS) : (s.setTile d t x).waiting = s.waiting := rfl
@[simp] theorem State.setTile_out (d t : Nat) (x : TileS) : (s.setTile d t x).out = s.out := rfl
@[simp] theorem State.setTile_reply (d t : Nat) (x : TileS) : (s.setTile d t x).reply = s.reply := rfl
@[simp] theorem State.setTile_free (d t : Nat) (x : TileS) : (s.setTile d t x).free = s.free := rfl
@[simp] theorem State.setTile_pending (d t : Nat) (x : TileS) : (s.setTile d t x).pending = s.pending := rfl

@[simp] theorem State.setDie_mem (d : Nat) (x : DieS) : (s.setDie d x).mem = s.mem := rfl
@[simp] theorem State.setDie_valid (d : Nat) (x : DieS) : (s.setDie d x).valid = s.valid := rfl
@[simp] theorem State.setDie_regs (d : Nat) (x : DieS) : (s.setDie d x).regs = s.regs := rfl
@[simp] theorem State.setDie_flaws (d : Nat) (x : DieS) : (s.setDie d x).flaws = s.flaws := rfl
@[simp] theorem State.setDie_loose (d : Nat) (x : DieS) : (s.setDie d x).loose = s.loose := rfl
@[simp] theorem State.setDie_tiles (d : Nat) (x : DieS) : (s.setDie d x).tiles = s.tiles := rfl
@[simp] theorem State.setDie_dies (d : Nat) (x : DieS) :
     (s.setDie d x).dies = SMap.set (fun _ => DieS.reset) s.dies d x := rfl
@[simp] theorem State.setDie_ports (d : Nat) (x : DieS) : (s.setDie d x).ports = s.ports := rfl
@[simp] theorem State.setDie_m (d : Nat) (x : DieS) : (s.setDie d x).m = s.m := rfl
@[simp] theorem State.setDie_waiting (d : Nat) (x : DieS) : (s.setDie d x).waiting = s.waiting := rfl
@[simp] theorem State.setDie_out (d : Nat) (x : DieS) : (s.setDie d x).out = s.out := rfl
@[simp] theorem State.setDie_reply (d : Nat) (x : DieS) : (s.setDie d x).reply = s.reply := rfl
@[simp] theorem State.setDie_free (d : Nat) (x : DieS) : (s.setDie d x).free = s.free := rfl
@[simp] theorem State.setDie_pending (d : Nat) (x : DieS) : (s.setDie d x).pending = s.pending := rfl

@[simp] theorem State.setPort_mem (q : Nat) (x : PortS) : (s.setPort q x).mem = s.mem := rfl
@[simp] theorem State.setPort_valid (q : Nat) (x : PortS) : (s.setPort q x).valid = s.valid := rfl
@[simp] theorem State.setPort_regs (q : Nat) (x : PortS) : (s.setPort q x).regs = s.regs := rfl
@[simp] theorem State.setPort_flaws (q : Nat) (x : PortS) : (s.setPort q x).flaws = s.flaws := rfl
@[simp] theorem State.setPort_loose (q : Nat) (x : PortS) : (s.setPort q x).loose = s.loose := rfl
@[simp] theorem State.setPort_tiles (q : Nat) (x : PortS) : (s.setPort q x).tiles = s.tiles := rfl
@[simp] theorem State.setPort_dies (q : Nat) (x : PortS) : (s.setPort q x).dies = s.dies := rfl
@[simp] theorem State.setPort_ports (q : Nat) (x : PortS) :
     (s.setPort q x).ports = SMap.set (fun _ => PortS.reset) s.ports q x := rfl
@[simp] theorem State.setPort_m (q : Nat) (x : PortS) : (s.setPort q x).m = s.m := rfl
@[simp] theorem State.setPort_waiting (q : Nat) (x : PortS) : (s.setPort q x).waiting = s.waiting := rfl
@[simp] theorem State.setPort_out (q : Nat) (x : PortS) : (s.setPort q x).out = s.out := rfl
@[simp] theorem State.setPort_reply (q : Nat) (x : PortS) : (s.setPort q x).reply = s.reply := rfl
@[simp] theorem State.setPort_free (q : Nat) (x : PortS) : (s.setPort q x).free = s.free := rfl
@[simp] theorem State.setPort_pending (q : Nat) (x : PortS) : (s.setPort q x).pending = s.pending := rfl

@[simp] theorem State.setM_mem (x : ModS) : (s.setM x).mem = s.mem := rfl
@[simp] theorem State.setM_valid (x : ModS) : (s.setM x).valid = s.valid := rfl
@[simp] theorem State.setM_regs (x : ModS) : (s.setM x).regs = s.regs := rfl
@[simp] theorem State.setM_flaws (x : ModS) : (s.setM x).flaws = s.flaws := rfl
@[simp] theorem State.setM_loose (x : ModS) : (s.setM x).loose = s.loose := rfl
@[simp] theorem State.setM_tiles (x : ModS) : (s.setM x).tiles = s.tiles := rfl
@[simp] theorem State.setM_dies (x : ModS) : (s.setM x).dies = s.dies := rfl
@[simp] theorem State.setM_ports (x : ModS) : (s.setM x).ports = s.ports := rfl
@[simp] theorem State.setM_m (x : ModS) : (s.setM x).m = x := rfl
@[simp] theorem State.setM_waiting (x : ModS) : (s.setM x).waiting = s.waiting := rfl
@[simp] theorem State.setM_out (x : ModS) : (s.setM x).out = s.out := rfl
@[simp] theorem State.setM_reply (x : ModS) : (s.setM x).reply = s.reply := rfl
@[simp] theorem State.setM_free (x : ModS) : (s.setM x).free = s.free := rfl
@[simp] theorem State.setM_pending (x : ModS) : (s.setM x).pending = s.pending := rfl

@[simp] theorem State.setByte_mem (a : Nat) (b : Byte) :
     (s.setByte a b).mem = SMap.set (fun _ => (0 : Byte)) s.mem a b := rfl
@[simp] theorem State.setByte_valid (a : Nat) (b : Byte) : (s.setByte a b).valid = s.valid := rfl
@[simp] theorem State.setByte_regs (a : Nat) (b : Byte) : (s.setByte a b).regs = s.regs := rfl
@[simp] theorem State.setByte_flaws (a : Nat) (b : Byte) : (s.setByte a b).flaws = s.flaws := rfl
@[simp] theorem State.setByte_loose (a : Nat) (b : Byte) : (s.setByte a b).loose = s.loose := rfl
@[simp] theorem State.setByte_tiles (a : Nat) (b : Byte) : (s.setByte a b).tiles = s.tiles := rfl
@[simp] theorem State.setByte_dies (a : Nat) (b : Byte) : (s.setByte a b).dies = s.dies := rfl
@[simp] theorem State.setByte_ports (a : Nat) (b : Byte) : (s.setByte a b).ports = s.ports := rfl
@[simp] theorem State.setByte_m (a : Nat) (b : Byte) : (s.setByte a b).m = s.m := rfl
@[simp] theorem State.setByte_waiting (a : Nat) (b : Byte) : (s.setByte a b).waiting = s.waiting := rfl
@[simp] theorem State.setByte_out (a : Nat) (b : Byte) : (s.setByte a b).out = s.out := rfl
@[simp] theorem State.setByte_reply (a : Nat) (b : Byte) : (s.setByte a b).reply = s.reply := rfl
@[simp] theorem State.setByte_free (a : Nat) (b : Byte) : (s.setByte a b).free = s.free := rfl
@[simp] theorem State.setByte_pending (a : Nat) (b : Byte) : (s.setByte a b).pending = s.pending := rfl

@[simp] theorem State.setValid_mem (l : Nat) (v : Bool) : (s.setValid l v).mem = s.mem := rfl
@[simp] theorem State.setValid_valid (l : Nat) (v : Bool) :
     (s.setValid l v).valid = SMap.set (fun _ => false) s.valid l v := rfl
@[simp] theorem State.setValid_regs (l : Nat) (v : Bool) : (s.setValid l v).regs = s.regs := rfl
@[simp] theorem State.setValid_flaws (l : Nat) (v : Bool) : (s.setValid l v).flaws = s.flaws := rfl
@[simp] theorem State.setValid_loose (l : Nat) (v : Bool) : (s.setValid l v).loose = s.loose := rfl
@[simp] theorem State.setValid_tiles (l : Nat) (v : Bool) : (s.setValid l v).tiles = s.tiles := rfl
@[simp] theorem State.setValid_dies (l : Nat) (v : Bool) : (s.setValid l v).dies = s.dies := rfl
@[simp] theorem State.setValid_ports (l : Nat) (v : Bool) : (s.setValid l v).ports = s.ports := rfl
@[simp] theorem State.setValid_m (l : Nat) (v : Bool) : (s.setValid l v).m = s.m := rfl
@[simp] theorem State.setValid_waiting (l : Nat) (v : Bool) : (s.setValid l v).waiting = s.waiting := rfl
@[simp] theorem State.setValid_out (l : Nat) (v : Bool) : (s.setValid l v).out = s.out := rfl
@[simp] theorem State.setValid_reply (l : Nat) (v : Bool) : (s.setValid l v).reply = s.reply := rfl
@[simp] theorem State.setValid_free (l : Nat) (v : Bool) : (s.setValid l v).free = s.free := rfl
@[simp] theorem State.setValid_pending (l : Nat) (v : Bool) : (s.setValid l v).pending = s.pending := rfl

@[simp] theorem State.setFlaw_mem (k : Nat) (e : List Byte) : (s.setFlaw k e).mem = s.mem := rfl
@[simp] theorem State.setFlaw_valid (k : Nat) (e : List Byte) : (s.setFlaw k e).valid = s.valid := rfl
@[simp] theorem State.setFlaw_regs (k : Nat) (e : List Byte) : (s.setFlaw k e).regs = s.regs := rfl
@[simp] theorem State.setFlaw_flaws (k : Nat) (e : List Byte) :
     (s.setFlaw k e).flaws = SMap.set (fun _ => []) s.flaws k (if e.all (· == 0) then [] else e) := rfl
@[simp] theorem State.setFlaw_loose (k : Nat) (e : List Byte) : (s.setFlaw k e).loose = s.loose := rfl
@[simp] theorem State.setFlaw_tiles (k : Nat) (e : List Byte) : (s.setFlaw k e).tiles = s.tiles := rfl
@[simp] theorem State.setFlaw_dies (k : Nat) (e : List Byte) : (s.setFlaw k e).dies = s.dies := rfl
@[simp] theorem State.setFlaw_ports (k : Nat) (e : List Byte) : (s.setFlaw k e).ports = s.ports := rfl
@[simp] theorem State.setFlaw_m (k : Nat) (e : List Byte) : (s.setFlaw k e).m = s.m := rfl
@[simp] theorem State.setFlaw_waiting (k : Nat) (e : List Byte) : (s.setFlaw k e).waiting = s.waiting := rfl
@[simp] theorem State.setFlaw_out (k : Nat) (e : List Byte) : (s.setFlaw k e).out = s.out := rfl
@[simp] theorem State.setFlaw_reply (k : Nat) (e : List Byte) : (s.setFlaw k e).reply = s.reply := rfl
@[simp] theorem State.setFlaw_free (k : Nat) (e : List Byte) : (s.setFlaw k e).free = s.free := rfl
@[simp] theorem State.setFlaw_pending (k : Nat) (e : List Byte) : (s.setFlaw k e).pending = s.pending := rfl

@[simp] theorem State.dropMem_mem (p : Nat → Bool) : (s.dropMem p).mem = SMap.drop p s.mem := rfl
@[simp] theorem State.dropMem_valid (p : Nat → Bool) : (s.dropMem p).valid = s.valid := rfl
@[simp] theorem State.dropMem_regs (p : Nat → Bool) : (s.dropMem p).regs = s.regs := rfl
@[simp] theorem State.dropMem_flaws (p : Nat → Bool) : (s.dropMem p).flaws = s.flaws := rfl
@[simp] theorem State.dropMem_loose (p : Nat → Bool) : (s.dropMem p).loose = s.loose := rfl
@[simp] theorem State.dropMem_tiles (p : Nat → Bool) : (s.dropMem p).tiles = s.tiles := rfl
@[simp] theorem State.dropMem_dies (p : Nat → Bool) : (s.dropMem p).dies = s.dies := rfl
@[simp] theorem State.dropMem_ports (p : Nat → Bool) : (s.dropMem p).ports = s.ports := rfl
@[simp] theorem State.dropMem_m (p : Nat → Bool) : (s.dropMem p).m = s.m := rfl
@[simp] theorem State.dropMem_waiting (p : Nat → Bool) : (s.dropMem p).waiting = s.waiting := rfl
@[simp] theorem State.dropMem_out (p : Nat → Bool) : (s.dropMem p).out = s.out := rfl
@[simp] theorem State.dropMem_reply (p : Nat → Bool) : (s.dropMem p).reply = s.reply := rfl
@[simp] theorem State.dropMem_free (p : Nat → Bool) : (s.dropMem p).free = s.free := rfl
@[simp] theorem State.dropMem_pending (p : Nat → Bool) : (s.dropMem p).pending = s.pending := rfl

@[simp] theorem State.dropValid_mem (p : Nat → Bool) : (s.dropValid p).mem = s.mem := rfl
@[simp] theorem State.dropValid_valid (p : Nat → Bool) : (s.dropValid p).valid = SMap.drop p s.valid := rfl
@[simp] theorem State.dropValid_regs (p : Nat → Bool) : (s.dropValid p).regs = s.regs := rfl
@[simp] theorem State.dropValid_flaws (p : Nat → Bool) : (s.dropValid p).flaws = s.flaws := rfl
@[simp] theorem State.dropValid_loose (p : Nat → Bool) : (s.dropValid p).loose = s.loose := rfl
@[simp] theorem State.dropValid_tiles (p : Nat → Bool) : (s.dropValid p).tiles = s.tiles := rfl
@[simp] theorem State.dropValid_dies (p : Nat → Bool) : (s.dropValid p).dies = s.dies := rfl
@[simp] theorem State.dropValid_ports (p : Nat → Bool) : (s.dropValid p).ports = s.ports := rfl
@[simp] theorem State.dropValid_m (p : Nat → Bool) : (s.dropValid p).m = s.m := rfl
@[simp] theorem State.dropValid_waiting (p : Nat → Bool) : (s.dropValid p).waiting = s.waiting := rfl
@[simp] theorem State.dropValid_out (p : Nat → Bool) : (s.dropValid p).out = s.out := rfl
@[simp] theorem State.dropValid_reply (p : Nat → Bool) : (s.dropValid p).reply = s.reply := rfl
@[simp] theorem State.dropValid_free (p : Nat → Bool) : (s.dropValid p).free = s.free := rfl
@[simp] theorem State.dropValid_pending (p : Nat → Bool) : (s.dropValid p).pending = s.pending := rfl

@[simp] theorem State.dropRegs_mem (p : Nat → Bool) : (s.dropRegs p).mem = s.mem := rfl
@[simp] theorem State.dropRegs_valid (p : Nat → Bool) : (s.dropRegs p).valid = s.valid := rfl
@[simp] theorem State.dropRegs_regs (p : Nat → Bool) : (s.dropRegs p).regs = SMap.drop p s.regs := rfl
@[simp] theorem State.dropRegs_flaws (p : Nat → Bool) : (s.dropRegs p).flaws = s.flaws := rfl
@[simp] theorem State.dropRegs_loose (p : Nat → Bool) : (s.dropRegs p).loose = s.loose := rfl
@[simp] theorem State.dropRegs_tiles (p : Nat → Bool) : (s.dropRegs p).tiles = s.tiles := rfl
@[simp] theorem State.dropRegs_dies (p : Nat → Bool) : (s.dropRegs p).dies = s.dies := rfl
@[simp] theorem State.dropRegs_ports (p : Nat → Bool) : (s.dropRegs p).ports = s.ports := rfl
@[simp] theorem State.dropRegs_m (p : Nat → Bool) : (s.dropRegs p).m = s.m := rfl
@[simp] theorem State.dropRegs_waiting (p : Nat → Bool) : (s.dropRegs p).waiting = s.waiting := rfl
@[simp] theorem State.dropRegs_out (p : Nat → Bool) : (s.dropRegs p).out = s.out := rfl
@[simp] theorem State.dropRegs_reply (p : Nat → Bool) : (s.dropRegs p).reply = s.reply := rfl
@[simp] theorem State.dropRegs_free (p : Nat → Bool) : (s.dropRegs p).free = s.free := rfl
@[simp] theorem State.dropRegs_pending (p : Nat → Bool) : (s.dropRegs p).pending = s.pending := rfl

@[simp] theorem State.dropFlaws_mem (p : Nat → Bool) : (s.dropFlaws p).mem = s.mem := rfl
@[simp] theorem State.dropFlaws_valid (p : Nat → Bool) : (s.dropFlaws p).valid = s.valid := rfl
@[simp] theorem State.dropFlaws_regs (p : Nat → Bool) : (s.dropFlaws p).regs = s.regs := rfl
@[simp] theorem State.dropFlaws_flaws (p : Nat → Bool) : (s.dropFlaws p).flaws = SMap.drop p s.flaws := rfl
@[simp] theorem State.dropFlaws_loose (p : Nat → Bool) : (s.dropFlaws p).loose = s.loose := rfl
@[simp] theorem State.dropFlaws_tiles (p : Nat → Bool) : (s.dropFlaws p).tiles = s.tiles := rfl
@[simp] theorem State.dropFlaws_dies (p : Nat → Bool) : (s.dropFlaws p).dies = s.dies := rfl
@[simp] theorem State.dropFlaws_ports (p : Nat → Bool) : (s.dropFlaws p).ports = s.ports := rfl
@[simp] theorem State.dropFlaws_m (p : Nat → Bool) : (s.dropFlaws p).m = s.m := rfl
@[simp] theorem State.dropFlaws_waiting (p : Nat → Bool) : (s.dropFlaws p).waiting = s.waiting := rfl
@[simp] theorem State.dropFlaws_out (p : Nat → Bool) : (s.dropFlaws p).out = s.out := rfl
@[simp] theorem State.dropFlaws_reply (p : Nat → Bool) : (s.dropFlaws p).reply = s.reply := rfl
@[simp] theorem State.dropFlaws_free (p : Nat → Bool) : (s.dropFlaws p).free = s.free := rfl
@[simp] theorem State.dropFlaws_pending (p : Nat → Bool) : (s.dropFlaws p).pending = s.pending := rfl

@[simp] theorem State.forgetTiles_mem (p : Nat → Bool) : (s.forgetTiles p).mem = s.mem := rfl
@[simp] theorem State.forgetTiles_valid (p : Nat → Bool) : (s.forgetTiles p).valid = s.valid := rfl
@[simp] theorem State.forgetTiles_regs (p : Nat → Bool) : (s.forgetTiles p).regs = s.regs := rfl
@[simp] theorem State.forgetTiles_flaws (p : Nat → Bool) : (s.forgetTiles p).flaws = s.flaws := rfl
@[simp] theorem State.forgetTiles_loose (p : Nat → Bool) : (s.forgetTiles p).loose = s.loose := rfl
@[simp] theorem State.forgetTiles_tiles (p : Nat → Bool) : (s.forgetTiles p).tiles = SMap.drop p s.tiles := rfl
@[simp] theorem State.forgetTiles_dies (p : Nat → Bool) : (s.forgetTiles p).dies = s.dies := rfl
@[simp] theorem State.forgetTiles_ports (p : Nat → Bool) : (s.forgetTiles p).ports = s.ports := rfl
@[simp] theorem State.forgetTiles_m (p : Nat → Bool) : (s.forgetTiles p).m = s.m := rfl
@[simp] theorem State.forgetTiles_waiting (p : Nat → Bool) : (s.forgetTiles p).waiting = s.waiting := rfl
@[simp] theorem State.forgetTiles_out (p : Nat → Bool) : (s.forgetTiles p).out = s.out := rfl
@[simp] theorem State.forgetTiles_reply (p : Nat → Bool) : (s.forgetTiles p).reply = s.reply := rfl
@[simp] theorem State.forgetTiles_free (p : Nat → Bool) : (s.forgetTiles p).free = s.free := rfl
@[simp] theorem State.forgetTiles_pending (p : Nat → Bool) : (s.forgetTiles p).pending = s.pending := rfl

@[simp] theorem State.forgetDies_mem (p : Nat → Bool) : (s.forgetDies p).mem = s.mem := rfl
@[simp] theorem State.forgetDies_valid (p : Nat → Bool) : (s.forgetDies p).valid = s.valid := rfl
@[simp] theorem State.forgetDies_regs (p : Nat → Bool) : (s.forgetDies p).regs = s.regs := rfl
@[simp] theorem State.forgetDies_flaws (p : Nat → Bool) : (s.forgetDies p).flaws = s.flaws := rfl
@[simp] theorem State.forgetDies_loose (p : Nat → Bool) : (s.forgetDies p).loose = s.loose := rfl
@[simp] theorem State.forgetDies_tiles (p : Nat → Bool) : (s.forgetDies p).tiles = s.tiles := rfl
@[simp] theorem State.forgetDies_dies (p : Nat → Bool) : (s.forgetDies p).dies = SMap.drop p s.dies := rfl
@[simp] theorem State.forgetDies_ports (p : Nat → Bool) : (s.forgetDies p).ports = s.ports := rfl
@[simp] theorem State.forgetDies_m (p : Nat → Bool) : (s.forgetDies p).m = s.m := rfl
@[simp] theorem State.forgetDies_waiting (p : Nat → Bool) : (s.forgetDies p).waiting = s.waiting := rfl
@[simp] theorem State.forgetDies_out (p : Nat → Bool) : (s.forgetDies p).out = s.out := rfl
@[simp] theorem State.forgetDies_reply (p : Nat → Bool) : (s.forgetDies p).reply = s.reply := rfl
@[simp] theorem State.forgetDies_free (p : Nat → Bool) : (s.forgetDies p).free = s.free := rfl
@[simp] theorem State.forgetDies_pending (p : Nat → Bool) : (s.forgetDies p).pending = s.pending := rfl

@[simp] theorem State.forgetPorts_mem (p : Nat → Bool) : (s.forgetPorts p).mem = s.mem := rfl
@[simp] theorem State.forgetPorts_valid (p : Nat → Bool) : (s.forgetPorts p).valid = s.valid := rfl
@[simp] theorem State.forgetPorts_regs (p : Nat → Bool) : (s.forgetPorts p).regs = s.regs := rfl
@[simp] theorem State.forgetPorts_flaws (p : Nat → Bool) : (s.forgetPorts p).flaws = s.flaws := rfl
@[simp] theorem State.forgetPorts_loose (p : Nat → Bool) : (s.forgetPorts p).loose = s.loose := rfl
@[simp] theorem State.forgetPorts_tiles (p : Nat → Bool) : (s.forgetPorts p).tiles = s.tiles := rfl
@[simp] theorem State.forgetPorts_dies (p : Nat → Bool) : (s.forgetPorts p).dies = s.dies := rfl
@[simp] theorem State.forgetPorts_ports (p : Nat → Bool) : (s.forgetPorts p).ports = SMap.drop p s.ports := rfl
@[simp] theorem State.forgetPorts_m (p : Nat → Bool) : (s.forgetPorts p).m = s.m := rfl
@[simp] theorem State.forgetPorts_waiting (p : Nat → Bool) : (s.forgetPorts p).waiting = s.waiting := rfl
@[simp] theorem State.forgetPorts_out (p : Nat → Bool) : (s.forgetPorts p).out = s.out := rfl
@[simp] theorem State.forgetPorts_reply (p : Nat → Bool) : (s.forgetPorts p).reply = s.reply := rfl
@[simp] theorem State.forgetPorts_free (p : Nat → Bool) : (s.forgetPorts p).free = s.free := rfl
@[simp] theorem State.forgetPorts_pending (p : Nat → Bool) : (s.forgetPorts p).pending = s.pending := rfl

@[simp] theorem State.setLoose_mem (l : List Loose) : (s.setLoose l).mem = s.mem := rfl
@[simp] theorem State.setLoose_valid (l : List Loose) : (s.setLoose l).valid = s.valid := rfl
@[simp] theorem State.setLoose_regs (l : List Loose) : (s.setLoose l).regs = s.regs := rfl
@[simp] theorem State.setLoose_flaws (l : List Loose) : (s.setLoose l).flaws = s.flaws := rfl
@[simp] theorem State.setLoose_loose (l : List Loose) : (s.setLoose l).loose = l := rfl
@[simp] theorem State.setLoose_tiles (l : List Loose) : (s.setLoose l).tiles = s.tiles := rfl
@[simp] theorem State.setLoose_dies (l : List Loose) : (s.setLoose l).dies = s.dies := rfl
@[simp] theorem State.setLoose_ports (l : List Loose) : (s.setLoose l).ports = s.ports := rfl
@[simp] theorem State.setLoose_m (l : List Loose) : (s.setLoose l).m = s.m := rfl
@[simp] theorem State.setLoose_waiting (l : List Loose) : (s.setLoose l).waiting = s.waiting := rfl
@[simp] theorem State.setLoose_out (l : List Loose) : (s.setLoose l).out = s.out := rfl
@[simp] theorem State.setLoose_reply (l : List Loose) : (s.setLoose l).reply = s.reply := rfl
@[simp] theorem State.setLoose_free (l : List Loose) : (s.setLoose l).free = s.free := rfl
@[simp] theorem State.setLoose_pending (l : List Loose) : (s.setLoose l).pending = s.pending := rfl

@[simp] theorem State.setWaiting_mem (l : List Waiting) : (s.setWaiting l).mem = s.mem := rfl
@[simp] theorem State.setWaiting_valid (l : List Waiting) : (s.setWaiting l).valid = s.valid := rfl
@[simp] theorem State.setWaiting_regs (l : List Waiting) : (s.setWaiting l).regs = s.regs := rfl
@[simp] theorem State.setWaiting_flaws (l : List Waiting) : (s.setWaiting l).flaws = s.flaws := rfl
@[simp] theorem State.setWaiting_loose (l : List Waiting) : (s.setWaiting l).loose = s.loose := rfl
@[simp] theorem State.setWaiting_tiles (l : List Waiting) : (s.setWaiting l).tiles = s.tiles := rfl
@[simp] theorem State.setWaiting_dies (l : List Waiting) : (s.setWaiting l).dies = s.dies := rfl
@[simp] theorem State.setWaiting_ports (l : List Waiting) : (s.setWaiting l).ports = s.ports := rfl
@[simp] theorem State.setWaiting_m (l : List Waiting) : (s.setWaiting l).m = s.m := rfl
@[simp] theorem State.setWaiting_waiting (l : List Waiting) : (s.setWaiting l).waiting = l := rfl
@[simp] theorem State.setWaiting_out (l : List Waiting) : (s.setWaiting l).out = s.out := rfl
@[simp] theorem State.setWaiting_reply (l : List Waiting) : (s.setWaiting l).reply = s.reply := rfl
@[simp] theorem State.setWaiting_free (l : List Waiting) : (s.setWaiting l).free = s.free := rfl
@[simp] theorem State.setWaiting_pending (l : List Waiting) : (s.setWaiting l).pending = s.pending := rfl

@[simp] theorem State.emitAll_mem (l : List Emit) : (s.emitAll l).mem = s.mem := rfl
@[simp] theorem State.emitAll_valid (l : List Emit) : (s.emitAll l).valid = s.valid := rfl
@[simp] theorem State.emitAll_regs (l : List Emit) : (s.emitAll l).regs = s.regs := rfl
@[simp] theorem State.emitAll_flaws (l : List Emit) : (s.emitAll l).flaws = s.flaws := rfl
@[simp] theorem State.emitAll_loose (l : List Emit) : (s.emitAll l).loose = s.loose := rfl
@[simp] theorem State.emitAll_tiles (l : List Emit) : (s.emitAll l).tiles = s.tiles := rfl
@[simp] theorem State.emitAll_dies (l : List Emit) : (s.emitAll l).dies = s.dies := rfl
@[simp] theorem State.emitAll_ports (l : List Emit) : (s.emitAll l).ports = s.ports := rfl
@[simp] theorem State.emitAll_m (l : List Emit) : (s.emitAll l).m = s.m := rfl
@[simp] theorem State.emitAll_waiting (l : List Emit) : (s.emitAll l).waiting = s.waiting := rfl
@[simp] theorem State.emitAll_out (l : List Emit) : (s.emitAll l).out = s.out ++ l := rfl
@[simp] theorem State.emitAll_reply (l : List Emit) : (s.emitAll l).reply = s.reply := rfl
@[simp] theorem State.emitAll_free (l : List Emit) : (s.emitAll l).free = s.free := rfl
@[simp] theorem State.emitAll_pending (l : List Emit) : (s.emitAll l).pending = s.pending := rfl

@[simp] theorem State.answer_mem (r : Reply) : (s.answer r).mem = s.mem := rfl
@[simp] theorem State.answer_valid (r : Reply) : (s.answer r).valid = s.valid := rfl
@[simp] theorem State.answer_regs (r : Reply) : (s.answer r).regs = s.regs := rfl
@[simp] theorem State.answer_flaws (r : Reply) : (s.answer r).flaws = s.flaws := rfl
@[simp] theorem State.answer_loose (r : Reply) : (s.answer r).loose = s.loose := rfl
@[simp] theorem State.answer_tiles (r : Reply) : (s.answer r).tiles = s.tiles := rfl
@[simp] theorem State.answer_dies (r : Reply) : (s.answer r).dies = s.dies := rfl
@[simp] theorem State.answer_ports (r : Reply) : (s.answer r).ports = s.ports := rfl
@[simp] theorem State.answer_m (r : Reply) : (s.answer r).m = s.m := rfl
@[simp] theorem State.answer_waiting (r : Reply) : (s.answer r).waiting = s.waiting := rfl
@[simp] theorem State.answer_out (r : Reply) : (s.answer r).out = s.out := rfl
@[simp] theorem State.answer_reply (r : Reply) : (s.answer r).reply = r := rfl
@[simp] theorem State.answer_free (r : Reply) : (s.answer r).free = s.free := rfl
@[simp] theorem State.answer_pending (r : Reply) : (s.answer r).pending = s.pending := rfl

@[simp] theorem State.draw_mem : s.draw.2.mem = s.mem := rfl
@[simp] theorem State.draw_valid : s.draw.2.valid = s.valid := rfl
@[simp] theorem State.draw_regs : s.draw.2.regs = s.regs := rfl
@[simp] theorem State.draw_flaws : s.draw.2.flaws = s.flaws := rfl
@[simp] theorem State.draw_loose : s.draw.2.loose = s.loose := rfl
@[simp] theorem State.draw_tiles : s.draw.2.tiles = s.tiles := rfl
@[simp] theorem State.draw_dies : s.draw.2.dies = s.dies := rfl
@[simp] theorem State.draw_ports : s.draw.2.ports = s.ports := rfl
@[simp] theorem State.draw_m : s.draw.2.m = s.m := rfl
@[simp] theorem State.draw_waiting : s.draw.2.waiting = s.waiting := rfl
@[simp] theorem State.draw_out : s.draw.2.out = s.out := rfl
@[simp] theorem State.draw_reply : s.draw.2.reply = s.reply := rfl
@[simp] theorem State.draw_free : s.draw.2.free = s.free + 1 := rfl
@[simp] theorem State.draw_pending : s.draw.2.pending = s.pending := rfl

/-! ## Reads after an update -/

theorem State.rd_wr (a b : Nat) (w : Word) : (s.wr a w).rd b = if b = a then w else s.rd b :=
  SMap.get_set resetWord s.regs a b w

theorem State.byte_setByte (a b : Nat) (x : Byte) : (s.setByte a x).byte b = if b = a then x else s.byte b :=
  SMap.get_set (fun _ => (0 : Byte)) s.mem a b x

theorem State.byte_dropMem (p : Nat → Bool) (b : Nat) : (s.dropMem p).byte b = if p b then 0 else s.byte b :=
  SMap.get_drop (fun _ => (0 : Byte)) p b s.mem

theorem State.rd_dropRegs (p : Nat → Bool) (b : Nat) : (s.dropRegs p).rd b = if p b then resetWord b else s.rd b :=
  SMap.get_drop resetWord p b s.regs

theorem State.die_setDie (d e : Nat) (x : DieS) : (s.setDie d x).die e = if e = d then x else s.die e :=
  SMap.get_set (fun _ => DieS.reset) s.dies d e x

theorem State.port_setPort (q p : Nat) (x : PortS) : (s.setPort q x).port p = if p = q then x else s.port p :=
  SMap.get_set (fun _ => PortS.reset) s.ports q p x

theorem State.tile_setTile (d t e u : Nat) (x : TileS) :
    (s.setTile d t x).tile e u = if tileKey e u = tileKey d t then x else s.tile e u :=
  SMap.get_set (fun _ => TileS.reset) s.tiles (tileKey d t) (tileKey e u) x

theorem State.lineValid_setValid (l k : Nat) (v : Bool) :
    (s.setValid l v).lineValid k = if k = l then v else s.lineValid k :=
  SMap.get_set (fun _ => false) s.valid l k v

/-- Writing bytes: a byte of the range reads what was written there, every other byte as before. -/
theorem State.byte_setBytes (bs : List Byte) : ∀ (s : State) (a b : Nat),
    (s.setBytes a bs).byte b = if h : a ≤ b ∧ b < a + bs.length then bs[b - a]'(by omega) else s.byte b := by
  induction bs with
  | nil => intro s a b; simp [State.setBytes]
  | cons x bs ih =>
    intro s a b
    rw [State.setBytes, ih, State.byte_setByte]
    by_cases h1 : b = a
    · subst h1
      simp
    · by_cases h2 : a + 1 ≤ b ∧ b < a + 1 + bs.length
      · have h3 : a ≤ b ∧ b < a + (x :: bs).length := by simp only [List.length_cons]; omega
        have h4 : b - a = (b - (a + 1)) + 1 := by omega
        rw [dif_pos h2, dif_pos h3]
        simp only [h4, List.getElem_cons_succ]
      · have h3 : ¬ (a ≤ b ∧ b < a + (x :: bs).length) := by simp only [List.length_cons]; omega
        rw [dif_neg h2, dif_neg h3, if_neg h1]

end Sys2Proof.Machine
end

