-- ==== Sys2Proof/Laws/Bits.lean ====
section
/-! SUPPORT. Reading a register field after writing one. -/

namespace Sys2Proof.Machine

theorem fldMask_bit (lo w i : Nat) (hi : i < 64) : (fldMask lo w).getLsbD i = decide (lo ≤ i ∧ i < lo + w) := by
  unfold fldMask
  simp only [BitVec.getLsbD_shiftLeft, BitVec.getLsbD_setWidth, BitVec.getLsbD_allOnes, hi, decide_true, Bool.true_and]
  rw [Bool.eq_iff_iff]
  simp only [Bool.and_eq_true, Bool.not_eq_true', decide_eq_true_eq, decide_eq_false_iff_not]
  omega

theorem setFld_bit (x : Word) (lo w v i : Nat) (hi : i < 64) :
    (setFld x lo w v).getLsbD i = if lo ≤ i ∧ i < lo + w then v.testBit (i - lo) else x.getLsbD i := by
  unfold setFld
  simp only [BitVec.getLsbD_or, BitVec.getLsbD_and, BitVec.getLsbD_not, fldMask_bit _ _ _ hi, hi,
    BitVec.getLsbD_shiftLeft, BitVec.getLsbD_ofNat, decide_true, Bool.true_and]
  by_cases h : lo ≤ i ∧ i < lo + w
  · have h1 : i - lo < 64 := by omega
    have h2 : ¬ i < lo := by omega
    simp [h, h1, h2]
  · simp [h]

/-- The field written reads what was written, at its width. -/
theorem fld_setFld (x : Word) (lo w v : Nat) (h : lo + w ≤ 64) : fld (setFld x lo w v) lo w = v % 2 ^ w := by
  unfold fld
  apply Nat.eq_of_testBit_eq
  intro i
  rw [BitVec.testBit_toNat, BitVec.getLsbD_extractLsb', Nat.testBit_mod_two_pow]
  by_cases hi : i < w
  · rw [setFld_bit _ _ _ _ _ (by omega), if_pos (by omega)]
    simp [hi]
  · simp [hi]

/-- A field apart from the one written reads as before. -/
theorem fld_setFld_apart (x : Word) (lo w v l n : Nat) (h : l + n ≤ 64) (ha : l + n ≤ lo ∨ lo + w ≤ l) :
    fld (setFld x lo w v) l n = fld x l n := by
  unfold fld
  apply Nat.eq_of_testBit_eq
  intro i
  rw [BitVec.testBit_toNat, BitVec.testBit_toNat, BitVec.getLsbD_extractLsb', BitVec.getLsbD_extractLsb']
  by_cases hi : i < n
  · rw [setFld_bit _ _ _ _ _ (by omega), if_neg (by omega)]
  · simp [hi]

theorem State.rd_p (s : State) (a b : Nat) (f : RF) (v : Nat) :
    (s.p a f v).rd b = if b = a then setFld (s.rd a) f.lo f.w v else s.rd b := State.rd_wr s a b _

theorem State.g_p (s : State) (a : Nat) (f : RF) (v : Nat) (h : f.lo + f.w ≤ 64) :
    (s.p a f v).g a f = v % 2 ^ f.w := by
  unfold State.g
  rw [State.rd_p, if_pos rfl, fld_setFld _ _ _ _ h]

theorem State.g_p_apart (s : State) (a : Nat) (f k : RF) (v : Nat) (h : k.lo + k.w ≤ 64)
    (ha : k.lo + k.w ≤ f.lo ∨ f.lo + f.w ≤ k.lo) : (s.p a f v).g a k = s.g a k := by
  unfold State.g
  rw [State.rd_p, if_pos rfl, fld_setFld_apart _ _ _ _ _ _ h ha]

theorem State.g_p_other (s : State) (a b : Nat) (f k : RF) (v : Nat) (h : b ≠ a) : (s.p a f v).g b k = s.g b k := by
  unfold State.g
  rw [State.rd_p, if_neg h]

end Sys2Proof.Machine
end

