-- ==== Sys2Proof/Laws/Closed.lean ====
section
/-! SUPPORT. Predicates on states that the named updates keep. Every operation of the model is built from the updates listed
in `Closed`, so a predicate closed under them is kept by every command: the one induction behind the invariants. -/

namespace Sys2Proof.Machine

/-- A predicate that every primitive update of the state keeps. -/
structure Closed (K : State → Prop) : Prop where
  wr : ∀ s a w, K s → K (s.wr a w)
  setTile : ∀ s d t x, K s → K (s.setTile d t x)
  setDie : ∀ s d x, K s → K (s.setDie d x)
  setPort : ∀ s q x, K s → K (s.setPort q x)
  setM : ∀ s m, K s → K (s.setM m)
  setByte : ∀ s a b, K s → K (s.setByte a b)
  setValid : ∀ s l v, K s → K (s.setValid l v)
  setFlaw : ∀ s k e, K s → K (s.setFlaw k e)
  dropMem : ∀ s p, K s → K (s.dropMem p)
  dropValid : ∀ s p, K s → K (s.dropValid p)
  dropRegs : ∀ s p, K s → K (s.dropRegs p)
  dropFlaws : ∀ s p, K s → K (s.dropFlaws p)
  forgetTiles : ∀ s p, K s → K (s.forgetTiles p)
  forgetDies : ∀ s p, K s → K (s.forgetDies p)
  forgetPorts : ∀ s p, K s → K (s.forgetPorts p)
  setLoose : ∀ s l, K s → K (s.setLoose l)
  setWaiting : ∀ s l, K s → K (s.setWaiting l)
  emitAll : ∀ s l, K s → K (s.emitAll l)
  answer : ∀ s r, K s → K (s.answer r)
  draw : ∀ s, K s → K s.draw.2
  allReset : ∀ s, K s → K s.allReset

/-- `K` holds of a state; a name of its own, so that lemmas are found by the state they speak of. -/
def Ok (K : State → Prop) (s : State) : Prop := K s

/-- A command answers a next state of which `K` holds. -/
def OkOut (K : State → Prop) (o : Host.Outcome State Fault Refusal) : Prop := ∃ t, o = .next t ∧ Ok K t

variable {K : State → Prop}

theorem ok_next {t : State} (h : Ok K t) : OkOut K (.next t) := ⟨t, rfl, h⟩

theorem ok_ite {c : Prop} [Decidable c] {a b : State} (ha : Ok K a) (hb : Ok K b) : Ok K (if c then a else b) := by
  split <;> assumption

theorem ok_ite_snd {α : Type} {c : Prop} [Decidable c] {a b : α × State} (ha : Ok K a.2) (hb : Ok K b.2) :
    Ok K (if c then a else b).2 := by split <;> assumption

theorem ok_ite_snd3 {α β : Type} {c : Prop} [Decidable c] {a b : α × β × State} (ha : Ok K a.2.2) (hb : Ok K b.2.2) :
    Ok K (if c then a else b).2.2 := by split <;> assumption

theorem okOut_ite {c : Prop} [Decidable c] {a b : Host.Outcome State Fault Refusal} (ha : OkOut K a) (hb : OkOut K b) :
    OkOut K (if c then a else b) := by split <;> assumption

theorem ok_id {t : State} (h : Ok K t) : Ok K (id t) := h

/-- The state of a pair that a computation answered. -/
theorem ok_snd {α : Type} {x : α × State} {a : α} {t : State} (e : x = (a, t)) (h : Ok K x.2) : Ok K t := by
  rw [e] at h; exact h

/-- The state of a triple that a computation answered. -/
theorem ok_snd3 {α β : Type} {x : α × β × State} {a : α} {b : β} {t : State} (e : x = (a, b, t)) (h : Ok K x.2.2) :
    Ok K t := by
  rw [e] at h; exact h

/-- Folding operations over a list. -/
theorem ok_foldl {α : Type} (f : State → α → State) (hf : ∀ s x, Ok K s → Ok K (f s x)) :
    ∀ (l : List α) (s : State), Ok K s → Ok K (l.foldl f s)
  | [], _, h => h
  | x :: l, s, h => ok_foldl f hf l (f s x) (hf s x h)

end Sys2Proof.Machine
end

