-- ==== Sys2Proof/Laws/Canon.lean ====
section
/-! SUPPORT. The predicates that every primitive update keeps: the canonical form of each sparse part, the queue, what was
sent and the counter of free values. -/

namespace Sys2Proof.Machine

/-! ## The canonical form of memory -/

theorem State.setByte_wf {s : State} (h : Memory.wf s.mem = true) (a : Nat) (b : Byte) :
    Memory.wf (s.setByte a b).mem = true := SMap.wf_set h a b

theorem State.setBytes_wf (bs : List Byte) : ∀ {s : State}, Memory.wf s.mem = true → ∀ a : Nat,
    Memory.wf (s.setBytes a bs).mem = true := by
  induction bs with
  | nil => exact fun h _ => h
  | cons b bs ih => exact fun h a => ih (State.setByte_wf h a b) (a + 1)

theorem State.dropMem_wf {s : State} (h : Memory.wf s.mem = true) (p : Nat → Bool) :
    Memory.wf (s.dropMem p).mem = true := SMap.wf_drop h p

theorem State.zeroRange_wf {s : State} (h : Memory.wf s.mem = true) (lo hi : Nat) :
    Memory.wf (s.zeroRange lo hi).mem = true := State.dropMem_wf h _

theorem State.invalidate_wf {s : State} (h : Memory.wf s.mem = true) (lo hi : Nat) :
    Memory.wf (s.invalidate lo hi).mem = true := State.zeroRange_wf h lo hi

/-- Canonical memories that read alike are equal. -/
theorem Memory.ext {m n : List Host.Cell} (hm : Memory.wf m = true) (hn : Memory.wf n = true)
    (h : ∀ a, SMap.get (fun _ => (0 : Byte)) m a = SMap.get (fun _ => (0 : Byte)) n a) : m = n := SMap.ext hm hn h

/-! ## Every sparse part -/

theorem State.canon_iff (s : State) : s.canon = true ↔
    (Memory.wf s.mem = true ∧ SMap.wf (fun _ => false) s.valid = true ∧ SMap.wf resetWord s.regs = true ∧
      SMap.wf (fun _ => []) s.flaws = true ∧ SMap.wf (fun _ => TileS.reset) s.tiles = true ∧
      SMap.wf (fun _ => DieS.reset) s.dies = true ∧ SMap.wf (fun _ => PortS.reset) s.ports = true) := by
  simp only [State.canon, Bool.and_eq_true, and_assoc]

/-- The canonical form as a predicate on states. -/
def State.Canon (s : State) : Prop := s.canon = true

theorem closed_canon : Closed State.Canon where
  wr s a w h := by rw [State.Canon, State.canon_iff] at *; exact ⟨h.1, h.2.1, SMap.wf_set h.2.2.1 _ _, h.2.2.2⟩
  setTile s d t x h := by
    rw [State.Canon, State.canon_iff] at *
    exact ⟨h.1, h.2.1, h.2.2.1, h.2.2.2.1, SMap.wf_set h.2.2.2.2.1 _ _, h.2.2.2.2.2⟩
  setDie s d x h := by
    rw [State.Canon, State.canon_iff] at *
    exact ⟨h.1, h.2.1, h.2.2.1, h.2.2.2.1, h.2.2.2.2.1, SMap.wf_set h.2.2.2.2.2.1 _ _, h.2.2.2.2.2.2⟩
  setPort s q x h := by
    rw [State.Canon, State.canon_iff] at *
    exact ⟨h.1, h.2.1, h.2.2.1, h.2.2.2.1, h.2.2.2.2.1, h.2.2.2.2.2.1, SMap.wf_set h.2.2.2.2.2.2 _ _⟩
  setM _ _ h := h
  setByte s a b h := by rw [State.Canon, State.canon_iff] at *; exact ⟨SMap.wf_set h.1 _ _, h.2⟩
  setValid s l v h := by rw [State.Canon, State.canon_iff] at *; exact ⟨h.1, SMap.wf_set h.2.1 _ _, h.2.2⟩
  setFlaw s k e h := by
    rw [State.Canon, State.canon_iff] at *
    exact ⟨h.1, h.2.1, h.2.2.1, SMap.wf_set h.2.2.2.1 _ _, h.2.2.2.2⟩
  dropMem s p h := by rw [State.Canon, State.canon_iff] at *; exact ⟨SMap.wf_drop h.1 _, h.2⟩
  dropValid s p h := by rw [State.Canon, State.canon_iff] at *; exact ⟨h.1, SMap.wf_drop h.2.1 _, h.2.2⟩
  dropRegs s p h := by rw [State.Canon, State.canon_iff] at *; exact ⟨h.1, h.2.1, SMap.wf_drop h.2.2.1 _, h.2.2.2⟩
  dropFlaws s p h := by
    rw [State.Canon, State.canon_iff] at *
    exact ⟨h.1, h.2.1, h.2.2.1, SMap.wf_drop h.2.2.2.1 _, h.2.2.2.2⟩
  forgetTiles s p h := by
    rw [State.Canon, State.canon_iff] at *
    exact ⟨h.1, h.2.1, h.2.2.1, h.2.2.2.1, SMap.wf_drop h.2.2.2.2.1 _, h.2.2.2.2.2⟩
  forgetDies s p h := by
    rw [State.Canon, State.canon_iff] at *
    exact ⟨h.1, h.2.1, h.2.2.1, h.2.2.2.1, h.2.2.2.2.1, SMap.wf_drop h.2.2.2.2.2.1 _, h.2.2.2.2.2.2⟩
  forgetPorts s p h := by
    rw [State.Canon, State.canon_iff] at *
    exact ⟨h.1, h.2.1, h.2.2.1, h.2.2.2.1, h.2.2.2.2.1, h.2.2.2.2.2.1, SMap.wf_drop h.2.2.2.2.2.2 _⟩
  setLoose _ _ h := h
  setWaiting _ _ h := h
  emitAll _ _ h := h
  answer _ _ h := h
  draw _ h := h
  allReset _ _ := rfl

/-- A predicate on the parts that no primitive update changes. -/
theorem closed_const (P : List Instr → Prop) : Closed (fun s => P s.pending) where
  wr _ _ _ h := h
  setTile _ _ _ _ h := h
  setDie _ _ _ h := h
  setPort _ _ _ h := h
  setM _ _ h := h
  setByte _ _ _ h := h
  setValid _ _ _ h := h
  setFlaw _ _ _ h := h
  dropMem _ _ h := h
  dropValid _ _ h := h
  dropRegs _ _ h := h
  dropFlaws _ _ h := h
  forgetTiles _ _ h := h
  forgetDies _ _ h := h
  forgetPorts _ _ h := h
  setLoose _ _ h := h
  setWaiting _ _ h := h
  emitAll _ _ h := h
  answer _ _ h := h
  draw _ h := h
  allReset _ h := h

/-- What was sent stays sent, and no free value is drawn twice. -/
theorem closed_sent (l : List Emit) (n : Nat) : Closed (fun s => l <+: s.out ∧ n ≤ s.free) where
  wr _ _ _ h := h
  setTile _ _ _ _ h := h
  setDie _ _ _ h := h
  setPort _ _ _ h := h
  setM _ _ h := h
  setByte _ _ _ h := h
  setValid _ _ _ h := h
  setFlaw _ _ _ h := h
  dropMem _ _ h := h
  dropValid _ _ h := h
  dropRegs _ _ h := h
  dropFlaws _ _ h := h
  forgetTiles _ _ h := h
  forgetDies _ _ h := h
  forgetPorts _ _ h := h
  setLoose _ _ h := h
  setWaiting _ _ h := h
  emitAll _ e h := ⟨h.1.trans (List.prefix_append _ e), h.2⟩
  answer _ _ h := h
  draw _ h := ⟨h.1, Nat.le_succ_of_le h.2⟩
  allReset _ h := h

end Sys2Proof.Machine
end

