-- ==== Sys2Proof/Laws/OkRegs.lean ====
section
/-! SUPPORT. Every operation of Machine/Regs.lean keeps a predicate closed under the primitive updates. -/

set_option linter.unusedTactic false
set_option linter.unreachableTactic false

namespace Sys2Proof.Machine

variable {K : State → Prop}

theorem State.wr_ok (hK : Closed K) (s : State) (a : Nat) (w : Word) (hs : Ok K s) : Ok K (State.wr s a w) :=
  hK.wr _ _ _ hs

theorem State.p_ok (hK : Closed K) (s : State) (a : Nat) (f : RF) (v : Nat) (hs : Ok K s) :
    Ok K (State.p s a f v) := by
  unfold State.p
  repeat' first
    | with_reducible first | assumption | apply State.wr_ok hK

theorem State.setTile_ok (hK : Closed K) (s : State) (d : Nat) (t : Nat) (x : TileS) (hs : Ok K s) : Ok K (State.setTile s d t x) :=
  hK.setTile _ _ _ _ hs

theorem State.setDie_ok (hK : Closed K) (s : State) (d : Nat) (x : DieS) (hs : Ok K s) : Ok K (State.setDie s d x) :=
  hK.setDie _ _ _ hs

theorem State.setPort_ok (hK : Closed K) (s : State) (q : Nat) (x : PortS) (hs : Ok K s) : Ok K (State.setPort s q x) :=
  hK.setPort _ _ _ hs

theorem State.setM_ok (hK : Closed K) (s : State) (m : ModS) (hs : Ok K s) : Ok K (State.setM s m) :=
  hK.setM _ _ hs

theorem State.setByte_ok (hK : Closed K) (s : State) (a : Nat) (b : Byte) (hs : Ok K s) : Ok K (State.setByte s a b) :=
  hK.setByte _ _ _ hs

theorem State.setBytes_ok (hK : Closed K) (s : State) (a : Nat) (ps0 : List Byte) (hs : Ok K s) :
    Ok K (State.setBytes s a ps0) := by
  fun_induction State.setBytes s a ps0
  all_goals
    repeat' first
      | with_reducible first | assumption | apply State.setByte_ok hK | apply_assumption

theorem State.dropMem_ok (hK : Closed K) (s : State) (p : Nat → Bool) (hs : Ok K s) : Ok K (State.dropMem s p) :=
  hK.dropMem _ _ hs

theorem State.zeroRange_ok (hK : Closed K) (s : State) (lo : Nat) (hi : Nat) (hs : Ok K s) :
    Ok K (State.zeroRange s lo hi) := by
  unfold State.zeroRange
  repeat' first
    | with_reducible first | assumption | apply State.dropMem_ok hK

theorem State.dropRegs_ok (hK : Closed K) (s : State) (p : Nat → Bool) (hs : Ok K s) : Ok K (State.dropRegs s p) :=
  hK.dropRegs _ _ hs

theorem State.forgetTiles_ok (hK : Closed K) (s : State) (p : Nat → Bool) (hs : Ok K s) : Ok K (State.forgetTiles s p) :=
  hK.forgetTiles _ _ hs

theorem State.forgetDies_ok (hK : Closed K) (s : State) (p : Nat → Bool) (hs : Ok K s) : Ok K (State.forgetDies s p) :=
  hK.forgetDies _ _ hs

theorem State.forgetPorts_ok (hK : Closed K) (s : State) (p : Nat → Bool) (hs : Ok K s) : Ok K (State.forgetPorts s p) :=
  hK.forgetPorts _ _ hs

theorem State.dropFlaws_ok (hK : Closed K) (s : State) (p : Nat → Bool) (hs : Ok K s) : Ok K (State.dropFlaws s p) :=
  hK.dropFlaws _ _ hs

theorem State.setLoose_ok (hK : Closed K) (s : State) (l : List Loose) (hs : Ok K s) : Ok K (State.setLoose s l) :=
  hK.setLoose _ _ hs

theorem State.setWaiting_ok (hK : Closed K) (s : State) (l : List Waiting) (hs : Ok K s) : Ok K (State.setWaiting s l) :=
  hK.setWaiting _ _ hs

theorem State.setValid_ok (hK : Closed K) (s : State) (l : Nat) (v : Bool) (hs : Ok K s) : Ok K (State.setValid s l v) :=
  hK.setValid _ _ _ hs

theorem State.dropValid_ok (hK : Closed K) (s : State) (p : Nat → Bool) (hs : Ok K s) : Ok K (State.dropValid s p) :=
  hK.dropValid _ _ hs

theorem State.invalidate_ok (hK : Closed K) (s : State) (lo : Nat) (hi : Nat) (hs : Ok K s) :
    Ok K (State.invalidate s lo hi) := by
  unfold State.invalidate
  repeat' first
    | with_reducible first | assumption | apply State.zeroRange_ok hK | apply State.dropValid_ok hK

theorem State.setFlaw_ok (hK : Closed K) (s : State) (k : Nat) (e : List Byte) (hs : Ok K s) : Ok K (State.setFlaw s k e) :=
  hK.setFlaw _ _ _ hs

theorem State.emitAll_ok (hK : Closed K) (s : State) (l : List Emit) (hs : Ok K s) : Ok K (State.emitAll s l) :=
  hK.emitAll _ _ hs

theorem State.emit_ok (hK : Closed K) (s : State) (e : Emit) (hs : Ok K s) :
    Ok K (State.emit s e) := by
  unfold State.emit
  repeat' first
    | with_reducible first | assumption | apply State.emitAll_ok hK

theorem State.answer_ok (hK : Closed K) (s : State) (r : Reply) (hs : Ok K s) : Ok K (State.answer s r) :=
  hK.answer _ _ hs

theorem State.draw_ok (hK : Closed K) (s : State) (hs : Ok K s) : Ok K (State.draw s).2 :=
  hK.draw _ hs

theorem State.largest_ok (hK : Closed K) (s : State) (b : Nat) (hs : Ok K s) : Ok K (State.largest s b).2 := by
  unfold State.largest
  split
  · exact State.draw_ok hK s hs
  · exact hs

theorem State.inc64_ok (hK : Closed K) (s : State) (a : Nat) (n : Nat) (hs : Ok K s) :
    Ok K (State.inc64 s a n) := by
  unfold State.inc64
  repeat' first
    | with_reducible first | assumption | apply State.wr_ok hK

theorem State.inc32_ok (hK : Closed K) (s : State) (a : Nat) (n : Nat) (hs : Ok K s) :
    Ok K (State.inc32 s a n) := by
  unfold State.inc32
  repeat' first
    | with_reducible first | assumption | apply State.wr_ok hK

end Sys2Proof.Machine
end

