-- ==== Sys2Proof/Laws/OkEvents.lean ====
section
/-! SUPPORT. Every operation of Machine/Events.lean keeps a predicate closed under the primitive updates. -/

set_option linter.unusedTactic false
set_option linter.unreachableTactic false

namespace Sys2Proof.Machine

variable {K : State → Prop}

theorem State.wrWords_ok (hK : Closed K) (s : State) (a : Nat) (ps0 : List Word) (hs : Ok K s) :
    Ok K (State.wrWords s a ps0) := by
  fun_induction State.wrWords s a ps0
  all_goals
    repeat' first
      | with_reducible first | assumption | apply State.wr_ok hK | apply_assumption

theorem State.setBit_ok (hK : Closed K) (s : State) (a : Nat) (i : Nat) (hs : Ok K s) :
    Ok K (State.setBit s a i) := by
  unfold State.setBit
  repeat' first
    | with_reducible first | assumption | apply State.p_ok hK

theorem State.lineRaw_ok (hK : Closed K) (s : State) (die : Bool) (d : Nat) (t : Nat) (l : Nat) (hs : Ok K s) :
    Ok K (State.lineRaw s die d t l).2 := by
  unfold State.lineRaw
  repeat' first
    | with_reducible first | assumption | apply ok_ite_snd | apply State.p_ok hK

theorem State.rawWrite_ok (hK : Closed K) (s : State) (a : Nat) (bs : List Byte) (hs : Ok K s) :
    Ok K (State.rawWrite s a bs) := by
  unfold State.rawWrite
  repeat' first
    | with_reducible first | assumption | apply State.setValid_ok hK | apply State.setBytes_ok hK
    | (extract_lets +onlyGivenNames v; have hv : Ok K v := ?_; clear_value v; pick_goal 2; subst v)
    | split

theorem State.logPut_ok (hK : Closed K) (s : State) (d : Nat) (e : Ev) (at' : EvAt) (i : Info) (ps0 : Nat)
    (hs : Ok K s) :
    Ok K (State.logPut s d e at' i ps0) := by
  fun_induction State.logPut s d e at' i ps0
  all_goals
    repeat' first
      | with_reducible first | apply ok_ite
      | with_reducible first | assumption | apply State.lineRaw_ok hK | apply State.setBit_ok hK
      | with_reducible first | apply State.inc32_ok hK | apply State.wrWords_ok hK | apply State.setDie_ok hK
      | with_reducible first | apply State.rawWrite_ok hK | apply State.p_ok hK | apply_assumption

theorem State.flashPut_ok (hK : Closed K) (s : State) (e : Ev) (at' : EvAt) (i : Info) (hs : Ok K s) :
    Ok K (State.flashPut s e at' i) := by
  unfold State.flashPut
  repeat' first
    | with_reducible first | assumption | apply ok_ite | apply State.setM_ok hK

theorem State.logRec_ok (hK : Closed K) (s : State) (e : Ev) (at' : EvAt) (i : Info) (hs : Ok K s) :
    Ok K (State.logRec s e at' i) := by
  unfold State.logRec
  repeat' first
    | with_reducible first | assumption | apply ok_ite | apply State.logPut_ok hK | apply State.flashPut_ok hK

theorem State.tracePut_ok (hK : Closed K) (s : State) (d : Nat) (t : Nat) (kind : Nat) (code : Nat) (mark : Nat)
    (issue : Nat) (v1 : Nat) (v2 : Nat) (hs : Ok K s) :
    Ok K (State.tracePut s d t kind code mark issue v1 v2).2 := by
  unfold State.tracePut
  repeat' first
    | with_reducible first | assumption | apply ok_ite | apply ok_ite_snd | apply State.lineRaw_ok hK
    | with_reducible first | apply State.setBit_ok hK | apply State.inc64_ok hK | apply State.rawWrite_ok hK
    | with_reducible first | apply State.p_ok hK

theorem State.trace_ok (hK : Closed K) (s : State) (d : Nat) (t : Nat) (kind : Nat) (code : Nat) (mark : Nat)
    (issue : Nat) (v1 : Nat) (v2 : Nat) (hs : Ok K s) :
    Ok K (State.trace s d t kind code mark issue v1 v2) := by
  unfold State.trace
  repeat' first
    | with_reducible first | assumption | apply ok_ite | apply State.tracePut_ok hK | apply State.logRec_ok hK
    | with_reducible first | apply State.p_ok hK

theorem State.raise_ok (hK : Closed K) (s : State) (e : Ev) (at' : EvAt) (i : Info) (hs : Ok K s) :
    Ok K (State.raise s e at' i) := by
  unfold State.raise
  repeat' first
    | with_reducible first | assumption | apply State.setBit_ok hK | apply State.logRec_ok hK
    | with_reducible first | apply State.trace_ok hK
    | (extract_lets +onlyGivenNames v; have hv : Ok K v := ?_; clear_value v; pick_goal 2; subst v)
    | (extract_lets +onlyGivenNames v; (fail_if_success (have : ∀ z, v z = v z := fun _ => rfl)); clear_value v)
    | split

theorem State.record_ok (hK : Closed K) (s : State) (e : Ev) (at' : EvAt) (i : Info) (hs : Ok K s) :
    Ok K (State.record s e at' i) := by
  unfold State.record
  repeat' first
    | with_reducible first | assumption | apply State.logRec_ok hK

theorem State.satEvent_ok (hK : Closed K) (s : State) (at' : EvAt) (blkId : Nat) (j : Nat) (hs : Ok K s) :
    Ok K (State.satEvent s at' blkId j) := by
  unfold State.satEvent
  repeat' first
    | with_reducible first | assumption | apply State.raise_ok hK
    | (extract_lets +onlyGivenNames v; (fail_if_success (have : ∀ z, v z = v z := fun _ => rfl)); clear_value v)
    | split

theorem State.opcBump_ok (hK : Closed K) (s : State) (d : Nat) (t : Nat) (grp : Nat) (i : Nat) (n : Nat) (hs : Ok K s)
    :
    Ok K (State.opcBump s d t grp i n) := by
  unfold State.opcBump
  repeat' first
    | with_reducible first | assumption | apply ok_ite | apply State.setTile_ok hK

theorem State.cnt_ok (hK : Closed K) (s : State) (d : Nat) (t : Nat) (i : Nat) (n : Nat) (hs : Ok K s) :
    Ok K (State.cnt s d t i n) := by
  unfold State.cnt
  repeat' first
    | with_reducible first | assumption | apply ok_ite | apply State.inc64_ok hK | apply State.opcBump_ok hK

theorem State.brk_ok (hK : Closed K) (s : State) (d : Nat) (t : Nat) (j : Nat) (n : Nat) (hs : Ok K s) :
    Ok K (State.brk s d t j n) := by
  unfold State.brk
  repeat' first
    | with_reducible first | assumption | apply ok_ite | apply State.satEvent_ok hK | apply State.inc32_ok hK
    | with_reducible first | apply State.opcBump_ok hK

theorem State.dcnt_ok (hK : Closed K) (s : State) (d : Nat) (i : Nat) (n : Nat) (hs : Ok K s) :
    Ok K (State.dcnt s d i n) := by
  unfold State.dcnt
  repeat' first
    | with_reducible first | assumption | apply ok_ite | apply State.inc64_ok hK

theorem State.dbrk_ok (hK : Closed K) (s : State) (d : Nat) (j : Nat) (n : Nat) (hs : Ok K s) :
    Ok K (State.dbrk s d j n) := by
  unfold State.dbrk
  repeat' first
    | with_reducible first | assumption | apply ok_ite | apply State.satEvent_ok hK | apply State.inc32_ok hK

theorem State.mbrk_ok (hK : Closed K) (s : State) (a : Nat) (blkId : Nat) (j : Nat) (n : Nat) (hs : Ok K s) :
    Ok K (State.mbrk s a blkId j n) := by
  unfold State.mbrk
  repeat' first
    | with_reducible first | assumption | apply ok_ite | apply State.satEvent_ok hK | apply State.inc32_ok hK

theorem State.request_ok (hK : Closed K) (s : State) (die : Bool) (d : Nat) (t : Nat) (l : Nat) (hs : Ok K s) :
    Ok K (State.request s die d t l) := by
  unfold State.request
  repeat' first
    | with_reducible first | assumption | apply ok_ite | apply State.lineRaw_ok hK | apply State.raise_ok hK
    | with_reducible first | apply State.brk_ok hK | apply State.dbrk_ok hK

end Sys2Proof.Machine
end

