-- ==== Sys2Proof/Laws/OkExtMem.lean ====
section
/-! SUPPORT. Every operation of Machine/ExtMem.lean keeps a predicate closed under the primitive updates. -/

set_option linter.unusedTactic false
set_option linter.unreachableTactic false

namespace Sys2Proof.Machine

variable {K : State → Prop}

theorem State.repairPush_ok (hK : Closed K) (s : State) (d : Nat) (a : Nat) (hs : Ok K s) :
    Ok K (State.repairPush s d a) := by
  unfold State.repairPush
  repeat' first
    | with_reducible first | assumption | apply ok_ite | apply State.setDie_ok hK | apply State.raise_ok hK
    | with_reducible first | apply State.p_ok hK

theorem State.ueReport_ok (hK : Closed K) (s : State) (tier2 : Bool) (d : Nat) (ctl : Nat) (a : Nat) (cls : Nat)
    (src : Nat) (ps0 : Nat) (hs : Ok K s) :
    Ok K (State.ueReport s tier2 d ctl a cls src ps0) := by
  fun_induction State.ueReport s tier2 d ctl a cls src ps0
  all_goals
    repeat' first
      | with_reducible first | assumption | apply ok_ite | apply State.wr_ok hK | apply State.raise_ok hK
      | with_reducible first | apply State.dbrk_ok hK | apply_assumption

theorem State.upsets_ok (hK : Closed K) (s : State) (ps0 : List Upset) (hs : Ok K s) :
    Ok K (State.upsets s ps0) := by
  induction ps0 generalizing s with
  | nil => exact hs
  | cons u us ih =>
    unfold State.upsets
    refine ih _ ?_
    dsimp only
    repeat' first
      | with_reducible assumption
      | with_reducible apply State.setFlaw_ok hK
      | split

theorem State.burn_ok (hK : Closed K) (s : State) (a : Nat) (e : List Byte) (hs : Ok K s) :
    Ok K (State.burn s a e) := by
  unfold State.burn
  repeat' first
    | with_reducible first | assumption | apply ok_ite | apply State.setBytes_ok hK

theorem State.readHbmWord_ok (hK : Closed K) (s : State) (a : Nat) (wb : Bool) (hs : Ok K s) :
    Ok K (State.readHbmWord s a wb).2 := by
  unfold State.readHbmWord
  repeat' first
    | with_reducible first | assumption | apply ok_ite | apply State.setFlaw_ok hK | apply State.burn_ok hK
    | (extract_lets +onlyGivenNames v; (fail_if_success (have : ∀ z, v z = v z := fun _ => rfl)); clear_value v)
    | split

theorem State.rebuildCheck_ok (hK : Closed K) (s : State) (d : Nat) (p : Nat) (n : Nat) (k : Nat) (ps0 : Nat)
    (hs : Ok K s) :
    Ok K (State.rebuildCheck s d p n k ps0) := by
  fun_induction State.rebuildCheck s d p n k ps0
  all_goals
    repeat' first
      | with_reducible first | assumption | apply State.setFlaw_ok hK | apply State.burn_ok hK | apply_assumption

theorem State.readCheck_ok (hK : Closed K) (s : State) (d : Nat) (p : Nat) (n : Nat) (k : Nat) (wb : Bool)
    (hs : Ok K s) :
    Ok K (State.readCheck s d p n k wb).2 := by
  unfold State.readCheck
  repeat' first
    | with_reducible first | assumption | apply ok_ite | apply State.setFlaw_ok hK | apply State.raise_ok hK
    | with_reducible first | apply State.rebuildCheck_ok hK | apply State.dbrk_ok hK
    | split

theorem State.readTr2Word_ok (hK : Closed K) (s : State) (d : Nat) (off : Nat) (wb : Bool) (hs : Ok K s) :
    Ok K (State.readTr2Word s d off wb).2 := by
  unfold State.readTr2Word
  repeat' first
    | with_reducible first | assumption | apply ok_ite | apply ok_ite_snd | apply State.readCheck_ok hK
    | with_reducible first | apply State.setFlaw_ok hK | apply State.burn_ok hK
    | (extract_lets +onlyGivenNames v; (fail_if_success (have : ∀ z, v z = v z := fun _ => rfl)); clear_value v)
    | split

theorem State.tighten_ok (hK : Closed K) (s : State) (a : Nat) (hs : Ok K s) :
    Ok K (State.tighten s a) := by
  unfold State.tighten
  repeat' first
    | with_reducible first | assumption | apply ok_ite | apply State.setLoose_ok hK

theorem State.readExt_ok (hK : Closed K) (s : State) (a : Nat) (cls : Nat) (src : Nat) (wb : Bool) (linkBad : Bool)
    (hs : Ok K s) :
    Ok K (State.readExt s a cls src wb linkBad).2 := by
  unfold State.readExt
  repeat' first
    | with_reducible first | assumption | apply State.readTr2Word_ok hK | apply State.readHbmWord_ok hK
    | with_reducible first | apply State.dcnt_ok hK | apply State.ueReport_ok hK | apply State.dbrk_ok hK
    | split

end Sys2Proof.Machine
end

