-- ==== Sys2Proof/Laws/OkRowCache.lean ====
section
/-! SUPPORT. Every operation of Machine/RowCache.lean keeps a predicate closed under the primitive updates. -/

set_option linter.unusedTactic false
set_option linter.unreachableTactic false

namespace Sys2Proof.Machine

variable {K : State → Prop}

theorem State.readQuiet_ok (hK : Closed K) (s : State) (d : Nat) (a : Nat) (hs : Ok K s) :
    Ok K (State.readQuiet s d a).2 := by
  unfold State.readQuiet
  repeat' first
    | with_reducible first | assumption | apply State.readHbmWord_ok hK | apply State.dbrk_ok hK

theorem State.writeQuiet_ok (hK : Closed K) (s : State) (a : Nat) (ps0 : List (List Byte)) (hs : Ok K s) :
    Ok K (State.writeQuiet s a ps0) := by
  fun_induction State.writeQuiet s a ps0
  all_goals
    repeat' first
      | with_reducible first | assumption | apply State.tighten_ok hK | apply State.setFlaw_ok hK
      | with_reducible first | apply State.setBytes_ok hK | apply_assumption

theorem State.rcTags_ok (hK : Closed K) (s : State) (d : Nat) (k : Nat) (set : Nat) (hs : Ok K s) :
    Ok K (State.rcTags s d k set).2 := by
  unfold State.rcTags
  repeat' first
    | with_reducible first | assumption | apply ok_ite_snd | apply State.writeQuiet_ok hK
    | with_reducible first | apply State.readQuiet_ok hK | apply State.dbrk_ok hK

theorem State.setRcTags_ok (hK : Closed K) (s : State) (d : Nat) (k : Nat) (set : Nat) (tags : List Nat) (hs : Ok K s)
    :
    Ok K (State.setRcTags s d k set tags) := by
  unfold State.setRcTags
  repeat' first
    | with_reducible first | assumption | apply State.writeQuiet_ok hK

theorem State.rcRead8_ok (hK : Closed K) (s : State) (a : Nat) (cls : Nat) (src : Nat) (lb : Bool) (ps0 : Nat)
    (hs : Ok K s) :
    Ok K (State.rcRead8 s a cls src lb ps0).2 := by
  fun_induction State.rcRead8 s a cls src lb ps0
  all_goals
    repeat' first
      | with_reducible first | assumption | apply ok_ite | apply State.repairPush_ok hK | apply State.readExt_ok hK
      | split
      | with_reducible first | refine ok_snd (by assumption) ?_ | apply_assumption

theorem State.rcFill_ok (hK : Closed K) (s : State) (d : Nat) (line : Nat) (src : Nat) (lb : Bool)
    (hs : Ok K s) :
    Ok K (State.rcFill s d line src lb).2 := by
  unfold State.rcFill
  repeat' first
    | with_reducible first | assumption | apply ok_ite_snd | apply State.rcRead8_ok hK | apply State.rcTags_ok hK
    | with_reducible first | apply State.writeQuiet_ok hK | apply State.setRcTags_ok hK

theorem State.rcReadWay_ok (hK : Closed K) (s : State) (d : Nat) (a : Nat) (ps0 : Nat) (hs : Ok K s) :
    Ok K (State.rcReadWay s d a ps0).2 := by
  fun_induction State.rcReadWay s d a ps0
  all_goals
    repeat' first
      | with_reducible first | assumption | apply State.readQuiet_ok hK | refine ok_snd (by assumption) ?_
      | with_reducible first | apply_assumption

theorem State.rcLookup_ok (hK : Closed K) (s : State) (d : Nat) (line : Nat) (hs : Ok K s) :
    Ok K (State.rcLookup s d line).2 := by
  unfold State.rcLookup
  repeat' first
    | with_reducible first | assumption | apply ok_ite_snd | apply State.rcTags_ok hK | apply State.setRcTags_ok hK
    | with_reducible first | apply State.rcReadWay_ok hK | apply State.dbrk_ok hK
    | (extract_lets +onlyGivenNames v; (fail_if_success (have : ∀ z, v z = v z := fun _ => rfl)); clear_value v)
    | split
    | with_reducible refine ok_snd (by assumption) ?_

theorem State.rcWrite_ok (hK : Closed K) (s : State) (d : Nat) (off : Nat) (bs : List Byte) (hs : Ok K s) :
    Ok K (State.rcWrite s d off bs) := by
  unfold State.rcWrite
  repeat' first
    | with_reducible first | assumption | apply State.writeQuiet_ok hK | apply State.readQuiet_ok hK
    | (extract_lets +onlyGivenNames v; (fail_if_success (have : ∀ z, v z = v z := fun _ => rfl)); clear_value v)
    | split

end Sys2Proof.Machine
end

