-- ==== Sys2Proof/Laws/OkOps.lean ====
section
/-! SUPPORT. Every operation of Machine/Ops.lean keeps a predicate closed under the primitive updates. -/

set_option linter.unusedTactic false
set_option linter.unreachableTactic false

namespace Sys2Proof.Machine

variable {K : State → Prop}

theorem State.seqHalt_ok (hK : Closed K) (s : State) (d : Nat) (t : Nat) (cause : Nat) (hs : Ok K s) :
    Ok K (State.seqHalt s d t cause) := by
  unfold State.seqHalt
  repeat' first
    | with_reducible first | assumption | apply State.setTile_ok hK | apply State.p_ok hK

theorem State.genCheck_ok (hK : Closed K) (s : State) (d : Nat) (t : Nat) (hs : Ok K s) :
    Ok K (State.genCheck s d t) := by
  unfold State.genCheck
  repeat' first
    | with_reducible first | assumption | apply ok_ite | apply State.raise_ok hK | apply State.seqHalt_ok hK

theorem State.arrayWake_ok (hK : Closed K) (s : State) (d : Nat) (hs : Ok K s) :
    Ok K (State.arrayWake s d) := by
  unfold State.arrayWake
  repeat' first
    | with_reducible first | assumption | apply ok_ite | apply State.setDie_ok hK | apply State.p_ok hK

theorem State.ungate_ok (hK : Closed K) (s : State) (d : Nat) (t : Nat) (hs : Ok K s) :
    Ok K (State.ungate s d t) := by
  unfold State.ungate
  repeat' first
    | with_reducible first | assumption | apply ok_ite | apply State.arrayWake_ok hK | apply State.setTile_ok hK
    | with_reducible first | apply State.genCheck_ok hK

theorem State.refuse_ok (hK : Closed K) (s : State) (r : Requester) (a : Nat) (write : Bool) (e : AccErr)
    (hs : Ok K s) :
    Ok K (State.refuse s r a write e) := by
  unfold State.refuse
  repeat' first
    | with_reducible first | assumption | apply State.wr_ok hK | apply State.raise_ok hK | apply State.p_ok hK
    | with_reducible first | apply State.brk_ok hK | apply State.dbrk_ok hK
    | (extract_lets +onlyGivenNames v; (fail_if_success (have : ∀ z, v z = v z := fun _ => rfl)); clear_value v)
    | split

theorem State.setBankPwr_ok (hK : Closed K) (s : State) (d : Nat) (t : Nat) (b : Nat) (v : Nat) (hs : Ok K s) :
    Ok K (State.setBankPwr s d t b v) := by
  unfold State.setBankPwr
  repeat' first
    | with_reducible first | assumption | apply ok_ite | apply State.p_ok hK

theorem State.wakeFor_ok (hK : Closed K) (s : State) (r : Requester) (g : Rgn) (hs : Ok K s) :
    Ok K (State.wakeFor s r g) := by
  unfold State.wakeFor
  repeat' first
    | with_reducible first | assumption | apply ok_ite | apply State.ungate_ok hK | apply State.setBankPwr_ok hK
    | (extract_lets +onlyGivenNames v; have hv : Ok K v := ?_; clear_value v; pick_goal 2; subst v)
    | split

theorem State.readChip_ok (hK : Closed K) (s : State) (g : Rgn) (a : Nat) (hs : Ok K s) :
    Ok K (State.readChip s g a).2 := by
  unfold State.readChip
  repeat' first
    | with_reducible first | assumption | apply ok_ite | apply ok_ite_snd | apply State.raise_ok hK
    | with_reducible first | apply State.brk_ok hK

theorem State.readPlain_ok (hK : Closed K) (s : State) (d : Nat) (a : Nat) (linkBad : Bool) (hs : Ok K s) :
    Ok K (State.readPlain s d a linkBad).2 := by
  unfold State.readPlain
  repeat' first
    | with_reducible first | assumption | apply ok_ite | apply ok_ite_snd | apply State.repairPush_ok hK
    | with_reducible first | apply State.readExt_ok hK

theorem State.readCached_ok (hK : Closed K) (s : State) (d : Nat) (off : Nat) (lb : Bool) (hs : Ok K s) :
    Ok K (State.readCached s d off lb).2 := by
  unfold State.readCached
  repeat' first
    | with_reducible first | assumption | apply State.dcnt_ok hK | apply State.rcFill_ok hK
    | with_reducible first | apply State.rcLookup_ok hK
    | split
    | with_reducible refine ok_snd (by assumption) ?_

theorem State.readLine_ok (hK : Closed K) (s : State) (r : Requester) (a : Nat) (linkBad : Bool) (hs : Ok K s) :
    Ok K (State.readLine s r a linkBad).2 := by
  unfold State.readLine
  repeat' first
    | with_reducible first | assumption | apply ok_ite_snd | apply State.readCached_ok hK | apply State.readChip_ok hK
    | with_reducible first | apply State.refuse_ok hK | apply State.readPlain_ok hK | apply State.wakeFor_ok hK
    | (extract_lets +onlyGivenNames v; (fail_if_success (have : ∀ z, v z = v z := fun _ => rfl)); clear_value v)
    | split

theorem State.readLines_ok (hK : Closed K) (s : State) (r : Requester) (a : Nat) (lb : Bool) (ps0 : Nat)
    (hs : Ok K s) :
    Ok K (State.readLines s r a lb ps0).2 := by
  fun_induction State.readLines s r a lb ps0
  all_goals
    repeat' first
      | with_reducible first | assumption | apply State.readLine_ok hK
      | split
      | with_reducible first | refine ok_snd (by assumption) ?_ | apply_assumption

theorem State.readSpan_ok (hK : Closed K) (s : State) (r : Requester) (a : Nat) (n : Nat) (lb : Bool)
    (hs : Ok K s) :
    Ok K (State.readSpan s r a n lb).2 := by
  unfold State.readSpan
  repeat' first
    | with_reducible first | assumption | apply State.readLines_ok hK

theorem State.writeExt_ok (hK : Closed K) (s : State) (d : Nat) (a : Nat) (i : Nat) (bs : List Byte) (hs : Ok K s) :
    Ok K (State.writeExt s d a i bs) := by
  unfold State.writeExt
  repeat' first
    | with_reducible first | assumption | apply ok_ite | apply ok_ite_snd | apply State.readTr2Word_ok hK
    | with_reducible first | apply State.tighten_ok hK | apply State.readHbmWord_ok hK | apply State.setFlaw_ok hK
    | with_reducible first | apply State.dcnt_ok hK | apply State.repairPush_ok hK | apply State.ueReport_ok hK
    | with_reducible first | apply State.rcWrite_ok hK | apply State.setBytes_ok hK
    | (extract_lets +onlyGivenNames v; have hv : Ok K v := ?_; clear_value v; pick_goal 2; subst v)
    | split

theorem State.writeLine_ok (hK : Closed K) (s : State) (r : Requester) (a : Nat) (i : Nat) (bs : List Byte)
    (hs : Ok K s) :
    Ok K (State.writeLine s r a i bs).2 := by
  unfold State.writeLine
  repeat' first
    | with_reducible first | assumption | apply State.writeExt_ok hK | apply State.refuse_ok hK
    | with_reducible first | apply State.setValid_ok hK | apply State.setBytes_ok hK | apply State.wakeFor_ok hK
    | (extract_lets +onlyGivenNames v; (fail_if_success (have : ∀ z, v z = v z := fun _ => rfl)); clear_value v)
    | split

theorem State.writeLines_ok (hK : Closed K) (s : State) (r : Requester) (a : Nat) (bs : List Byte) (ps0 : Nat)
    (hs : Ok K s) :
    Ok K (State.writeLines s r a bs ps0).2 := by
  fun_induction State.writeLines s r a bs ps0
  all_goals
    repeat' first
      | with_reducible first | assumption | apply State.writeLine_ok hK
      | split
      | with_reducible first | refine ok_snd (by assumption) ?_ | apply_assumption

theorem State.writeSpan_ok (hK : Closed K) (s : State) (r : Requester) (a : Nat) (bs : List Byte) (hs : Ok K s) :
    Ok K (State.writeSpan s r a bs).2 := by
  unfold State.writeSpan
  repeat' first
    | with_reducible first | assumption | apply State.writeLines_ok hK

theorem State.linkLost_ok (hK : Closed K) (s : State) (a : Nat) (hs : Ok K s) : Ok K (State.linkLost s a) := by
  unfold State.linkLost
  repeat' first
    | with_reducible first | assumption | apply ok_ite | apply State.repairPush_ok hK | apply State.ueReport_ok hK
    | with_reducible first | apply State.setFlaw_ok hK
    | (extract_lets +onlyGivenNames v; (fail_if_success (have : ∀ z, v z = v z := fun _ => rfl)); clear_value v)
    | split

end Sys2Proof.Machine
end

