-- ==== Sys2Proof/Laws/OkMemAccess.lean ====
section
/-! SUPPORT. Every operation of Machine/MemAccess.lean keeps a predicate closed under the primitive updates. -/

set_option linter.unusedTactic false
set_option linter.unreachableTactic false

namespace Sys2Proof.Machine

variable {K : State → Prop}

theorem State.serve_ok (hK : Closed K) (s : State) (r : Requester) (q : Access) (hs : Ok K s) :
    Ok K (State.serve s r q) := by
  unfold State.serve
  repeat' first
    | with_reducible first | assumption | apply ok_ite | apply State.readSpan_ok hK | apply State.answer_ok hK
    | with_reducible first | apply State.writeSpan_ok hK | apply State.linkLost_ok hK
    | split
    | with_reducible refine ok_snd (by assumption) ?_

theorem State.park_ok (hK : Closed K) (s : State) (r : Requester) (q : Access) (w : WaitWhy) (hs : Ok K s) :
    Ok K (State.park s r q w) := by
  unfold State.park
  repeat' first
    | with_reducible first | assumption | apply ok_ite | apply State.answer_ok hK | apply State.setTile_ok hK
    | with_reducible first | apply State.dcnt_ok hK | apply State.setWaiting_ok hK
    | split

theorem State.memAccess_ok (hK : Closed K) (s : State) (r : Requester) (q : Access) (hs : Ok K s) :
    Ok K (State.memAccess s r q) := by
  unfold State.memAccess
  repeat' first
    | with_reducible first | assumption | apply State.answer_ok hK | apply State.serve_ok hK
    | with_reducible first | apply State.refuse_ok hK | apply State.upsets_ok hK | apply State.park_ok hK
    | (extract_lets +onlyGivenNames v; have hv : Ok K v := ?_; clear_value v; pick_goal 2; subst v)
    | (extract_lets +onlyGivenNames v; (fail_if_success (have : ∀ z, v z = v z := fun _ => rfl)); clear_value v)
    | split

theorem State.rerun_ok (hK : Closed K) (s : State) (ps0 : List Waiting) (hs : Ok K s) :
    Ok K (State.rerun s ps0) := by
  induction ps0 generalizing s with
  | nil => exact hs
  | cons q qs ih =>
    unfold State.rerun
    exact ih _ (State.memAccess_ok hK _ _ _ hs)

theorem State.release_ok (hK : Closed K) (s : State) (p : WaitWhy → Bool) (hs : Ok K s) :
    Ok K (State.release s p) := by
  unfold State.release
  repeat' first
    | with_reducible first | assumption | apply State.rerun_ok hK | apply State.setWaiting_ok hK

theorem State.dualAccess_ok (hK : Closed K) (s : State) (r0 : Requester) (r1 : Requester) (q0 : Access) (q1 : Access)
    (d : Nat) (t : Nat) (hs : Ok K s) :
    Ok K (State.dualAccess s r0 r1 q0 q1 d t) := by
  unfold State.dualAccess
  repeat' first
    | with_reducible first | assumption | apply ok_ite | apply State.answer_ok hK | apply State.memAccess_ok hK
    | with_reducible first | apply State.raise_ok hK | apply State.brk_ok hK

theorem State.memAccess2_ok (hK : Closed K) (s : State) (r : Requester) (q : Access)
    (peer : Option (Requester × Access)) (hs : Ok K s) :
    Ok K (State.memAccess2 s r q peer) := by
  unfold State.memAccess2
  repeat' first
    | with_reducible first | assumption | apply ok_ite | apply State.memAccess_ok hK | apply State.dualAccess_ok hK
    | split

theorem State.fillServe_ok (hK : Closed K) (s : State) (d : Nat) (line : Nat) (bs : List Byte) (hs : Ok K s) :
    Ok K (State.fillServe s d line bs) := by
  unfold State.fillServe
  repeat' first
    | with_reducible first | assumption | apply ok_ite | apply State.answer_ok hK | apply State.serve_ok hK
    | with_reducible first | apply State.rerun_ok hK | apply State.setWaiting_ok hK
    | (extract_lets +onlyGivenNames v; have hv : Ok K v := ?_; clear_value v; pick_goal 2; subst v)
    | (extract_lets +onlyGivenNames v; (fail_if_success (have : ∀ z, v z = v z := fun _ => rfl)); clear_value v)
    | split

theorem execRcFill_ok (hK : Closed K) (d : Die) (a : Addr) (src : FillSource) (s : State) (hs : Ok K s) :
    OkOut K (execRcFill d a src s) := by
  unfold execRcFill
  repeat' first
    | with_reducible first | assumption | apply okOut_ite | apply ok_next | apply State.fillServe_ok hK
    | with_reducible first | apply State.rcFill_ok hK | apply State.dbrk_ok hK
    | split

theorem execBankWake_ok (hK : Closed K) (d : Die) (t : Tile) (b : BankIx) (s : State) (hs : Ok K s) :
    OkOut K (execBankWake d t b s) := by
  unfold execBankWake
  repeat' first
    | with_reducible first | assumption | apply okOut_ite | apply ok_next | apply State.setTile_ok hK
    | with_reducible first | apply State.setBankPwr_ok hK | apply State.release_ok hK

theorem State.xorLine_ok (hK : Closed K) (s : State) (r : Requester) (a : Nat) (bs : List Byte) (hs : Ok K s) :
    Ok K (State.xorLine s r a bs).2 := by
  unfold State.xorLine
  repeat' first
    | with_reducible first | assumption | apply State.rcTags_ok hK | apply State.readChip_ok hK
    | with_reducible first | apply State.writeExt_ok hK | apply State.refuse_ok hK | apply State.setRcTags_ok hK
    | with_reducible first | apply State.readPlain_ok hK | apply State.setValid_ok hK | apply State.setBytes_ok hK
    | with_reducible first | apply State.wakeFor_ok hK
    | (extract_lets +onlyGivenNames v; (fail_if_success (have : ∀ z, v z = v z := fun _ => rfl)); clear_value v)
    | split

theorem execXorLineWrite_ok (hK : Closed K) (r : Requester) (a : Addr) (bs : List Byte) (s : State) (hs : Ok K s) :
    OkOut K (execXorLineWrite r a bs s) := by
  unfold execXorLineWrite
  repeat' first
    | with_reducible first | assumption | apply okOut_ite | apply ok_next | apply State.answer_ok hK
    | with_reducible first | apply State.xorLine_ok hK
    | split
    | with_reducible refine ok_snd (by assumption) ?_

theorem State.patrol_ok (hK : Closed K) (s : State) (d : Nat) (c : ExtCtl) (l : Nat) (overwritten : Bool)
    (hs : Ok K s) :
    Ok K (State.patrol s d c l overwritten) := by
  unfold State.patrol
  repeat' first
    | with_reducible first | assumption | apply ok_ite | apply State.readCheck_ok hK | apply State.readExt_ok hK
    | split

theorem execPatrolRead_ok (hK : Closed K) (d : Die) (c : ExtCtl) (upset : List Upset) (overwritten : Bool) (s : State)
    (hs : Ok K s) :
    OkOut K (execPatrolRead d c upset overwritten s) := by
  unfold execPatrolRead
  repeat' first
    | with_reducible first | assumption | apply okOut_ite | apply ok_next | apply State.p_ok hK
    | with_reducible first | apply State.upsets_ok hK | apply State.patrol_ok hK

end Sys2Proof.Machine
end

