-- ==== Sys2Proof/Laws/OkCross.lean ====
section
/-! SUPPORT. Every operation of Machine/Cross.lean keeps a predicate closed under the primitive updates. -/

set_option linter.unusedTactic false
set_option linter.unreachableTactic false

namespace Sys2Proof.Machine

variable {K : State → Prop}

theorem State.refUpdate_ok (hK : Closed K) (s : State) (hs : Ok K s) :
    Ok K (State.refUpdate s) := by
  unfold State.refUpdate
  repeat' first
    | with_reducible first | assumption | apply ok_ite | apply State.setM_ok hK | apply State.raise_ok hK
    | with_reducible first | apply State.p_ok hK | apply State.mbrk_ok hK

theorem State.setPortState_ok (hK : Closed K) (s : State) (q : Nat) (v : Nat) (hs : Ok K s) :
    Ok K (State.setPortState s q v) := by
  unfold State.setPortState
  repeat' first
    | with_reducible first | assumption | apply State.refUpdate_ok hK | apply State.p_ok hK

theorem State.pump_ok (hK : Closed K) (s : State) (q : Nat) (ps0 : Nat) (hs : Ok K s) :
    Ok K (State.pump s q ps0) := by
  fun_induction State.pump s q ps0
  all_goals
    repeat' first
      | with_reducible first | assumption | apply State.setPort_ok hK | apply State.dcnt_ok hK
      | with_reducible first | apply State.emitAll_ok hK | apply_assumption

theorem State.enqueue_ok (hK : Closed K) (s : State) (q : Nat) (k : Packet) (hs : Ok K s) :
    Ok K (State.enqueue s q k) := by
  unfold State.enqueue
  repeat' first
    | with_reducible first | assumption | apply State.setPort_ok hK | apply State.pump_ok hK

theorem State.forward_ok (hK : Closed K) (s : State) (d : Nat) (k : Packet) (hs : Ok K s) :
    Ok K (State.forward s d k).2 := by
  unfold State.forward
  repeat' first
    | with_reducible first | assumption | apply ok_ite_snd | apply State.enqueue_ok hK | apply State.raise_ok hK
    | with_reducible first | apply State.dbrk_ok hK
    | (extract_lets +onlyGivenNames v; have hv : Ok K v := ?_; clear_value v; pick_goal 2; subst v)
    | split

theorem State.route_ok (hK : Closed K) (s : State) (d : Nat) (k : Packet) (ps0 : Nat) (hs : Ok K s) :
    Ok K (State.route s d k ps0) := by
  fun_induction State.route s d k ps0
  all_goals
    repeat' first
      | with_reducible first | assumption | apply State.forward_ok hK | apply State.emit_ok hK
      | with_reducible first | refine ok_snd (by assumption) ?_ | apply_assumption

theorem State.sendPkt_ok (hK : Closed K) (s : State) (d : Nat) (o : Owner) (k : Packet) (hs : Ok K s) :
    Ok K (State.sendPkt s d o k) := by
  unfold State.sendPkt
  repeat' first
    | with_reducible first | assumption | apply ok_ite | apply State.route_ok hK | apply State.setDie_ok hK

theorem State.sendWrites_ok (hK : Closed K) (s : State) (d : Nat) (o : Nat → Owner) (dst : Nat) (unit : Nat) (a : Nat)
    (ps0 : List (List Byte)) (hs : Ok K s) :
    Ok K (State.sendWrites s d o dst unit a ps0) := by
  fun_induction State.sendWrites s d o dst unit a ps0
  all_goals
    repeat' first
      | with_reducible first | assumption | apply State.sendPkt_ok hK | apply_assumption

end Sys2Proof.Machine
end

