-- ==== Sys2Proof/Laws/OkTally.lean ====
section
/-! SUPPORT. Every operation of Machine/Tally.lean keeps a predicate closed under the primitive updates. -/

set_option linter.unusedTactic false
set_option linter.unreachableTactic false

namespace Sys2Proof.Machine

variable {K : State → Prop}

theorem State.tConsume_ok (hK : Closed K) (s : State) (d : Nat) (n : Nat) (hs : Ok K s) :
    Ok K (State.tConsume s d n) := by
  unfold State.tConsume
  repeat' first
    | with_reducible first | assumption | apply ok_ite | apply State.p_ok hK

theorem State.judgeTiles_ok (hK : Closed K) (s : State) (d : Nat) (n : Nat) (ps0 : List Nat) (hs : Ok K s) :
    Ok K (State.judgeTiles s d n ps0) := by
  fun_induction State.judgeTiles s d n ps0
  all_goals
    repeat' first
      | with_reducible first | assumption | apply State.setTile_ok hK | apply State.tConsume_ok hK | apply_assumption

theorem State.judgeEngines_ok (hK : Closed K) (s : State) (d : Nat) (n : Nat) (ps0 : List (Nat × Nat × Bool))
    (hs : Ok K s) :
    Ok K (State.judgeEngines s d n ps0) := by
  fun_induction State.judgeEngines s d n ps0
  all_goals
    repeat' first
      | with_reducible first | assumption | apply State.setDie_ok hK | apply State.tConsume_ok hK | apply_assumption

theorem State.judgeHands_ok (hK : Closed K) (s : State) (d : Nat) (n : Nat) (ps0 : List (Nat × Nat)) (hs : Ok K s) :
    Ok K (State.judgeHands s d n ps0) := by
  fun_induction State.judgeHands s d n ps0
  all_goals
    repeat' first
      | with_reducible first | assumption | apply State.setDie_ok hK | apply State.tConsume_ok hK | apply_assumption

theorem State.judge_ok (hK : Closed K) (s : State) (d : Nat) (n : Nat) (hs : Ok K s) :
    Ok K (State.judge s d n) := by
  unfold State.judge
  repeat' first
    | with_reducible first | assumption | apply State.judgeHands_ok hK | apply State.judgeTiles_ok hK
    | with_reducible first | apply State.judgeEngines_ok hK

theorem State.tallyDoAdd_ok (hK : Closed K) (s : State) (d : Nat) (n : Nat) (amount : Int) (hs : Ok K s) :
    Ok K (State.tallyDoAdd s d n amount) := by
  unfold State.tallyDoAdd
  repeat' first
    | with_reducible first | assumption | apply ok_ite | apply State.raise_ok hK | apply State.p_ok hK

theorem State.tallyDo_ok (hK : Closed K) (s : State) (d : Nat) (bank : Nat) (ps0 : TallyOp) (hs : Ok K s) :
    Ok K (State.tallyDo s d bank ps0) := by
  unfold State.tallyDo
  repeat' first
    | with_reducible first | assumption | apply State.tallyDoAdd_ok hK | apply State.wr_ok hK
    | with_reducible first | apply State.dropRegs_ok hK | apply State.p_ok hK
    | split

theorem State.tallyPerform_ok (hK : Closed K) (s : State) (d : Nat) (bank : Nat) (o : TallyOp) (hs : Ok K s) :
    Ok K (State.tallyPerform s d bank o) := by
  unfold State.tallyPerform
  repeat' first
    | with_reducible first | assumption | apply State.tallyDo_ok hK | apply State.judge_ok hK | apply State.dcnt_ok hK
    | (extract_lets +onlyGivenNames v; have hv : Ok K v := ?_; clear_value v; pick_goal 2; subst v)
    | split

theorem State.tallyQueue_ok (hK : Closed K) (s : State) (d : Nat) (n : Nat) (o : TallyOp) (hs : Ok K s) :
    Ok K (State.tallyQueue s d n o) := by
  unfold State.tallyQueue
  repeat' first
    | with_reducible first | assumption | apply State.setDie_ok hK

theorem State.remoteLost_ok (hK : Closed K) (s : State) (d : Nat) (addr : Nat) (hs : Ok K s) :
    Ok K (State.remoteLost s d addr) := by
  unfold State.remoteLost
  repeat' first
    | with_reducible first | assumption | apply State.raise_ok hK | apply State.p_ok hK

theorem State.addTally_ok (hK : Closed K) (s : State) (d : Nat) (unit : Nat) (addr : Nat) (amount : Int) (hs : Ok K s)
    :
    Ok K (State.addTally s d unit addr amount) := by
  unfold State.addTally
  repeat' first
    | with_reducible first | assumption | apply ok_ite | apply State.tallyQueue_ok hK | apply State.sendPkt_ok hK

theorem State.doneAdd_ok (hK : Closed K) (s : State) (d : Nat) (unit : Nat) (x : Desc) (hs : Ok K s) :
    Ok K (State.doneAdd s d unit x) := by
  unfold State.doneAdd
  repeat' first
    | with_reducible first | assumption | apply ok_ite | apply State.addTally_ok hK

theorem State.engRegister_ok (hK : Closed K) (s : State) (d : Nat) (u : Nat) (n : Nat) (hs : Ok K s) :
    Ok K (State.engRegister s d u n) := by
  unfold State.engRegister
  repeat' first
    | with_reducible first | assumption | apply State.judge_ok hK | apply State.setDie_ok hK

theorem State.engClear_ok (hK : Closed K) (s : State) (d : Nat) (u : Nat) (hs : Ok K s) :
    Ok K (State.engClear s d u) := by
  unfold State.engClear
  repeat' first
    | with_reducible first | assumption | apply State.setDie_ok hK

theorem State.setLoop_ok (hK : Closed K) (s : State) (d : Nat) (t : Nat) (k : Nat) (v : Nat) (hs : Ok K s) :
    Ok K (State.setLoop s d t k v) := by
  unfold State.setLoop
  repeat' first
    | with_reducible first | assumption | apply State.p_ok hK

theorem State.advance_ok (hK : Closed K) (s : State) (d : Nat) (t : Nat) (hs : Ok K s) :
    Ok K (State.advance s d t) := by
  unfold State.advance
  repeat' first
    | with_reducible first | assumption | apply ok_ite | apply State.judge_ok hK | apply State.setTile_ok hK
    | with_reducible first | apply State.raise_ok hK | apply State.seqHalt_ok hK
    | split

end Sys2Proof.Machine
end

