-- ==== Sys2Proof/Laws/OkRegOp.lean ====
section
/-! SUPPORT. Every operation of Machine/RegOp.lean keeps a predicate closed under the primitive updates. -/

set_option linter.unusedTactic false
set_option linter.unreachableTactic false

namespace Sys2Proof.Machine

variable {K : State → Prop}

theorem State.touch_ok (hK : Closed K) (s : State) (a : Nat) (hs : Ok K s) :
    Ok K (State.touch s a) := by
  unfold State.touch
  repeat' first
    | with_reducible first | assumption | apply ok_ite | apply State.ungate_ok hK
    | split

theorem State.fail_ok (hK : Closed K) (s : State) (e : AccErr) (hs : Ok K s) :
    Ok K (State.fail s e) := by
  unfold State.fail
  repeat' first
    | with_reducible first | assumption | apply State.answer_ok hK

theorem State.regWr_ok (hK : Closed K) (s : State) (r : Requester) (a : Nat) (f : State → State) (hs : Ok K s)
    (hf : ∀ z0, Ok K z0 → Ok K (f z0)) :
    Ok K (State.regWr s r a f) := by
  unfold State.regWr
  repeat' first
    | with_reducible first | assumption | apply ok_ite | apply State.touch_ok hK | apply State.answer_ok hK
    | with_reducible first | apply State.refuse_ok hK | apply State.fail_ok hK | apply hf
    | split

theorem State.reserved_ok (hK : Closed K) (s : State) (d : Nat) (hs : Ok K s) :
    Ok K (State.reserved s d) := by
  unfold State.reserved
  repeat' first
    | with_reducible first | assumption | apply State.raise_ok hK

theorem State.engHead_ok (hK : Closed K) (s : State) (d : Nat) (u : Nat) (hs : Ok K s) :
    Ok K (State.engHead s d u) := by
  unfold State.engHead
  repeat' first
    | with_reducible first | assumption | apply ok_ite | apply State.engRegister_ok hK | apply State.engClear_ok hK
    | split

theorem State.engPush_ok (hK : Closed K) (s : State) (d : Nat) (u : Nat) (x : QDesc) (hs : Ok K s) :
    Ok K (State.engPush s d u x).2 := by
  unfold State.engPush
  repeat' first
    | with_reducible first | assumption | apply ok_ite | apply ok_ite_snd | apply State.arrayWake_ok hK
    | with_reducible first | apply State.setDie_ok hK | apply State.raise_ok hK | apply State.engHead_ok hK

theorem State.engPop_ok (hK : Closed K) (s : State) (d : Nat) (u : Nat) (hs : Ok K s) :
    Ok K (State.engPop s d u) := by
  unfold State.engPop
  repeat' first
    | with_reducible first | assumption | apply State.setDie_ok hK | apply State.engHead_ok hK

theorem State.engFlush_ok (hK : Closed K) (s : State) (d : Nat) (u : Nat) (hs : Ok K s) :
    Ok K (State.engFlush s d u) := by
  unfold State.engFlush
  repeat' first
    | with_reducible first | assumption | apply State.setDie_ok hK | apply State.engHead_ok hK

theorem State.submit_ok (hK : Closed K) (s : State) (r : Requester) (d : Nat) (u : Nat) (a : Nat) (v : Nat)
    (hs : Ok K s) :
    Ok K (State.submit s r d u a v) := by
  unfold State.submit
  repeat' first
    | with_reducible assumption
    | intro _
    | with_reducible first | apply ok_ite | apply State.regWr_ok hK | apply State.engPush_ok hK
    | with_reducible first | apply State.readLine_ok hK | apply State.reserved_ok hK | apply State.fail_ok hK
    | (extract_lets +onlyGivenNames v; (fail_if_success (have : ∀ z, v z = v z := fun _ => rfl)); clear_value v)
    | split
    | with_reducible refine ok_snd (by assumption) ?_

end Sys2Proof.Machine
end

