-- ==== Sys2Proof/Laws/OkRegView.lean ====
section
/-! SUPPORT. Every operation of Machine/RegView.lean keeps a predicate closed under the primitive updates. -/

set_option linter.unusedTactic false
set_option linter.unreachableTactic false

namespace Sys2Proof.Machine

variable {K : State → Prop}

theorem State.regRead_ok (hK : Closed K) (s : State) (a : Nat) (hs : Ok K s) :
    Ok K (State.regRead s a) := by
  unfold State.regRead
  repeat' first
    | with_reducible first | assumption | apply ok_ite | apply State.draw_ok hK | apply State.answer_ok hK

end Sys2Proof.Machine
end

