-- ==== Sys2Proof/Laws/OkBanks.lean ====
section
/-! SUPPORT. Every operation of Machine/Banks.lean keeps a predicate closed under the primitive updates. -/

set_option linter.unusedTactic false
set_option linter.unreachableTactic false

namespace Sys2Proof.Machine

variable {K : State → Prop}

theorem State.handFields_ok (hK : Closed K) (s : State) (d : Nat) (t : Nat) (b : Nat) (v : Word) (hs : Ok K s) :
    Ok K (State.handFields s d t b v) := by
  unfold State.handFields
  repeat' first
    | with_reducible first | assumption | apply ok_ite | apply State.p_ok hK | apply State.reserved_ok hK

theorem State.handBusy_ok (hK : Closed K) (s : State) (d : Nat) (t : Nat) (hs : Ok K s) :
    Ok K (State.handBusy s d t) := by
  unfold State.handBusy
  repeat' first
    | with_reducible first | assumption | apply State.raise_ok hK | apply State.fail_ok hK

theorem State.handWrite_ok (hK : Closed K) (s : State) (d : Nat) (t : Nat) (b : Nat) (mode : Nat) (v : Word)
    (hs : Ok K s) :
    Ok K (State.handWrite s d t b mode v) := by
  unfold State.handWrite
  repeat' first
    | with_reducible first | assumption | apply ok_ite | apply State.judge_ok hK | apply State.setDie_ok hK
    | with_reducible first | apply State.handFields_ok hK | apply State.handBusy_ok hK | apply State.p_ok hK

theorem State.handCancel_ok (hK : Closed K) (s : State) (d : Nat) (t : Nat) (b : Nat) (v : Word) (hs : Ok K s) :
    Ok K (State.handCancel s d t b v) := by
  unfold State.handCancel
  repeat' first
    | with_reducible first | assumption | apply State.setDie_ok hK | apply State.handFields_ok hK
    | with_reducible first | apply State.p_ok hK

theorem execBankHandNow_ok (hK : Closed K) (r : Requester) (d : Die) (t : Tile) (b : BankIx) (v : Word) (s : State)
    (hs : Ok K s) :
    OkOut K (execBankHandNow r d t b v s) := by
  unfold execBankHandNow
  repeat' first
    | with_reducible assumption
    | intro _
    | with_reducible first | apply ok_next | apply State.handWrite_ok hK | apply State.regWr_ok hK

theorem execBankHandOnTally_ok (hK : Closed K) (r : Requester) (d : Die) (t : Tile) (b : BankIx) (v : Word)
    (s : State) (hs : Ok K s) :
    OkOut K (execBankHandOnTally r d t b v s) := by
  unfold execBankHandOnTally
  repeat' first
    | with_reducible assumption
    | intro _
    | with_reducible first | apply ok_next | apply State.handWrite_ok hK | apply State.regWr_ok hK

theorem execBankHandCancel_ok (hK : Closed K) (r : Requester) (d : Die) (t : Tile) (b : BankIx) (s : State)
    (hs : Ok K s) :
    OkOut K (execBankHandCancel r d t b s) := by
  unfold execBankHandCancel
  repeat' first
    | with_reducible assumption
    | intro _
    | with_reducible first | apply ok_next | apply State.handCancel_ok hK | apply State.regWr_ok hK

theorem execHandover_ok (hK : Closed K) (d : Die) (t : Tile) (b : BankIx) (s : State) (hs : Ok K s) :
    OkOut K (execHandover d t b s) := by
  unfold execHandover
  repeat' first
    | with_reducible first | assumption | apply okOut_ite | apply ok_next | apply State.setDie_ok hK
    | with_reducible first | apply State.p_ok hK

theorem State.invalStart_ok (hK : Closed K) (s : State) (d : Nat) (t : Nat) (v : Nat) (hs : Ok K s) :
    Ok K (State.invalStart s d t v) := by
  unfold State.invalStart
  repeat' first
    | with_reducible first | assumption | apply State.setTile_ok hK

theorem execMemInvalidate_ok (hK : Closed K) (r : Requester) (d : Die) (t : Tile) (v : Word) (s : State) (hs : Ok K s)
    :
    OkOut K (execMemInvalidate r d t v s) := by
  unfold execMemInvalidate
  repeat' first
    | with_reducible assumption
    | intro _
    | with_reducible first | apply ok_next | apply State.invalStart_ok hK | apply State.regWr_ok hK

theorem State.invalRegions_ok (hK : Closed K) (s : State) (d : Nat) (t : Nat) (ps0 : List Nat) (hs : Ok K s) :
    Ok K (State.invalRegions s d t ps0) := by
  fun_induction State.invalRegions s d t ps0
  all_goals
    repeat' first
      | with_reducible first | assumption | apply State.invalidate_ok hK | apply_assumption

theorem execInvalidateDone_ok (hK : Closed K) (d : Die) (t : Tile) (v : Word) (s : State) (hs : Ok K s) :
    OkOut K (execInvalidateDone d t v s) := by
  unfold execInvalidateDone
  repeat' first
    | with_reducible first | assumption | apply okOut_ite | apply ok_next | apply State.invalRegions_ok hK
    | with_reducible first | apply State.setTile_ok hK | apply State.release_ok hK

theorem State.regionWrite_ok (hK : Closed K) (s : State) (d : Nat) (n : Nat) (attr : Bool) (v : Word) (hs : Ok K s) :
    Ok K (State.regionWrite s d n attr v) := by
  unfold State.regionWrite
  repeat' first
    | with_reducible first | assumption | apply ok_ite | apply State.wr_ok hK | apply State.raise_ok hK
    | with_reducible first | apply State.p_ok hK

theorem execMapRegionWrite_ok (hK : Closed K) (r : Requester) (d : Die) (n : Fin 256) (attr : Bool) (v : Word)
    (s : State) (hs : Ok K s) :
    OkOut K (execMapRegionWrite r d n attr v s) := by
  unfold execMapRegionWrite
  repeat' first
    | with_reducible assumption
    | intro _
    | with_reducible first | apply ok_next | apply State.regWr_ok hK | apply State.regionWrite_ok hK

theorem State.repairPop_ok (hK : Closed K) (s : State) (d : Nat) (hs : Ok K s) :
    Ok K (State.repairPop s d) := by
  unfold State.repairPop
  repeat' first
    | with_reducible first | assumption | apply State.setDie_ok hK

theorem execMapRepairPop_ok (hK : Closed K) (r : Requester) (d : Die) (s : State) (hs : Ok K s) :
    OkOut K (execMapRepairPop r d s) := by
  unfold execMapRepairPop
  repeat' first
    | with_reducible assumption
    | intro _
    | with_reducible first | apply ok_next | apply State.repairPop_ok hK | apply State.regWr_ok hK

theorem State.rcTagsClear_ok (hK : Closed K) (s : State) (d : Nat) (hs : Ok K s) :
    Ok K (State.rcTagsClear s d) := by
  unfold State.rcTagsClear
  repeat' first
    | with_reducible first | assumption | apply ok_ite | apply State.dropFlaws_ok hK | apply State.zeroRange_ok hK

theorem State.rcResize_ok (hK : Closed K) (s : State) (d : Nat) (v : Word) (hs : Ok K s) :
    Ok K (State.rcResize s d v) := by
  unfold State.rcResize
  repeat' first
    | with_reducible first | assumption | apply ok_ite | apply State.draw_ok hK | apply State.setDie_ok hK | apply State.rcTagsClear_ok hK
    | with_reducible first | apply State.p_ok hK | apply State.reserved_ok hK | apply State.setLoose_ok hK

theorem execMapRcCfgWrite_ok (hK : Closed K) (r : Requester) (d : Die) (v : Word) (s : State) (hs : Ok K s) :
    OkOut K (execMapRcCfgWrite r d v s) := by
  unfold execMapRcCfgWrite
  repeat' first
    | with_reducible assumption
    | intro _
    | with_reducible first | apply ok_next | apply State.regWr_ok hK | apply State.rcResize_ok hK

theorem execRcInvalidateDone_ok (hK : Closed K) (d : Die) (s : State) (hs : Ok K s) :
    OkOut K (execRcInvalidateDone d s) := by
  unfold execRcInvalidateDone
  repeat' first
    | with_reducible first | assumption | apply okOut_ite | apply ok_next | apply State.setDie_ok hK

end Sys2Proof.Machine
end

