-- ==== Sys2Proof/Laws/OkFurnish.lean ====
section
/-! SUPPORT. Every operation of Machine/Furnish.lean keeps a predicate closed under the primitive updates. -/

set_option linter.unusedTactic false
set_option linter.unreachableTactic false

namespace Sys2Proof.Machine

variable {K : State → Prop}

theorem State.mgtRaise_ok (hK : Closed K) (s : State) (bit : Nat) (hs : Ok K s) :
    Ok K (State.mgtRaise s bit) := by
  unfold State.mgtRaise
  repeat' first
    | with_reducible first | assumption | apply State.raise_ok hK

theorem State.furnNone_ok (hK : Closed K) (s : State) (hs : Ok K s) :
    Ok K (State.furnNone s) := by
  unfold State.furnNone
  repeat' first
    | with_reducible first | assumption | apply State.setM_ok hK | apply State.mgtRaise_ok hK | apply State.p_ok hK

theorem State.furnSettings_ok (hK : Closed K) (s : State) (src : Nat) (hs : Ok K s) :
    Ok K (State.furnSettings s src) := by
  unfold State.furnSettings
  repeat' first
    | with_reducible first | assumption | apply ok_ite | apply State.setM_ok hK | apply State.mgtRaise_ok hK
    | with_reducible first | apply State.p_ok hK

theorem State.furnRead_ok (hK : Closed K) (s : State) (ansA : Bool) (ansB : Bool) (hs : Ok K s) :
    Ok K (State.furnRead s ansA ansB) := by
  unfold State.furnRead
  repeat' first
    | with_reducible first | assumption | apply ok_ite | apply State.setM_ok hK | apply State.mgtRaise_ok hK
    | with_reducible first | apply State.furnNone_ok hK | apply State.p_ok hK | apply State.furnSettings_ok hK

theorem State.writeRoutes_ok (hK : Closed K) (s : State) (d : Nat) (n : Nat) (ps0 : Nat) (hs : Ok K s) :
    Ok K (State.writeRoutes s d n ps0) := by
  fun_induction State.writeRoutes s d n ps0
  all_goals
    repeat' first
      | with_reducible first | assumption | apply State.wr_ok hK | apply_assumption

theorem State.each_ok (hK : Closed K) {α : Type} (s : State) (f : State → α → State) (ps0 : List α) (hs : Ok K s)
    (hf : ∀ z0 z1, Ok K z0 → Ok K (f z0 z1)) :
    Ok K (State.each s f ps0) := by
  fun_induction State.each s f ps0
  all_goals
    repeat' first
      | with_reducible first | assumption | apply hf | apply_assumption

theorem State.tileSettings_ok (hK : Closed K) (s : State) (d : Nat) (t : Nat) (hs : Ok K s) :
    Ok K (State.tileSettings s d t) := by
  unfold State.tileSettings
  repeat' first
    | with_reducible first | assumption | apply State.p_ok hK

theorem State.portSettings_ok (hK : Closed K) (s : State) (q : Nat) (hs : Ok K s) :
    Ok K (State.portSettings s q) := by
  unfold State.portSettings
  repeat' first
    | with_reducible first | assumption | apply State.wr_ok hK | apply State.p_ok hK

theorem State.dieSettings_ok (hK : Closed K) (s : State) (d : Nat) (hs : Ok K s) :
    Ok K (State.dieSettings s d) := by
  unfold State.dieSettings
  repeat' first
    | with_reducible assumption
    | intro _
    | with_reducible first | apply State.writeRoutes_ok hK | apply State.wr_ok hK | apply State.each_ok hK | apply ok_ite
    | with_reducible first | apply State.p_ok hK | apply State.tileSettings_ok hK | apply State.rcResize_ok hK
    | with_reducible first | apply State.portSettings_ok hK

theorem State.ethSettings_ok (hK : Closed K) (s : State) (e : Nat) (hs : Ok K s) :
    Ok K (State.ethSettings s e) := by
  unfold State.ethSettings
  repeat' first
    | with_reducible first | assumption | apply State.p_ok hK

theorem State.furnWrite_ok (hK : Closed K) (s : State) (hs : Ok K s) :
    Ok K (State.furnWrite s) := by
  unfold State.furnWrite
  repeat' first
    | with_reducible assumption
    | intro _
    | with_reducible first | apply State.ethSettings_ok hK | apply State.dieSettings_ok hK | apply State.each_ok hK
    | with_reducible first | apply State.p_ok hK

end Sys2Proof.Machine
end

