-- ==== Sys2Proof/Laws/OkWgh.lean ====
section
/-! SUPPORT. Every operation of Machine/Wgh.lean keeps a predicate closed under the primitive updates. -/

set_option linter.unusedTactic false
set_option linter.unreachableTactic false

namespace Sys2Proof.Machine

variable {K : State → Prop}

theorem State.histTag_ok (hK : Closed K) (s : State) (d : Nat) (t : Nat) (layer : Nat) (hs : Ok K s) :
    Ok K (State.histTag s d t layer) := by
  unfold State.histTag
  repeat' first
    | with_reducible first | assumption | apply ok_ite | apply State.raise_ok hK | apply State.p_ok hK
    | with_reducible first | apply State.brk_ok hK

theorem State.histField_ok (hK : Closed K) (s : State) (d : Nat) (t : Nat) (layer : Nat) (f : RF) (valid : RF)
    (beta : Nat) (lg : Int) (hs : Ok K s) :
    Ok K (State.histField s d t layer f valid beta lg) := by
  unfold State.histField
  repeat' first
    | with_reducible first | assumption | apply ok_ite | apply State.p_ok hK

theorem State.observe_ok (hK : Closed K) (s : State) (d : Nat) (t : Nat) (layer : Nat) (f : RF) (valid : RF)
    (beta : Nat) (x : XV) (after : State → State) (hs : Ok K s) (hafter : ∀ z0, Ok K z0 → Ok K (after z0)) :
    Ok K (State.observe s d t layer f valid beta x after) := by
  unfold State.observe
  repeat' first
    | with_reducible first | assumption | apply ok_ite | apply State.histField_ok hK | apply State.histTag_ok hK
    | with_reducible first | apply hafter
    | (extract_lets +onlyGivenNames v; have hv : Ok K v := ?_; clear_value v; pick_goal 2; subst v)
    | split

theorem State.observeG_ok (hK : Closed K) (s : State) (d : Nat) (t : Nat) (layer : Nat) (x : XV) (hs : Ok K s) :
    Ok K (State.observeG s d t layer x) := by
  unfold State.observeG
  repeat' first
    | with_reducible assumption
    | intro _
    | with_reducible first | apply State.observe_ok hK | apply State.p_ok hK

theorem State.observeDx_ok (hK : Closed K) (s : State) (d : Nat) (t : Nat) (layer : Nat) (outFmt : Nat) (x : XV)
    (hs : Ok K s) :
    Ok K (State.observeDx s d t layer outFmt x) := by
  unfold State.observeDx
  repeat' first
    | with_reducible assumption
    | intro _
    | with_reducible first | apply State.observe_ok hK | apply State.p_ok hK

theorem State.observeQ_ok (hK : Closed K) (s : State) (d : Nat) (t : Nat) (layer : Nat) (x : XV) (hs : Ok K s) :
    Ok K (State.observeQ s d t layer x) := by
  unfold State.observeQ
  repeat' first
    | with_reducible assumption
    | intro _
    | with_reducible first | apply ok_id | apply State.observe_ok hK

theorem State.normBlock_ok (hK : Closed K) (s : State) (d : Nat) (t : Nat) (layer : Nat) (maxAbs : XV) (count : Nat)
    (hs : Ok K s) :
    Ok K (State.normBlock s d t layer maxAbs count) := by
  unfold State.normBlock
  repeat' first
    | with_reducible first | assumption | apply ok_ite | apply State.p_ok hK

theorem State.setVerdict_ok (hK : Closed K) (s : State) (d : Nat) (t : Nat) (layer : Nat) (v : Nat) (hs : Ok K s) :
    Ok K (State.setVerdict s d t layer v) := by
  unfold State.setVerdict
  repeat' first
    | with_reducible first | assumption | apply State.p_ok hK

theorem State.normJudge_ok (hK : Closed K) (s : State) (d : Nat) (t : Nat) (layer : Nat) (hs : Ok K s) :
    Ok K (State.normJudge s d t layer) := by
  unfold State.normJudge
  repeat' first
    | with_reducible assumption
    | intro _
    | with_reducible first | apply ok_ite | apply ok_id | apply State.observe_ok hK | apply State.raise_ok hK
    | with_reducible first | apply State.p_ok hK | apply State.setVerdict_ok hK | apply State.brk_ok hK
    | (extract_lets +onlyGivenNames v; have hv : Ok K v := ?_; clear_value v; pick_goal 2; subst v)
    | split

theorem State.slotPush_ok (hK : Closed K) (s : State) (d : Nat) (t : Nat) (k : Nat) (tag : Nat) (value : Nat)
    (empty : Bool) (hs : Ok K s) :
    Ok K (State.slotPush s d t k tag value empty) := by
  unfold State.slotPush
  repeat' first
    | with_reducible first | assumption | apply ok_ite | apply State.p_ok hK

theorem State.pushTo_ok (hK : Closed K) (s : State) (r : Requester) (d : Nat) (t : Nat) (k : Nat) (tag : Nat)
    (value : Nat) (empty : Bool) (hs : Ok K s) :
    Ok K (State.pushTo s r d t k tag value empty).2 := by
  unfold State.pushTo
  repeat' first
    | with_reducible first | assumption | apply ok_ite_snd | apply State.refuse_ok hK | apply State.slotPush_ok hK

theorem State.histClear_ok (hK : Closed K) (s : State) (d : Nat) (t : Nat) (ps0 : Nat) (hs : Ok K s) :
    Ok K (State.histClear s d t ps0) := by
  fun_induction State.histClear s d t ps0
  all_goals
    repeat' first
      | with_reducible first | assumption | apply State.p_ok hK | apply_assumption

theorem execHistInvalidate_ok (hK : Closed K) (r : Requester) (d : Die) (t : Tile) (s : State) (hs : Ok K s) :
    OkOut K (execHistInvalidate r d t s) := by
  unfold execHistInvalidate
  repeat' first
    | with_reducible assumption
    | intro _
    | with_reducible first | apply ok_next | apply State.histClear_ok hK | apply State.regWr_ok hK

theorem State.chanClear_ok (hK : Closed K) (s : State) (d : Nat) (t : Nat) (hs : Ok K s) :
    Ok K (State.chanClear s d t) := by
  unfold State.chanClear
  repeat' first
    | with_reducible first | assumption | apply State.dropRegs_ok hK

theorem execChanClear_ok (hK : Closed K) (r : Requester) (d : Die) (t : Tile) (s : State) (hs : Ok K s) :
    OkOut K (execChanClear r d t s) := by
  unfold execChanClear
  repeat' first
    | with_reducible assumption
    | intro _
    | with_reducible first | apply ok_next | apply State.chanClear_ok hK | apply State.regWr_ok hK

end Sys2Proof.Machine
end

