-- ==== Sys2Proof/Laws/OkLinks.lean ====
section
/-! SUPPORT. Every operation of Machine/Links.lean keeps a predicate closed under the primitive updates. -/

set_option linter.unusedTactic false
set_option linter.unreachableTactic false

namespace Sys2Proof.Machine

variable {K : State → Prop}

theorem State.portRaise_ok (hK : Closed K) (s : State) (q : Nat) (bit : Nat) (hs : Ok K s) :
    Ok K (State.portRaise s q bit) := by
  unfold State.portRaise
  repeat' first
    | with_reducible first | assumption | apply State.raise_ok hK

theorem State.pktBad_ok (hK : Closed K) (s : State) (d : Nat) (hs : Ok K s) :
    Ok K (State.pktBad s d) := by
  unfold State.pktBad
  repeat' first
    | with_reducible first | assumption | apply State.dbrk_ok hK

theorem execPacketRoute_ok (hK : Closed K) (d : Die) (k : Packet) (s : State) (hs : Ok K s) :
    OkOut K (execPacketRoute d k s) := by
  unfold execPacketRoute
  repeat' first
    | with_reducible first | assumption | apply okOut_ite | apply ok_next | apply State.route_ok hK
    | with_reducible first | apply State.pktBad_ok hK

theorem State.ackIt_ok (hK : Closed K) (s : State) (d : Nat) (k : Packet) (e : Option AccErr) (hs : Ok K s) :
    Ok K (State.ackIt s d k e) := by
  unfold State.ackIt
  repeat' first
    | with_reducible first | assumption | apply State.route_ok hK

theorem State.deliver_ok (hK : Closed K) (s : State) (k : Packet) (t : Nat) (d : Nat)
    (act : State → Option AccErr × State) (hs : Ok K s) (hact : ∀ z0, Ok K z0 → Ok K (act z0).2) :
    Ok K (State.deliver s k t d act) := by
  unfold State.deliver
  repeat' first
    | with_reducible first | assumption | apply ok_ite | apply State.pktBad_ok hK | apply State.ackIt_ok hK
    | with_reducible first | apply hact

theorem execWritePkt_ok (hK : Closed K) (k : Packet) (s : State) (hs : Ok K s) :
    OkOut K (execWritePkt k s) := by
  unfold execWritePkt
  repeat' first
    | with_reducible assumption
    | intro _
    | with_reducible first | apply ok_next | apply State.writeSpan_ok hK | apply State.deliver_ok hK
    | split
    | with_reducible refine ok_snd (by assumption) ?_

theorem State.xorLines_ok (hK : Closed K) (s : State) (d : Nat) (a : Nat) (member : Nat) (ps0 : List (List Byte))
    (hs : Ok K s) :
    Ok K (State.xorLines s d a member ps0).2 := by
  fun_induction State.xorLines s d a member ps0
  all_goals
    repeat' first
      | with_reducible first | assumption | apply State.xorLine_ok hK | apply State.wr_ok hK
      | with_reducible first | refine ok_snd (by assumption) ?_ | apply_assumption

theorem execXorWrite_ok (hK : Closed K) (k : Packet) (s : State) (hs : Ok K s) :
    OkOut K (execXorWrite k s) := by
  unfold execXorWrite
  repeat' first
    | with_reducible assumption
    | intro _
    | with_reducible first | apply ok_next | apply State.xorLines_ok hK | apply State.deliver_ok hK

theorem execTallyAdd_ok (hK : Closed K) (k : Packet) (s : State) (hs : Ok K s) :
    OkOut K (execTallyAdd k s) := by
  unfold execTallyAdd
  repeat' first
    | with_reducible assumption
    | intro _
    | with_reducible first | apply ok_next | apply State.tallyQueue_ok hK | apply State.deliver_ok hK

theorem execWghPush_ok (hK : Closed K) (k : Packet) (s : State) (hs : Ok K s) :
    OkOut K (execWghPush k s) := by
  unfold execWghPush
  repeat' first
    | with_reducible assumption
    | intro _
    | with_reducible first | apply ok_next | apply State.pushTo_ok hK | apply State.deliver_ok hK

theorem State.scPump_ok (hK : Closed K) (s : State) (q : Nat) (ps0 : Nat) (hs : Ok K s) :
    Ok K (State.scPump s q ps0) := by
  fun_induction State.scPump s q ps0
  all_goals
    repeat' first
      | with_reducible first | assumption | apply State.setPort_ok hK | apply State.emitAll_ok hK | apply_assumption

theorem State.scSend_ok (hK : Closed K) (s : State) (q : Nat) (m : List Byte) (hs : Ok K s) :
    Ok K (State.scSend s q m) := by
  unfold State.scSend
  repeat' first
    | with_reducible first | assumption | apply State.setPort_ok hK | apply State.scPump_ok hK

theorem State.scTxGo_ok (hK : Closed K) (s : State) (q : Nat) (hs : Ok K s) :
    Ok K (State.scTxGo s q) := by
  unfold State.scTxGo
  repeat' first
    | with_reducible first | assumption | apply ok_ite | apply State.p_ok hK | apply State.scSend_ok hK

theorem execScTxGo_ok (hK : Closed K) (r : Requester) (p : Port) (s : State) (hs : Ok K s) :
    OkOut K (execScTxGo r p s) := by
  unfold execScTxGo
  repeat' first
    | with_reducible assumption
    | intro _
    | with_reducible first | apply ok_next | apply State.scTxGo_ok hK | apply State.regWr_ok hK

theorem execScMessageSent_ok (hK : Closed K) (p : Port) (s : State) (hs : Ok K s) :
    OkOut K (execScMessageSent p s) := by
  unfold execScMessageSent
  repeat' first
    | with_reducible first | assumption | apply okOut_ite | apply ok_next | apply State.p_ok hK

theorem State.scRxPop_ok (hK : Closed K) (s : State) (q : Nat) (hs : Ok K s) :
    Ok K (State.scRxPop s q) := by
  unfold State.scRxPop
  repeat' first
    | with_reducible first | assumption | apply State.setPort_ok hK

theorem execScRxPop_ok (hK : Closed K) (r : Requester) (p : Port) (s : State) (hs : Ok K s) :
    OkOut K (execScRxPop r p s) := by
  unfold execScRxPop
  repeat' first
    | with_reducible assumption
    | intro _
    | with_reducible first | apply ok_next | apply State.regWr_ok hK | apply State.scRxPop_ok hK

theorem State.scQueue_ok (hK : Closed K) (s : State) (q : Nat) (m : List Byte) (hs : Ok K s) :
    Ok K (State.scQueue s q m) := by
  unfold State.scQueue
  repeat' first
    | with_reducible first | assumption | apply ok_ite | apply State.setPort_ok hK | apply State.portRaise_ok hK
    | with_reducible first | apply State.dbrk_ok hK

theorem State.idleFrame_ok (hK : Closed K) (s : State) (q : Nat) (nak : Bool) (hs : Ok K s) :
    Ok K (State.idleFrame s q nak) := by
  unfold State.idleFrame
  repeat' first
    | with_reducible first | assumption | apply State.emit_ok hK

theorem State.askReplay_ok (hK : Closed K) (s : State) (q : Nat) (hs : Ok K s) :
    Ok K (State.askReplay s q) := by
  unfold State.askReplay
  repeat' first
    | with_reducible first | assumption | apply ok_ite | apply State.setPort_ok hK | apply State.idleFrame_ok hK

theorem State.resend_ok (hK : Closed K) (s : State) (q : Nat) (hs : Ok K s) :
    Ok K (State.resend s q) := by
  unfold State.resend
  repeat' first
    | with_reducible first | assumption | apply State.emitAll_ok hK

theorem State.replay_ok (hK : Closed K) (s : State) (q : Nat) (hs : Ok K s) :
    Ok K (State.replay s q) := by
  unfold State.replay
  repeat' first
    | with_reducible first | assumption | apply State.setPort_ok hK | apply State.resend_ok hK
    | with_reducible first | apply State.dcnt_ok hK
    | (extract_lets +onlyGivenNames v; (fail_if_success (have : ∀ z, v z = v z := fun _ => rfl)); clear_value v)
    | split

theorem State.rxPackets_ok (hK : Closed K) (s : State) (q : Nat) (ps0 : List Packet) (hs : Ok K s) :
    Ok K (State.rxPackets s q ps0) := by
  induction ps0 generalizing s with
  | nil => exact hs
  | cons q qs ih =>
    unfold State.rxPackets
    refine ih _ (ok_ite (State.pktBad_ok hK _ _ (State.setPort_ok hK _ _ _ hs)) ?_)
    exact State.emit_ok hK _ _ (State.dcnt_ok hK _ _ _ _ (State.setPort_ok hK _ _ _ hs))

theorem State.rxSide_ok (hK : Closed K) (s : State) (q : Nat) (bs : List Byte) (hs : Ok K s) :
    Ok K (State.rxSide s q bs) := by
  unfold State.rxSide
  repeat' first
    | with_reducible first | assumption | apply ok_ite | apply State.setPort_ok hK | apply State.emit_ok hK

theorem State.rxData_ok (hK : Closed K) (s : State) (q : Nat) (bs : List Byte) (hs : Ok K s) :
    Ok K (State.rxData s q bs) := by
  unfold State.rxData
  repeat' first
    | with_reducible first | assumption | apply State.rxPackets_ok hK | apply State.setPort_ok hK
    | with_reducible first | apply State.idleFrame_ok hK | apply State.rxSide_ok hK

theorem State.rxFrame_ok (hK : Closed K) (s : State) (q : Nat) (bs : List Byte) (hs : Ok K s) :
    Ok K (State.rxFrame s q bs) := by
  unfold State.rxFrame
  repeat' first
    | with_reducible first | assumption | apply ok_ite | apply State.setPort_ok hK | apply State.pump_ok hK
    | with_reducible first | apply State.replay_ok hK | apply State.askReplay_ok hK | apply State.rxData_ok hK
    | with_reducible first | apply State.scPump_ok hK

theorem execFrameReceive_ok (hK : Closed K) (p : Port) (f : FrameIn) (s : State) (hs : Ok K s) :
    OkOut K (execFrameReceive p f s) := by
  unfold execFrameReceive
  repeat' first
    | with_reducible first | assumption | apply okOut_ite | apply ok_next | apply State.askReplay_ok hK
    | with_reducible first | apply State.rxFrame_ok hK | apply State.dcnt_ok hK | apply State.dbrk_ok hK

theorem State.requeue_ok (hK : Closed K) (s : State) (d : Nat) (ps0 : List Packet) (hs : Ok K s) :
    Ok K (State.requeue s d ps0) := by
  fun_induction State.requeue s d ps0
  all_goals
    repeat' first
      | with_reducible first | assumption | apply State.route_ok hK | apply_assumption

theorem State.leaveUp_ok (hK : Closed K) (s : State) (q : Nat) (v : Nat) (hs : Ok K s) :
    Ok K (State.leaveUp s q v) := by
  unfold State.leaveUp
  repeat' first
    | with_reducible first | assumption | apply ok_ite | apply State.setPort_ok hK | apply State.setPortState_ok hK
    | with_reducible first | apply State.requeue_ok hK

theorem State.trainStart_ok (hK : Closed K) (s : State) (q : Nat) (hs : Ok K s) :
    Ok K (State.trainStart s q) := by
  unfold State.trainStart
  repeat' first
    | with_reducible first | assumption | apply ok_ite | apply State.leaveUp_ok hK | apply State.setPort_ok hK
    | with_reducible first | apply State.dbrk_ok hK

theorem execPortRetrain_ok (hK : Closed K) (r : Requester) (p : Port) (s : State) (hs : Ok K s) :
    OkOut K (execPortRetrain r p s) := by
  unfold execPortRetrain
  repeat' first
    | with_reducible assumption
    | intro _
    | with_reducible first | apply ok_next | apply ok_ite | apply State.regWr_ok hK | apply State.trainStart_ok hK

theorem execRetrainTrigger_ok (hK : Closed K) (p : Port) (timeout : Bool) (s : State) (hs : Ok K s) :
    OkOut K (execRetrainTrigger p timeout s) := by
  unfold execRetrainTrigger
  repeat' first
    | with_reducible first | assumption | apply okOut_ite | apply ok_next | apply State.trainStart_ok hK

theorem execLaneErrors_ok (hK : Closed K) (p : Port) (lane : Fin 8) (errs : Nat) (s : State) (hs : Ok K s) :
    OkOut K (execLaneErrors p lane errs s) := by
  unfold execLaneErrors
  repeat' first
    | with_reducible first | assumption | apply okOut_ite | apply ok_next | apply State.setPort_ok hK
    | with_reducible first | apply State.trainStart_ok hK | apply State.p_ok hK

theorem State.setLanes_ok (hK : Closed K) (s : State) (a : Nat) (ps0 : List (Nat × Nat × Nat)) (hs : Ok K s) :
    Ok K (State.setLanes s a ps0) := by
  fun_induction State.setLanes s a ps0
  all_goals
    repeat' first
      | with_reducible first | assumption | apply State.p_ok hK | apply_assumption

theorem State.portDown_ok (hK : Closed K) (s : State) (q : Nat) (hs : Ok K s) :
    Ok K (State.portDown s q) := by
  unfold State.portDown
  repeat' first
    | with_reducible first | assumption | apply State.leaveUp_ok hK | apply State.setPort_ok hK
    | with_reducible first | apply State.portRaise_ok hK

theorem State.laneIdent_ok (hK : Closed K) (s : State) (q : Nat) (res : TrainResult) (hs : Ok K s) :
    Ok K (State.laneIdent s q res) := by
  unfold State.laneIdent
  repeat' first
    | with_reducible first | assumption | apply ok_ite | apply State.setLanes_ok hK | apply State.portDown_ok hK
    | with_reducible first | apply State.setPortState_ok hK | apply State.p_ok hK

theorem execTrainingPhaseEnd_ok (hK : Closed K) (p : Port) (res : TrainResult) (s : State) (hs : Ok K s) :
    OkOut K (execTrainingPhaseEnd p res s) := by
  unfold execTrainingPhaseEnd
  repeat' first
    | with_reducible first | assumption | apply okOut_ite | apply ok_next | apply State.setPort_ok hK
    | with_reducible first | apply State.laneIdent_ok hK | apply State.setPortState_ok hK
    | (extract_lets +onlyGivenNames v; (fail_if_success (have : ∀ z, v z = v z := fun _ => rfl)); clear_value v)
    | (extract_lets +onlyGivenNames v; subst v; dsimp -zeta only)
    | split

theorem execPortDownRetry_ok (hK : Closed K) (p : Port) (s : State) (hs : Ok K s) :
    OkOut K (execPortDownRetry p s) := by
  unfold execPortDownRetry
  repeat' first
    | with_reducible first | assumption | apply okOut_ite | apply ok_next | apply State.trainStart_ok hK

theorem State.portUp_ok (hK : Closed K) (s : State) (q : Nat) (hs : Ok K s) :
    Ok K (State.portUp s q) := by
  unfold State.portUp
  repeat' first
    | with_reducible first | assumption | apply ok_ite | apply State.setPort_ok hK | apply State.pump_ok hK
    | with_reducible first | apply State.resend_ok hK | apply State.setPortState_ok hK | apply State.portRaise_ok hK
    | with_reducible first | apply State.scPump_ok hK

theorem State.identity_ok (hK : Closed K) (s : State) (q : Nat) (b : List Byte) (hs : Ok K s) :
    Ok K (State.identity s q b).2 := by
  unfold State.identity
  repeat' first
    | with_reducible first | assumption | apply ok_ite_snd | apply State.portUp_ok hK | apply State.wr_ok hK
    | with_reducible first | apply State.setPortState_ok hK | apply State.portRaise_ok hK | apply State.p_ok hK
    | with_reducible first | apply State.scPump_ok hK

theorem State.combFree_ok (hK : Closed K) (s : State) (d : Nat) (n : Nat) (hs : Ok K s) :
    Ok K (State.combFree s d n) := by
  unfold State.combFree
  repeat' first
    | with_reducible first | assumption | apply State.setDie_ok hK

theorem State.combBad_ok (hK : Closed K) (s : State) (d : Nat) (hs : Ok K s) :
    Ok K (State.combBad s d) := by
  unfold State.combBad
  repeat' first
    | with_reducible first | assumption | apply State.raise_ok hK | apply State.dbrk_ok hK

theorem State.combOut_ok (hK : Closed K) (s : State) (d : Nat) (e : CombE) (k : Packet) (hs : Ok K s) :
    Ok K (State.combOut s d e k) := by
  unfold State.combOut
  repeat' first
    | with_reducible first | assumption | apply ok_ite | apply State.forward_ok hK | apply State.emit_ok hK

theorem State.combEmit_ok (hK : Closed K) (s : State) (d : Nat) (n : Nat) (hs : Ok K s) :
    Ok K (State.combEmit s d n) := by
  unfold State.combEmit
  repeat' first
    | with_reducible first | assumption | apply ok_ite | apply State.combBad_ok hK | apply State.combFree_ok hK
    | with_reducible first | apply State.combOut_ok hK
    | (extract_lets +onlyGivenNames v; have hv : Ok K v := ?_; clear_value v; pick_goal 2; subst v)
    | (extract_lets +onlyGivenNames v; (fail_if_success (have : ∀ z, v z = v z := fun _ => rfl)); clear_value v)
    | split

theorem State.combAdd_ok (hK : Closed K) (s : State) (d : Nat) (k : Packet) (hs : Ok K s) :
    Ok K (State.combAdd s d k) := by
  unfold State.combAdd
  repeat' first
    | with_reducible first | assumption | apply ok_ite | apply State.combBad_ok hK | apply State.setDie_ok hK
    | with_reducible first | apply State.raise_ok hK | apply State.dcnt_ok hK | apply State.combEmit_ok hK
    | with_reducible first | apply State.dbrk_ok hK

theorem State.combine_ok (hK : Closed K) (s : State) (d : Nat) (k : Packet) (t : Nat) (act : State → State)
    (hs : Ok K s) (hact : ∀ z0, Ok K z0 → Ok K (act z0)) :
    Ok K (State.combine s d k t act) := by
  unfold State.combine
  repeat' first
    | with_reducible first | assumption | apply ok_ite | apply State.route_ok hK | apply State.pktBad_ok hK
    | with_reducible first | apply hact

theorem execCombineF32_ok (hK : Closed K) (d : Die) (k : Packet) (s : State) (hs : Ok K s) :
    OkOut K (execCombineF32 d k s) := by
  unfold execCombineF32
  repeat' first
    | with_reducible assumption
    | intro _
    | with_reducible first | apply ok_next | apply State.combine_ok hK | apply State.combAdd_ok hK

theorem execCombineXor_ok (hK : Closed K) (d : Die) (k : Packet) (s : State) (hs : Ok K s) :
    OkOut K (execCombineXor d k s) := by
  unfold execCombineXor
  repeat' first
    | with_reducible assumption
    | intro _
    | with_reducible first | apply ok_next | apply State.combine_ok hK | apply State.combAdd_ok hK

theorem State.combFlush_ok (hK : Closed K) (s : State) (d : Nat) (k : Packet) (hs : Ok K s) :
    Ok K (State.combFlush s d k) := by
  unfold State.combFlush
  repeat' first
    | with_reducible first | assumption | apply ok_ite | apply State.combBad_ok hK | apply State.combOut_ok hK
    | with_reducible first | apply State.combEmit_ok hK

theorem execCombineFlush_ok (hK : Closed K) (d : Die) (k : Packet) (s : State) (hs : Ok K s) :
    OkOut K (execCombineFlush d k s) := by
  unfold execCombineFlush
  repeat' first
    | with_reducible assumption
    | intro _
    | with_reducible first | apply ok_next | apply State.combine_ok hK | apply State.combFlush_ok hK

theorem execCombStoreFree_ok (hK : Closed K) (d : Die) (s : State) (hs : Ok K s) :
    OkOut K (execCombStoreFree d s) := by
  unfold execCombStoreFree
  repeat' first
    | with_reducible first | assumption | apply okOut_ite | apply ok_next | apply State.setDie_ok hK
    | with_reducible first | apply State.combAdd_ok hK
    | (extract_lets +onlyGivenNames v; (fail_if_success (have : ∀ z, v z = v z := fun _ => rfl)); clear_value v)
    | split

theorem State.combWrite_ok (hK : Closed K) (s : State) (d : Nat) (n : Nat) (v : Word) (hs : Ok K s) :
    Ok K (State.combWrite s d n v) := by
  unfold State.combWrite
  repeat' first
    | with_reducible first | assumption | apply ok_ite | apply State.wr_ok hK | apply State.raise_ok hK
    | with_reducible first | apply State.fail_ok hK

theorem execLnkCombWrite_ok (hK : Closed K) (r : Requester) (d : Die) (n : Fin 1024) (v : Word) (s : State)
    (hs : Ok K s) :
    OkOut K (execLnkCombWrite r d n v s) := by
  unfold execLnkCombWrite
  repeat' first
    | with_reducible assumption
    | intro _
    | with_reducible first | apply ok_next | apply State.combWrite_ok hK | apply State.regWr_ok hK

end Sys2Proof.Machine
end

