-- ==== Sys2Proof/Laws/OkSeq.lean ====
section
/-! SUPPORT. Every operation of Machine/Seq.lean keeps a predicate closed under the primitive updates. -/

set_option linter.unusedTactic false
set_option linter.unreachableTactic false

namespace Sys2Proof.Machine

variable {K : State → Prop}

theorem State.startupEdge_ok (hK : Closed K) (s : State) (d : Nat) (t : Nat) (before : Bool) (hs : Ok K s) :
    Ok K (State.startupEdge s d t before) := by
  unfold State.startupEdge
  repeat' first
    | with_reducible first | assumption | apply ok_ite | apply State.raise_ok hK

theorem State.setPass_ok (hK : Closed K) (s : State) (d : Nat) (t : Nat) (v : Nat) (hs : Ok K s) :
    Ok K (State.setPass s d t v) := by
  unfold State.setPass
  repeat' first
    | with_reducible first | assumption | apply State.startupEdge_ok hK | apply State.p_ok hK

theorem State.seqStart_ok (hK : Closed K) (s : State) (d : Nat) (t : Nat) (hs : Ok K s) :
    Ok K (State.seqStart s d t) := by
  unfold State.seqStart
  repeat' first
    | with_reducible first | assumption | apply ok_ite | apply State.setTile_ok hK | apply State.p_ok hK
    | with_reducible first | apply State.genCheck_ok hK

theorem execSeqStart_ok (hK : Closed K) (r : Requester) (d : Die) (t : Tile) (s : State) (hs : Ok K s) :
    OkOut K (execSeqStart r d t s) := by
  unfold execSeqStart
  repeat' first
    | with_reducible assumption
    | intro _
    | with_reducible first | apply ok_next | apply State.regWr_ok hK | apply State.seqStart_ok hK

theorem execSeqHalt_ok (hK : Closed K) (r : Requester) (d : Die) (t : Tile) (s : State) (hs : Ok K s) :
    OkOut K (execSeqHalt r d t s) := by
  unfold execSeqHalt
  repeat' first
    | with_reducible first | assumption | apply ok_next | apply State.touch_ok hK | apply State.answer_ok hK
    | with_reducible apply State.fail_ok hK
    | with_reducible first | apply State.refuse_ok hK | apply State.seqHalt_ok hK
    | split

theorem execDescFetch_ok (hK : Closed K) (d : Die) (t : Tile) (s : State) (hs : Ok K s) :
    OkOut K (execDescFetch d t s) := by
  unfold execDescFetch
  repeat' first
    | with_reducible first | assumption | apply okOut_ite | apply ok_next | apply State.readLine_ok hK
    | with_reducible first | apply State.setTile_ok hK

theorem execFetchReturn_ok (hK : Closed K) (d : Die) (t : Tile) (s : State) (hs : Ok K s) :
    OkOut K (execFetchReturn d t s) := by
  unfold execFetchReturn
  repeat' first
    | with_reducible first | assumption | apply ok_next | apply State.setTile_ok hK | apply State.advance_ok hK

theorem State.seqRefuse_ok (hK : Closed K) (s : State) (d : Nat) (t : Nat) (cause : Nat) (off : Nat) (x : Desc)
    (hs : Ok K s) :
    Ok K (State.seqRefuse s d t cause off x) := by
  unfold State.seqRefuse
  repeat' first
    | with_reducible first | assumption | apply State.raise_ok hK | apply State.p_ok hK | apply State.seqHalt_ok hK

theorem State.opcPeriod_ok (hK : Closed K) (s : State) (d : Nat) (t : Nat) (op : Nat) (mark : Nat) (issue : Nat)
    (hs : Ok K s) :
    Ok K (State.opcPeriod s d t op mark issue) := by
  unfold State.opcPeriod
  repeat' first
    | with_reducible first | assumption | apply ok_ite | apply State.trace_ok hK | apply State.wr_ok hK
    | with_reducible first | apply State.setTile_ok hK | apply State.p_ok hK

theorem State.issueMark_ok (hK : Closed K) (s : State) (d : Nat) (t : Nat) (x : Desc) (hs : Ok K s) :
    Ok K (State.issueMark s d t x) := by
  unfold State.issueMark
  repeat' first
    | with_reducible first | assumption | apply State.opcPeriod_ok hK | apply State.trace_ok hK | apply State.p_ok hK
    | with_reducible first | apply State.cnt_ok hK

theorem State.popTo_ok (hK : Closed K) (s : State) (d : Nat) (t : Nat) (pc : Nat) (hs : Ok K s) :
    Ok K (State.popTo s d t pc) := by
  unfold State.popTo
  repeat' first
    | with_reducible first | assumption | apply State.setTile_ok hK | apply State.p_ok hK | apply State.advance_ok hK

theorem State.issue_ok (hK : Closed K) (s : State) (d : Nat) (t : Nat) (op : Nat) (act : Desc → State → State)
    (hs : Ok K s) (hact : ∀ z0 z1, Ok K z1 → Ok K (act z0 z1)) :
    Ok K (State.issue s d t op act) := by
  unfold State.issue
  repeat' first
    | with_reducible first | assumption | apply ok_ite | apply State.seqRefuse_ok hK | apply hact
    | split

theorem State.issueUnit_ok (hK : Closed K) (s : State) (d : Nat) (t : Nat) (op : Nat) (hs : Ok K s) :
    Ok K (State.issueUnit s d t op) := by
  unfold State.issueUnit
  repeat' first
    | with_reducible assumption
    | intro _
    | with_reducible first | apply State.popTo_ok hK | apply State.issue_ok hK | apply State.setTile_ok hK
    | with_reducible first | apply State.issueMark_ok hK

theorem State.issueOwn_ok (hK : Closed K) (s : State) (d : Nat) (t : Nat) (op : Nat) (act : Desc → State → State)
    (pc : State → Desc → Nat) (hs : Ok K s) (hact : ∀ z0 z1, Ok K z1 → Ok K (act z0 z1)) :
    Ok K (State.issueOwn s d t op act pc) := by
  unfold State.issueOwn
  repeat' first
    | with_reducible assumption
    | intro _
    | with_reducible first | apply State.doneAdd_ok hK | apply State.popTo_ok hK | apply State.issue_ok hK
    | with_reducible first | apply State.issueMark_ok hK | apply hact

theorem State.issueEngine_ok (hK : Closed K) (s : State) (d : Nat) (t : Nat) (op : Nat) (unit : DieS → Desc → Nat)
    (hs : Ok K s) :
    Ok K (State.issueEngine s d t op unit) := by
  unfold State.issueEngine
  repeat' first
    | with_reducible assumption
    | intro _
    | with_reducible first | apply State.popTo_ok hK | apply State.issue_ok hK | apply State.engPush_ok hK
    | with_reducible first | apply State.raise_ok hK | apply State.issueMark_ok hK | apply State.seqHalt_ok hK
    | (extract_lets +onlyGivenNames v; (fail_if_success (have : ∀ z, v z = v z := fun _ => rfl)); clear_value v)
    | split
    | with_reducible refine ok_snd (by assumption) ?_

theorem execNopOp_ok (hK : Closed K) (d : Die) (t : Tile) (s : State) (hs : Ok K s) :
    OkOut K (execNopOp d t s) := by
  unfold execNopOp
  repeat' first
    | with_reducible assumption
    | intro _
    | with_reducible first | apply ok_next | apply State.issueOwn_ok hK

theorem execFwd_ok (hK : Closed K) (d : Die) (t : Tile) (s : State) (hs : Ok K s) :
    OkOut K (execFwd d t s) := by
  unfold execFwd
  repeat' first
    | with_reducible first | assumption | apply ok_next | apply State.issueUnit_ok hK

theorem execBwd_ok (hK : Closed K) (d : Die) (t : Tile) (s : State) (hs : Ok K s) :
    OkOut K (execBwd d t s) := by
  unfold execBwd
  repeat' first
    | with_reducible first | assumption | apply ok_next | apply State.issueUnit_ok hK

theorem execCnv_ok (hK : Closed K) (d : Die) (t : Tile) (s : State) (hs : Ok K s) :
    OkOut K (execCnv d t s) := by
  unfold execCnv
  repeat' first
    | with_reducible first | assumption | apply ok_next | apply State.issueUnit_ok hK

theorem execCpy0_ok (hK : Closed K) (d : Die) (t : Tile) (s : State) (hs : Ok K s) :
    OkOut K (execCpy0 d t s) := by
  unfold execCpy0
  repeat' first
    | with_reducible first | assumption | apply ok_next | apply State.issueUnit_ok hK

theorem execCpy1_ok (hK : Closed K) (d : Die) (t : Tile) (s : State) (hs : Ok K s) :
    OkOut K (execCpy1 d t s) := by
  unfold execCpy1
  repeat' first
    | with_reducible first | assumption | apply ok_next | apply State.issueUnit_ok hK

theorem execUpd_ok (hK : Closed K) (d : Die) (t : Tile) (s : State) (hs : Ok K s) :
    OkOut K (execUpd d t s) := by
  unfold execUpd
  repeat' first
    | with_reducible first | assumption | apply ok_next | apply State.issueEngine_ok hK

theorem execDcp_ok (hK : Closed K) (d : Die) (t : Tile) (s : State) (hs : Ok K s) :
    OkOut K (execDcp d t s) := by
  unfold execDcp
  repeat' first
    | with_reducible first | assumption | apply ok_next | apply State.issueEngine_ok hK

theorem execPrt_ok (hK : Closed K) (d : Die) (t : Tile) (s : State) (hs : Ok K s) :
    OkOut K (execPrt d t s) := by
  unfold execPrt
  repeat' first
    | with_reducible first | assumption | apply ok_next | apply State.issueEngine_ok hK

theorem execClr_ok (hK : Closed K) (d : Die) (t : Tile) (s : State) (hs : Ok K s) :
    OkOut K (execClr d t s) := by
  unfold execClr
  repeat' first
    | with_reducible first | assumption | apply ok_next | apply State.issueEngine_ok hK

theorem State.tadds_ok (hK : Closed K) (s : State) (d : Nat) (t : Nat) (x : Desc) (ps0 : List Nat) (hs : Ok K s) :
    Ok K (State.tadds s d t x ps0) := by
  fun_induction State.tadds s d t x ps0
  all_goals
    repeat' first
      | with_reducible first | assumption | apply State.addTally_ok hK | apply_assumption

theorem execTadd_ok (hK : Closed K) (d : Die) (t : Tile) (s : State) (hs : Ok K s) :
    OkOut K (execTadd d t s) := by
  unfold execTadd
  repeat' first
    | with_reducible assumption
    | intro _
    | with_reducible first | apply ok_next | apply State.tadds_ok hK | apply State.issueOwn_ok hK

theorem execTarm_ok (hK : Closed K) (d : Die) (t : Tile) (s : State) (hs : Ok K s) :
    OkOut K (execTarm d t s) := by
  unfold execTarm
  repeat' first
    | with_reducible assumption
    | intro _
    | with_reducible first | apply ok_next | apply State.tallyQueue_ok hK | apply State.issueOwn_ok hK

theorem execLoopOp_ok (hK : Closed K) (d : Die) (t : Tile) (s : State) (hs : Ok K s) :
    OkOut K (execLoopOp d t s) := by
  unfold execLoopOp
  repeat' first
    | with_reducible assumption
    | intro _
    | with_reducible first | apply ok_next | apply State.setLoop_ok hK | apply State.issueOwn_ok hK

theorem execJumpOp_ok (hK : Closed K) (d : Die) (t : Tile) (s : State) (hs : Ok K s) :
    OkOut K (execJumpOp d t s) := by
  unfold execJumpOp
  repeat' first
    | with_reducible assumption
    | intro _
    | with_reducible first | apply ok_next | apply State.issueOwn_ok hK

theorem execPassOp_ok (hK : Closed K) (d : Die) (t : Tile) (s : State) (hs : Ok K s) :
    OkOut K (execPassOp d t s) := by
  unfold execPassOp
  repeat' first
    | with_reducible assumption
    | intro _
    | with_reducible first | apply ok_next | apply State.issueOwn_ok hK | apply State.setPass_ok hK

theorem execEndOp_ok (hK : Closed K) (d : Die) (t : Tile) (s : State) (hs : Ok K s) :
    OkOut K (execEndOp d t s) := by
  unfold execEndOp
  repeat' first
    | with_reducible assumption
    | intro _
    | with_reducible first | apply ok_next | apply State.doneAdd_ok hK | apply State.issue_ok hK
    | with_reducible first | apply State.issueMark_ok hK | apply State.seqHalt_ok hK

theorem State.opDone_ok (hK : Closed K) (s : State) (d : Nat) (t : Nat) (issue : Nat) (hs : Ok K s) :
    Ok K (State.opDone s d t issue) := by
  unfold State.opDone
  repeat' first
    | with_reducible first | assumption | apply ok_ite | apply State.doneAdd_ok hK | apply State.trace_ok hK
    | with_reducible first | apply State.setTile_ok hK | apply State.advance_ok hK
    | (extract_lets +onlyGivenNames v; have hv : Ok K v := ?_; clear_value v; pick_goal 2; subst v)
    | (extract_lets +onlyGivenNames v; (fail_if_success (have : ∀ z, v z = v z := fun _ => rfl)); clear_value v)
    | split

theorem State.withhold_ok (hK : Closed K) (s : State) (d : Nat) (t : Nat) (issue : Nat) (blk : Nat) (addr : Nat)
    (cause : Nat) (hs : Ok K s) :
    Ok K (State.withhold s d t issue blk addr cause) := by
  unfold State.withhold
  repeat' first
    | with_reducible first | assumption | apply ok_ite | apply State.record_ok hK | apply State.setTile_ok hK
    | (extract_lets +onlyGivenNames v; (fail_if_success (have : ∀ z, v z = v z := fun _ => rfl)); clear_value v)
    | split

theorem execWaitMetReport_ok (hK : Closed K) (d : Die) (t : Tile) (s : State) (hs : Ok K s) :
    OkOut K (execWaitMetReport d t s) := by
  unfold execWaitMetReport
  repeat' first
    | with_reducible first | assumption | apply okOut_ite | apply ok_next | apply State.arrayWake_ok hK
    | with_reducible first | apply State.ungate_ok hK | apply State.setTile_ok hK

theorem execTileGate_ok (hK : Closed K) (d : Die) (t : Tile) (s : State) (hs : Ok K s) :
    OkOut K (execTileGate d t s) := by
  unfold execTileGate
  repeat' first
    | with_reducible first | assumption | apply okOut_ite | apply ok_next | apply State.setTile_ok hK

theorem execTileUngate_ok (hK : Closed K) (d : Die) (t : Tile) (s : State) (hs : Ok K s) :
    OkOut K (execTileUngate d t s) := by
  unfold execTileUngate
  repeat' first
    | with_reducible first | assumption | apply okOut_ite | apply ok_next | apply State.ungate_ok hK

theorem execTlyAdd_ok (hK : Closed K) (r : Requester) (d : Die) (n : TallyIx) (v : Word) (s : State) (hs : Ok K s) :
    OkOut K (execTlyAdd r d n v s) := by
  unfold execTlyAdd
  repeat' first
    | with_reducible assumption
    | intro _
    | with_reducible first | apply ok_next | apply State.tallyQueue_ok hK | apply State.regWr_ok hK

theorem execTallyBankOp_ok (hK : Closed K) (d : Die) (bank : Fin 8) (s : State) (hs : Ok K s) :
    OkOut K (execTallyBankOp d bank s) := by
  unfold execTallyBankOp
  repeat' first
    | with_reducible first | assumption | apply ok_next | apply State.tallyPerform_ok hK | apply State.setDie_ok hK
    | (extract_lets +onlyGivenNames v; (fail_if_success (have : ∀ z, v z = v z := fun _ => rfl)); clear_value v)
    | split

theorem State.tallyClear_ok (hK : Closed K) (s : State) (d : Nat) (hs : Ok K s) :
    Ok K (State.tallyClear s d) := by
  unfold State.tallyClear
  repeat' first
    | with_reducible first | assumption | apply State.setDie_ok hK

theorem execTlyClearAll_ok (hK : Closed K) (r : Requester) (d : Die) (s : State) (hs : Ok K s) :
    OkOut K (execTlyClearAll r d s) := by
  unfold execTlyClearAll
  repeat' first
    | with_reducible assumption
    | intro _
    | with_reducible first | apply ok_next | apply State.regWr_ok hK | apply State.tallyClear_ok hK

end Sys2Proof.Machine
end

