-- ==== Sys2Proof/Laws/OkCpy.lean ====
section
/-! SUPPORT. Every operation of Machine/Cpy.lean keeps a predicate closed under the primitive updates. -/

set_option linter.unusedTactic false
set_option linter.unreachableTactic false

namespace Sys2Proof.Machine

variable {K : State → Prop}

theorem State.setChan_ok (hK : Closed K) (s : State) (k : ChanId) (x : Option ChS) (hs : Ok K s) :
    Ok K (State.setChan s k x) := by
  unfold State.setChan
  repeat' first
    | with_reducible first | assumption | apply State.setDie_ok hK | apply State.setTile_ok hK
    | split

theorem State.chCnt_ok (hK : Closed K) (s : State) (k : ChanId) (m : Nat) (n : Nat) (hs : Ok K s) :
    Ok K (State.chCnt s k m n) := by
  unfold State.chCnt
  repeat' first
    | with_reducible first | assumption | apply State.dcnt_ok hK | apply State.cnt_ok hK
    | split

theorem State.chRetried_ok (hK : Closed K) (s : State) (k : ChanId) (hs : Ok K s) :
    Ok K (State.chRetried s k) := by
  unfold State.chRetried
  repeat' first
    | with_reducible first | assumption | apply State.brk_ok hK | apply State.dbrk_ok hK
    | split

theorem State.lineTake_ok (hK : Closed K) (s : State) (k : ChanId) (l : Nat) (hs : Ok K s) :
    Ok K (State.lineTake s k l) := by
  unfold State.lineTake
  repeat' first
    | with_reducible first | assumption | apply State.setDie_ok hK | apply State.setTile_ok hK | apply State.p_ok hK
    | (extract_lets +onlyGivenNames v; (fail_if_success (have : ∀ z, v z = v z := fun _ => rfl)); clear_value v)
    | (extract_lets +onlyGivenNames v; subst v; dsimp -zeta only)
    | split

theorem execCpyRequest_ok (hK : Closed K) (l : LineId) (s : State) (hs : Ok K s) :
    OkOut K (execCpyRequest l s) := by
  unfold execCpyRequest
  repeat' first
    | with_reducible first | assumption | apply ok_next | apply State.request_ok hK
    | split

theorem State.requests_ok (hK : Closed K) (s : State) (die : Bool) (d : Nat) (t : Nat) (l : Nat) (ps0 : Nat)
    (hs : Ok K s) :
    Ok K (State.requests s die d t l ps0) := by
  fun_induction State.requests s die d t l ps0
  all_goals
    repeat' first
      | with_reducible first | assumption | apply State.request_ok hK | apply_assumption

theorem execSwreq_ok (hK : Closed K) (r : Requester) (l : SwLine) (v : Word) (s : State) (hs : Ok K s) :
    OkOut K (execSwreq r l v s) := by
  unfold execSwreq
  repeat' first
    | with_reducible assumption
    | intro _
    | with_reducible first | apply ok_next | apply State.regWr_ok hK | apply State.requests_ok hK
    | split

theorem State.chHalt_ok (hK : Closed K) (s : State) (k : ChanId) (x : ChS) (f : ChFail) (hs : Ok K s) :
    Ok K (State.chHalt s k x f) := by
  unfold State.chHalt
  repeat' first
    | with_reducible first | assumption | apply State.setChan_ok hK | apply State.wr_ok hK | apply State.raise_ok hK

theorem State.chFail_ok (hK : Closed K) (s : State) (k : ChanId) (x : ChS) (f : ChFail) (hs : Ok K s) :
    Ok K (State.chFail s k x f) := by
  unfold State.chFail
  repeat' first
    | with_reducible first | assumption | apply ok_ite | apply State.chHalt_ok hK | apply State.setChan_ok hK

theorem State.quarterFree_ok (hK : Closed K) (s : State) (k : ChanId) (x : Desc) (a : Nat) (m : Nat) (hs : Ok K s) :
    Ok K (State.quarterFree s k x a m) := by
  unfold State.quarterFree
  repeat' first
    | with_reducible first | assumption | apply ok_ite | apply State.p_ok hK
    | split

theorem State.chRead_ok (hK : Closed K) (s : State) (k : ChanId) (x : Desc) (a : Nat) (m : Nat) (hs : Ok K s) :
    Ok K (State.chRead s k x a m).2 := by
  unfold State.chRead
  repeat' first
    | with_reducible first | assumption | apply State.readLine_ok hK | apply State.quarterFree_ok hK
    | (extract_lets +onlyGivenNames v; (fail_if_success (have : ∀ z, v z = v z := fun _ => rfl)); clear_value v)
    | split
    | with_reducible refine ok_snd (by assumption) ?_

theorem State.chCompare_ok (hK : Closed K) (s : State) (k : ChanId) (x : ChS) (src : List Byte) (got : List Byte)
    (dst : Nat) (hs : Ok K s) :
    Ok K (State.chCompare s k x src got dst).2 := by
  unfold State.chCompare
  repeat' first
    | with_reducible first | assumption | apply ok_ite | apply State.inc32_ok hK | apply State.wr_ok hK
    | with_reducible first | apply State.chCnt_ok hK
    | (extract_lets +onlyGivenNames v; have hv : Ok K v := ?_; clear_value v; pick_goal 2; subst v)
    | (extract_lets +onlyGivenNames v; (fail_if_success (have : ∀ z, v z = v z := fun _ => rfl)); clear_value v)
    | split

theorem State.chSend_ok (hK : Closed K) (s : State) (k : ChanId) (x : Desc) (a : Nat) (bs : List Byte) (hs : Ok K s) :
    Ok K (State.chSend s k x a bs) := by
  unfold State.chSend
  repeat' first
    | with_reducible first | assumption | apply State.sendPkt_ok hK

theorem State.chPut_ok (hK : Closed K) (s : State) (k : ChanId) (x : ChS) (a : Nat) (bs : List Byte) (hs : Ok K s) :
    Ok K (State.chPut s k x a bs).2 := by
  unfold State.chPut
  repeat' first
    | with_reducible first | assumption | apply ok_ite_snd | apply State.chSend_ok hK | apply State.writeLine_ok hK
    | with_reducible first | apply State.chCnt_ok hK
    | split
    | with_reducible refine ok_snd (by assumption) ?_

theorem State.chCmp_ok (hK : Closed K) (s : State) (k : ChanId) (x : ChS) (a : Nat) (bs : List Byte) (hs : Ok K s) :
    Ok K (State.chCmp s k x a bs).2 := by
  unfold State.chCmp
  repeat' first
    | with_reducible first | assumption | apply State.chRead_ok hK | apply State.chCompare_ok hK
    | split
    | with_reducible refine ok_snd (by assumption) ?_

theorem State.chAfter_ok (hK : Closed K) (s : State) (k : ChanId) (x : ChS) (bs : List Byte) (hs : Ok K s) :
    Ok K (State.chAfter s k x bs).2 := by
  unfold State.chAfter
  repeat' first
    | with_reducible first | assumption | apply ok_ite_snd | apply State.chCmp_ok hK | apply State.chPut_ok hK

theorem State.chPiece_ok (hK : Closed K) (s : State) (k : ChanId) (x : ChS) (hs : Ok K s) :
    Ok K (State.chPiece s k x).2 := by
  unfold State.chPiece
  repeat' first
    | with_reducible first | assumption | apply ok_ite_snd | apply State.chRead_ok hK | apply State.chAfter_ok hK
    | (extract_lets +onlyGivenNames v; (fail_if_success (have : ∀ z, v z = v z := fun _ => rfl)); clear_value v)
    | split
    | with_reducible refine ok_snd (by assumption) ?_

theorem State.chRun_ok (hK : Closed K) (s : State) (k : ChanId) (x : ChS) (ps0 : Nat) (hs : Ok K s) :
    Ok K (State.chRun s k x ps0) := by
  fun_induction State.chRun s k x ps0
  all_goals
    repeat' first
      | with_reducible first | assumption | apply State.setChan_ok hK | apply State.chFail_ok hK
      | with_reducible first | apply State.chPiece_ok hK | refine ok_snd (by assumption) ?_ | apply_assumption

theorem State.chRedo_ok (hK : Closed K) (s : State) (k : ChanId) (x : ChS) (f : ChFail) (n : Nat) (hs : Ok K s) :
    Ok K (State.chRedo s k x f n) := by
  unfold State.chRedo
  repeat' first
    | with_reducible first | assumption | apply ok_ite | apply State.setChan_ok hK | apply State.chRun_ok hK
    | with_reducible first | apply State.chFail_ok hK | apply State.chCmp_ok hK | apply State.chPiece_ok hK
    | with_reducible first | apply State.chPut_ok hK | apply State.sendPkt_ok hK
    | (extract_lets +onlyGivenNames v; have hv : Ok K v := ?_; clear_value v; pick_goal 2; subst v)
    | (extract_lets +onlyGivenNames v; (fail_if_success (have : ∀ z, v z = v z := fun _ => rfl)); clear_value v)
    | (extract_lets +onlyGivenNames v; subst v; dsimp -zeta only)
    | split
    | with_reducible refine ok_snd (by assumption) ?_

theorem State.chBegin_ok (hK : Closed K) (s : State) (k : ChanId) (q : QDesc) (hs : Ok K s) :
    Ok K (State.chBegin s k q) := by
  unfold State.chBegin
  repeat' first
    | with_reducible first | assumption | apply ok_ite | apply State.setChan_ok hK | apply State.wr_ok hK

theorem State.chStart_ok (hK : Closed K) (s : State) (k : ChanId) (kind : Nat) (hs : Ok K s) :
    Ok K (State.chStart s k kind) := by
  unfold State.chStart
  repeat' first
    | with_reducible first | assumption | apply ok_ite | apply State.raise_ok hK | apply State.engPop_ok hK
    | with_reducible first | apply State.chBegin_ok hK
    | (extract_lets +onlyGivenNames v; (fail_if_success (have : ∀ z, v z = v z := fun _ => rfl)); clear_value v)
    | split

theorem execCpyCopy_ok (hK : Closed K) (c : ChanId) (s : State) (hs : Ok K s) :
    OkOut K (execCpyCopy c s) := by
  unfold execCpyCopy
  repeat' first
    | with_reducible first | assumption | apply ok_next | apply State.chStart_ok hK

theorem execCpyFill_ok (hK : Closed K) (c : ChanId) (s : State) (hs : Ok K s) :
    OkOut K (execCpyFill c s) := by
  unfold execCpyFill
  repeat' first
    | with_reducible first | assumption | apply ok_next | apply State.chStart_ok hK

theorem execCpyCompare_ok (hK : Closed K) (c : ChanId) (s : State) (hs : Ok K s) :
    OkOut K (execCpyCompare c s) := by
  unfold execCpyCompare
  repeat' first
    | with_reducible first | assumption | apply ok_next | apply State.chStart_ok hK

theorem State.runAhead_ok (hK : Closed K) (s : State) (page : Nat) (ps0 : List Nat) (hs : Ok K s) :
    Ok K (State.runAhead s page ps0) := by
  induction ps0 generalizing s with
  | nil => exact hs
  | cons q qs ih =>
    unfold State.runAhead
    refine ih _ ?_
    repeat' first
      | with_reducible assumption
      | with_reducible apply ok_ite
      | with_reducible apply State.rcFill_ok hK
      | with_reducible apply State.dbrk_ok hK
      | split

theorem State.chBurst_ok (hK : Closed K) (s : State) (k : ChanId) (x : ChS) (hs : Ok K s) :
    Ok K (State.chBurst s k x) := by
  unfold State.chBurst
  repeat' first
    | with_reducible first | assumption | apply ok_ite | apply State.chRun_ok hK | apply State.runAhead_ok hK

theorem execCopyBurst_ok (hK : Closed K) (c : ChanId) (s : State) (hs : Ok K s) :
    OkOut K (execCopyBurst c s) := by
  unfold execCopyBurst
  repeat' first
    | with_reducible first | assumption | apply okOut_ite | apply ok_next | apply State.setChan_ok hK
    | with_reducible first | apply State.tallyQueue_ok hK | apply State.lineTake_ok hK | apply State.chCnt_ok hK
    | with_reducible first | apply State.chBurst_ok hK
    | (extract_lets +onlyGivenNames v; (fail_if_success (have : ∀ z, v z = v z := fun _ => rfl)); clear_value v)
    | split

theorem execPaceResume_ok (hK : Closed K) (c : ChanId) (s : State) (hs : Ok K s) :
    OkOut K (execPaceResume c s) := by
  unfold execPaceResume
  repeat' first
    | with_reducible first | assumption | apply okOut_ite | apply ok_next | apply State.setChan_ok hK
    | split

theorem execCopyRetry_ok (hK : Closed K) (c : ChanId) (s : State) (hs : Ok K s) :
    OkOut K (execCopyRetry c s) := by
  unfold execCopyRetry
  repeat' first
    | with_reducible first | assumption | apply okOut_ite | apply ok_next | apply State.chRetried_ok hK
    | with_reducible first | apply State.chRedo_ok hK
    | split

theorem State.chAck_ok (hK : Closed K) (s : State) (k : ChanId) (a : Nat) (n : Nat) (data : List Byte) (status : Nat)
    (cause : Nat) (hs : Ok K s) :
    Ok K (State.chAck s k a n data status cause) := by
  unfold State.chAck
  repeat' first
    | with_reducible first | assumption | apply ok_ite | apply State.chFail_ok hK | apply State.chCnt_ok hK
    | split

theorem State.chFinish_ok (hK : Closed K) (s : State) (k : ChanId) (x : ChS) (hs : Ok K s) :
    Ok K (State.chFinish s k x) := by
  unfold State.chFinish
  repeat' first
    | with_reducible first | assumption | apply ok_ite | apply State.doneAdd_ok hK | apply State.opDone_ok hK
    | with_reducible first | apply State.setChan_ok hK | apply State.setTile_ok hK | apply State.raise_ok hK
    | (extract_lets +onlyGivenNames v; have hv : Ok K v := ?_; clear_value v; pick_goal 2; subst v)
    | (extract_lets +onlyGivenNames v; (fail_if_success (have : ∀ z, v z = v z := fun _ => rfl)); clear_value v)
    | split

theorem execCopyComplete_ok (hK : Closed K) (c : ChanId) (s : State) (hs : Ok K s) :
    OkOut K (execCopyComplete c s) := by
  unfold execCopyComplete
  repeat' first
    | with_reducible first | assumption | apply okOut_ite | apply ok_next | apply State.chFinish_ok hK
    | split

theorem State.chResume_ok (hK : Closed K) (s : State) (k : ChanId) (hs : Ok K s) :
    Ok K (State.chResume s k) := by
  unfold State.chResume
  repeat' first
    | with_reducible first | assumption | apply State.p_ok hK | apply State.chRedo_ok hK
    | split

theorem State.chAbort_ok (hK : Closed K) (s : State) (k : ChanId) (hs : Ok K s) :
    Ok K (State.chAbort s k) := by
  unfold State.chAbort
  repeat' first
    | with_reducible first | assumption | apply ok_ite | apply State.setChan_ok hK | apply State.chFinish_ok hK
    | split

theorem State.chHold_ok (hK : Closed K) (s : State) (k : ChanId) (hs : Ok K s) :
    Ok K (State.chHold s k) := by
  unfold State.chHold
  repeat' first
    | with_reducible first | assumption | apply ok_ite | apply State.chBegin_ok hK
    | split

theorem execChResume_ok (hK : Closed K) (r : Requester) (c : ChanId) (s : State) (hs : Ok K s) :
    OkOut K (execChResume r c s) := by
  unfold execChResume
  repeat' first
    | with_reducible assumption
    | intro _
    | with_reducible first | apply ok_next | apply State.chResume_ok hK | apply State.regWr_ok hK

theorem execChAbort_ok (hK : Closed K) (r : Requester) (c : ChanId) (s : State) (hs : Ok K s) :
    OkOut K (execChAbort r c s) := by
  unfold execChAbort
  repeat' first
    | with_reducible assumption
    | intro _
    | with_reducible first | apply ok_next | apply State.chHold_ok hK | apply State.regWr_ok hK
    | with_reducible first | apply State.chAbort_ok hK

end Sys2Proof.Machine
end

