-- ==== Sys2Proof/Laws/OkPrt.lean ====
section
/-! SUPPORT. Every operation of Machine/Prt.lean keeps a predicate closed under the primitive updates. -/

set_option linter.unusedTactic false
set_option linter.unreachableTactic false

namespace Sys2Proof.Machine

variable {K : State → Prop}

theorem State.setPrt_ok (hK : Closed K) (s : State) (d : Nat) (p : Option PrtS) (hs : Ok K s) :
    Ok K (State.setPrt s d p) := by
  unfold State.setPrt
  repeat' first
    | with_reducible first | assumption | apply State.setDie_ok hK

theorem execPrtSubmit_ok (hK : Closed K) (r : Requester) (d : Die) (v : Word) (s : State) (hs : Ok K s) :
    OkOut K (execPrtSubmit r d v s) := by
  unfold execPrtSubmit
  repeat' first
    | with_reducible first | assumption | apply ok_next | apply State.submit_ok hK

theorem execPrtQueueClear_ok (hK : Closed K) (r : Requester) (d : Die) (s : State) (hs : Ok K s) :
    OkOut K (execPrtQueueClear r d s) := by
  unfold execPrtQueueClear
  repeat' first
    | with_reducible assumption
    | intro _
    | with_reducible first | apply ok_next | apply State.engFlush_ok hK | apply State.regWr_ok hK

theorem State.prtHalt_ok (hK : Closed K) (s : State) (d : Nat) (p : PrtS) (f : EngFail) (hs : Ok K s) :
    Ok K (State.prtHalt s d p f) := by
  unfold State.prtHalt
  repeat' first
    | with_reducible first | assumption | apply State.wr_ok hK | apply State.setPrt_ok hK | apply State.raise_ok hK

theorem State.prtFail_ok (hK : Closed K) (s : State) (d : Nat) (p : PrtS) (f : EngFail) (hs : Ok K s) :
    Ok K (State.prtFail s d p f) := by
  unfold State.prtFail
  repeat' first
    | with_reducible first | assumption | apply ok_ite | apply State.setPrt_ok hK | apply State.prtHalt_ok hK

theorem State.readIdx_ok (hK : Closed K) (s : State) (d : Nat) (x : Desc) (i : Nat) (hs : Ok K s) :
    Ok K (State.readIdx s d x i).2 := by
  unfold State.readIdx
  repeat' first
    | with_reducible first | assumption | apply State.readSpan_ok hK

theorem State.prtWrite_ok (hK : Closed K) (s : State) (r : Requester) (ps0 : List (Nat × List Byte)) (hs : Ok K s) :
    Ok K (State.prtWrite s r ps0).2 := by
  fun_induction State.prtWrite s r ps0
  all_goals
    repeat' first
      | with_reducible first | assumption | apply State.writeLine_ok hK | refine ok_snd (by assumption) ?_
      | with_reducible first | apply_assumption

theorem State.prtSend_ok (hK : Closed K) (s : State) (d : Nat) (typ : Nat) (dst : Nat) (a : Nat)
    (ps0 : List (List Byte)) (hs : Ok K s) :
    Ok K (State.prtSend s d typ dst a ps0) := by
  fun_induction State.prtSend s d typ dst a ps0
  all_goals
    repeat' first
      | with_reducible first | assumption | apply State.sendPkt_ok hK | apply_assumption

theorem State.freeDraws_ok (hK : Closed K) (s : State) (ps0 : Nat) (hs : Ok K s) :
    Ok K (State.freeDraws s ps0).2 := by
  fun_induction State.freeDraws s ps0
  all_goals
    repeat' first
      | with_reducible first | assumption | apply State.draw_ok hK | refine ok_snd (by assumption) ?_ | apply_assumption

theorem State.prtAhead_ok (hK : Closed K) (s : State) (d : Nat) (x : Desc) (t : TableE) (i : Nat) (page : Nat)
    (hs : Ok K s) :
    Ok K (State.prtAhead s d x t i page) := by
  unfold State.prtAhead
  repeat' first
    | with_reducible assumption
    | intro _
    | with_reducible first | apply State.runAhead_ok hK | apply ok_foldl

theorem State.prtRowLost_ok (hK : Closed K) (s : State) (d : Nat) (p : PrtS) (a : Nat) (hs : Ok K s) :
    Ok K (State.prtRowLost s d p a).2 := by
  unfold State.prtRowLost
  repeat' first
    | with_reducible first | assumption | apply ok_ite | apply State.record_ok hK | apply State.dbrk_ok hK

theorem State.poolEntry_ok (hK : Closed K) (s : State) (d : Nat) (p : PrtS) (t : TableE) (e : IdxE) (hs : Ok K s) :
    Ok K (State.poolEntry s d p t e).2 := by
  unfold State.poolEntry
  repeat' first
    | with_reducible first | assumption | apply ok_ite | apply ok_ite_snd | apply State.readSpan_ok hK
    | with_reducible first | apply State.prtAhead_ok hK | apply State.prtRowLost_ok hK | apply State.dcnt_ok hK
    | with_reducible first | apply State.dbrk_ok hK
    | (extract_lets +onlyGivenNames v; (fail_if_success (have : ∀ z, v z = v z := fun _ => rfl)); clear_value v)
    | split
    | with_reducible refine ok_snd (by assumption) ?_

theorem State.poolBag_ok (hK : Closed K) (s : State) (d : Nat) (p : PrtS) (t : TableE) (ps0 : Nat) (hs : Ok K s) :
    Ok K (State.poolBag s d p t ps0).2.2 := by
  fun_induction State.poolBag s d p t ps0
  all_goals
    repeat' first
      | with_reducible first | assumption | apply State.poolEntry_ok hK | apply State.readIdx_ok hK
      | with_reducible first | apply State.dcnt_ok hK | refine ok_snd (by assumption) ?_ | apply_assumption

theorem State.bagWrite_ok (hK : Closed K) (s : State) (d : Nat) (p : PrtS) (outs : List (Nat × List Byte))
    (hs : Ok K s) :
    Ok K (State.bagWrite s d p outs) := by
  unfold State.bagWrite
  repeat' first
    | with_reducible first | assumption | apply State.prtFail_ok hK | apply State.setPrt_ok hK
    | with_reducible first | apply State.prtWrite_ok hK
    | (extract_lets +onlyGivenNames v; (fail_if_success (have : ∀ z, v z = v z := fun _ => rfl)); clear_value v)
    | split
    | with_reducible refine ok_snd (by assumption) ?_

theorem State.prtBag_ok (hK : Closed K) (s : State) (d : Nat) (p : PrtS) (hs : Ok K s) :
    Ok K (State.prtBag s d p) := by
  unfold State.prtBag
  repeat' first
    | with_reducible assumption
    | intro _
    | with_reducible first | apply ok_ite | apply ok_ite_snd | apply State.freeDraws_ok hK
    | with_reducible first | apply State.bagWrite_ok hK | apply State.prtFail_ok hK | apply State.prtSend_ok hK
    | with_reducible first | apply State.raise_ok hK | apply State.poolBag_ok hK | apply State.dbrk_ok hK
    | with_reducible first | apply ok_foldl
    | split
    | with_reducible refine ok_snd3 (by assumption) ?_

theorem State.probe_ok (hK : Closed K) (s : State) (d : Nat) (t : TableE) (l : Nat) (h : Nat)
    (best : Option (Nat × List Byte)) (ps0 : Nat) (hs : Ok K s) :
    Ok K (State.probe s d t l h best ps0).2 := by
  fun_induction State.probe s d t l h best ps0
  all_goals
    repeat' first
      | with_reducible first | assumption | apply State.readLine_ok hK
      | split
      | with_reducible first | refine ok_snd (by assumption) ?_ | apply_assumption

theorem State.bagCount_ok (hK : Closed K) (s : State) (d : Nat) (x : Desc) (t : TableE) (i : Nat) (n : Nat)
    (ps0 : Nat) (hs : Ok K s) :
    Ok K (State.bagCount s d x t i n ps0).2 := by
  fun_induction State.bagCount s d x t i n ps0
  all_goals
    repeat' first
      | with_reducible first | assumption | apply State.readIdx_ok hK | refine ok_snd (by assumption) ?_
      | with_reducible first | apply_assumption

theorem State.scatterOpen_ok (hK : Closed K) (s : State) (d : Nat) (p : PrtS) (t : TableE) (hs : Ok K s) :
    Ok K (State.scatterOpen s d p t).2 := by
  unfold State.scatterOpen
  repeat' first
    | with_reducible first | assumption | apply ok_ite | apply ok_ite_snd | apply State.readSpan_ok hK
    | with_reducible first | apply State.bagCount_ok hK | apply State.raise_ok hK | apply State.dbrk_ok hK
    | (extract_lets +onlyGivenNames v; have hv : Ok K v := ?_; clear_value v; pick_goal 2; subst v)
    | (extract_lets +onlyGivenNames v; (fail_if_success (have : ∀ z, v z = v z := fun _ => rfl)); clear_value v)
    | split
    | with_reducible refine ok_snd (by assumption) ?_

theorem State.scatterLeave_ok (hK : Closed K) (s : State) (d : Nat) (p : PrtS) (e : IdxE) (hs : Ok K s) :
    Ok K (State.scatterLeave s d p e) := by
  unfold State.scatterLeave
  repeat' first
    | with_reducible first | assumption | apply ok_ite | apply State.setPrt_ok hK | apply State.raise_ok hK
    | with_reducible first | apply State.dcnt_ok hK

theorem State.scatterAdd_ok (hK : Closed K) (s : State) (d : Nat) (p : PrtS) (t : TableE) (e : IdxE) (hs : Ok K s) :
    Ok K (State.scatterAdd s d p t e) := by
  unfold State.scatterAdd
  repeat' first
    | with_reducible first | assumption | apply ok_ite | apply State.scatterLeave_ok hK | apply State.readSpan_ok hK
    | with_reducible first | apply State.prtFail_ok hK | apply State.raise_ok hK | apply State.prtWrite_ok hK
    | with_reducible first | apply State.probe_ok hK | apply State.dbrk_ok hK
    | (extract_lets +onlyGivenNames v; have hv : Ok K v := ?_; clear_value v; pick_goal 2; subst v)
    | (extract_lets +onlyGivenNames v; (fail_if_success (have : ∀ z, v z = v z := fun _ => rfl)); clear_value v)
    | (extract_lets +onlyGivenNames v; subst v; dsimp -zeta only)
    | split
    | with_reducible refine ok_snd (by assumption) ?_

theorem State.scatterEntry_ok (hK : Closed K) (s : State) (d : Nat) (p : PrtS) (t : TableE) (hs : Ok K s) :
    Ok K (State.scatterEntry s d p t) := by
  unfold State.scatterEntry
  repeat' first
    | with_reducible first | assumption | apply ok_ite | apply State.scatterLeave_ok hK | apply State.prtFail_ok hK
    | with_reducible first | apply State.scatterAdd_ok hK | apply State.readIdx_ok hK | apply State.prtWrite_ok hK
    | with_reducible first | apply State.dbrk_ok hK
    | (extract_lets +onlyGivenNames v; (fail_if_success (have : ∀ z, v z = v z := fun _ => rfl)); clear_value v)
    | split
    | with_reducible refine ok_snd (by assumption) ?_

theorem State.scatterNext_ok (hK : Closed K) (s : State) (d : Nat) (p : PrtS) (hs : Ok K s) :
    Ok K (State.scatterNext s d p) := by
  unfold State.scatterNext
  repeat' first
    | with_reducible first | assumption | apply ok_ite | apply State.scatterOpen_ok hK | apply State.prtFail_ok hK
    | with_reducible first | apply State.scatterEntry_ok hK
    | split
    | with_reducible refine ok_snd (by assumption) ?_

theorem State.pushLines_ok (hK : Closed K) (s : State) (d : Nat) (t : TableE) (a : Nat) (ps0 : List (List Byte))
    (hs : Ok K s) :
    Ok K (State.pushLines s d t a ps0) := by
  fun_induction State.pushLines s d t a ps0
  all_goals
    repeat' first
      | with_reducible first | assumption | apply State.wr_ok hK | apply State.prtSend_ok hK | apply_assumption

theorem State.pushSpan_ok (hK : Closed K) (s : State) (d : Nat) (p : PrtS) (t : TableE) (a : Nat) (n : Nat)
    (hs : Ok K s) :
    Ok K (State.pushSpan s d p t a n).2 := by
  unfold State.pushSpan
  repeat' first
    | with_reducible first | assumption | apply State.readSpan_ok hK | apply State.prtRowLost_ok hK
    | with_reducible first | apply State.pushLines_ok hK
    | split
    | with_reducible refine ok_snd (by assumption) ?_

theorem State.pushRows_ok (hK : Closed K) (s : State) (d : Nat) (p : PrtS) (t : TableE) (ps0 : Nat) (hs : Ok K s) :
    Ok K (State.pushRows s d p t ps0) := by
  fun_induction State.pushRows s d p t ps0
  all_goals
    repeat' first
      | with_reducible first | assumption | apply ok_ite_snd | apply State.pushSpan_ok hK | apply State.setPrt_ok hK
      | with_reducible first | apply State.dcnt_ok hK | refine ok_snd (by assumption) ?_ | apply_assumption

theorem State.shipRows_ok (hK : Closed K) (s : State) (d : Nat) (p : PrtS) (t : TableE) (ps0 : Nat) (hs : Ok K s) :
    Ok K (State.shipRows s d p t ps0) := by
  induction ps0 generalizing s p with
  | zero => exact State.setPrt_ok hK _ _ _ hs
  | succ k ih =>
    unfold State.shipRows
    extract_lets x go n a o
    have hgo : ∀ z outs, Ok K z → Ok K (go z outs) := by
      intro z outs hz
      have h := State.prtWrite_ok hK z (prtReq d) outs hz
      simp only [go]
      split
      · exact ih _ _ (ok_snd (by assumption) h)
      · exact State.prtFail_ok hK _ _ _ _ (ok_snd (by assumption) h)
    clear_value go
    have h := State.readSpan_ok hK s (prtReq d) a n false hs
    refine ok_ite (State.setPrt_ok hK _ _ _ hs) (ok_ite (hgo _ _ hs) ?_)
    split
    have h1 := ok_snd (by assumption) h
    split
    · exact State.prtFail_ok hK _ _ _ _ h1
    · have h2 := State.dcnt_ok hK _ d 17 n h1
      exact ok_ite (hgo _ _ (State.prtSend_ok hK _ _ _ _ _ _ h2)) (hgo _ _ h2)

theorem State.prtGo_ok (hK : Closed K) (s : State) (d : Nat) (p : PrtS) (hs : Ok K s) :
    Ok K (State.prtGo s d p) := by
  unfold State.prtGo
  repeat' first
    | with_reducible first | assumption | apply State.shipRows_ok hK | apply State.prtBag_ok hK
    | with_reducible first | apply State.pushRows_ok hK | apply State.scatterNext_ok hK
    | (extract_lets +onlyGivenNames v; (fail_if_success (have : ∀ z, v z = v z := fun _ => rfl)); clear_value v)
    | split

theorem State.prtBegin_ok (hK : Closed K) (s : State) (d : Nat) (kind : Nat) (go : Bool) (hs : Ok K s) :
    Ok K (State.prtBegin s d kind go) := by
  unfold State.prtBegin
  repeat' first
    | with_reducible first | assumption | apply ok_ite | apply State.prtGo_ok hK | apply State.setPrt_ok hK
    | with_reducible first | apply State.raise_ok hK | apply State.dcnt_ok hK | apply State.engPop_ok hK
    | split

theorem execPrtGather_ok (hK : Closed K) (d : Die) (s : State) (hs : Ok K s) :
    OkOut K (execPrtGather d s) := by
  unfold execPrtGather
  repeat' first
    | with_reducible first | assumption | apply ok_next | apply State.prtBegin_ok hK

theorem execPrtScatter_ok (hK : Closed K) (d : Die) (s : State) (hs : Ok K s) :
    OkOut K (execPrtScatter d s) := by
  unfold execPrtScatter
  repeat' first
    | with_reducible first | assumption | apply ok_next | apply State.prtBegin_ok hK

theorem execPrtParityPush_ok (hK : Closed K) (d : Die) (s : State) (hs : Ok K s) :
    OkOut K (execPrtParityPush d s) := by
  unfold execPrtParityPush
  repeat' first
    | with_reducible first | assumption | apply ok_next | apply State.prtBegin_ok hK

theorem execPrtShip_ok (hK : Closed K) (d : Die) (s : State) (hs : Ok K s) :
    OkOut K (execPrtShip d s) := by
  unfold execPrtShip
  repeat' first
    | with_reducible first | assumption | apply ok_next | apply State.prtBegin_ok hK

theorem execPrtBag_ok (hK : Closed K) (d : Die) (s : State) (hs : Ok K s) :
    OkOut K (execPrtBag d s) := by
  unfold execPrtBag
  repeat' first
    | with_reducible first | assumption | apply ok_next | apply State.prtBag_ok hK
    | split

theorem execScatterContribution_ok (hK : Closed K) (d : Die) (s : State) (hs : Ok K s) :
    OkOut K (execScatterContribution d s) := by
  unfold execScatterContribution
  repeat' first
    | with_reducible first | assumption | apply ok_next | apply State.scatterNext_ok hK
    | split

theorem State.prtRedo_ok (hK : Closed K) (s : State) (d : Nat) (p : PrtS) (f : EngFail) (n : Nat) (hs : Ok K s) :
    Ok K (State.prtRedo s d p f n) := by
  unfold State.prtRedo
  repeat' first
    | with_reducible first | assumption | apply ok_ite | apply State.prtGo_ok hK | apply State.setPrt_ok hK
    | with_reducible first | apply State.prtHalt_ok hK | apply State.sendPkt_ok hK
    | (extract_lets +onlyGivenNames v; have hv : Ok K v := ?_; clear_value v; pick_goal 2; subst v)
    | (extract_lets +onlyGivenNames v; (fail_if_success (have : ∀ z, v z = v z := fun _ => rfl)); clear_value v)
    | split

theorem execPrtRetry_ok (hK : Closed K) (d : Die) (s : State) (hs : Ok K s) :
    OkOut K (execPrtRetry d s) := by
  unfold execPrtRetry
  repeat' first
    | with_reducible first | assumption | apply okOut_ite | apply ok_next | apply State.prtRedo_ok hK
    | split

theorem State.prtResume_ok (hK : Closed K) (s : State) (d : Nat) (hs : Ok K s) :
    Ok K (State.prtResume s d) := by
  unfold State.prtResume
  repeat' first
    | with_reducible first | assumption | apply State.prtRedo_ok hK | apply State.p_ok hK
    | split

theorem State.prtAbort_ok (hK : Closed K) (s : State) (d : Nat) (hs : Ok K s) :
    Ok K (State.prtAbort s d) := by
  unfold State.prtAbort
  repeat' first
    | with_reducible first | assumption | apply ok_ite | apply State.setPrt_ok hK
    | split

theorem State.prtAck_ok (hK : Closed K) (s : State) (d : Nat) (n : Nat) (k : Packet) (status : Nat) (cause : Nat)
    (hs : Ok K s) :
    Ok K (State.prtAck s d n k status cause) := by
  unfold State.prtAck
  repeat' first
    | with_reducible first | assumption | apply ok_ite | apply State.prtFail_ok hK
    | split

theorem execPrtResume_ok (hK : Closed K) (r : Requester) (d : Die) (s : State) (hs : Ok K s) :
    OkOut K (execPrtResume r d s) := by
  unfold execPrtResume
  repeat' first
    | with_reducible assumption
    | intro _
    | with_reducible first | apply ok_next | apply State.regWr_ok hK | apply State.prtResume_ok hK

theorem execPrtAbort_ok (hK : Closed K) (r : Requester) (d : Die) (s : State) (hs : Ok K s) :
    OkOut K (execPrtAbort r d s) := by
  unfold execPrtAbort
  repeat' first
    | with_reducible assumption
    | intro _
    | with_reducible first | apply ok_next | apply State.prtAbort_ok hK | apply State.regWr_ok hK

theorem execPrtComplete_ok (hK : Closed K) (d : Die) (s : State) (hs : Ok K s) :
    OkOut K (execPrtComplete d s) := by
  unfold execPrtComplete
  repeat' first
    | with_reducible first | assumption | apply okOut_ite | apply ok_next | apply State.doneAdd_ok hK
    | with_reducible first | apply State.setPrt_ok hK
    | split

end Sys2Proof.Machine
end

