-- ==== Sys2Proof/Laws/OkClr.lean ====
section
/-! SUPPORT. Every operation of Machine/Clr.lean keeps a predicate closed under the primitive updates. -/

set_option linter.unusedTactic false
set_option linter.unreachableTactic false

namespace Sys2Proof.Machine

variable {K : State → Prop}

theorem State.setClr_ok (hK : Closed K) (s : State) (d : Nat) (c : ClrS) (hs : Ok K s) :
    Ok K (State.setClr s d c) := by
  unfold State.setClr
  repeat' first
    | with_reducible first | assumption | apply State.setDie_ok hK

theorem State.putOp_ok (hK : Closed K) (s : State) (d : Nat) (o : ClrOp) (hs : Ok K s) :
    Ok K (State.putOp s d o) := by
  unfold State.putOp
  repeat' first
    | with_reducible first | assumption | apply State.setClr_ok hK

theorem State.clrOnce_ok (hK : Closed K) (s : State) (d : Nat) (o : ClrOp) (bit : Nat) (hs : Ok K s) :
    Ok K (State.clrOnce s d o bit).2 := by
  unfold State.clrOnce
  repeat' first
    | with_reducible first | assumption | apply ok_ite_snd | apply State.raise_ok hK

theorem State.clrHalt_ok (hK : Closed K) (s : State) (d : Nat) (f : ClrFail) (q : QDesc) (hs : Ok K s) :
    Ok K (State.clrHalt s d f q) := by
  unfold State.clrHalt
  repeat' first
    | with_reducible first | assumption | apply State.setClr_ok hK | apply State.wr_ok hK | apply State.raise_ok hK

theorem State.clrFail_ok (hK : Closed K) (s : State) (d : Nat) (f : ClrFail) (hs : Ok K s) :
    Ok K (State.clrFail s d f) := by
  unfold State.clrFail
  repeat' first
    | with_reducible first | assumption | apply ok_ite | apply State.setClr_ok hK | apply State.clrHalt_ok hK

theorem State.clrRead_ok (hK : Closed K) (s : State) (d : Nat) (a : Nat) (n : Nat) (hs : Ok K s) :
    Ok K (State.clrRead s d a n).2 := by
  unfold State.clrRead
  repeat' first
    | with_reducible first | assumption | apply State.readSpan_ok hK
    | split
    | with_reducible refine ok_snd (by assumption) ?_

theorem State.clrWrite_ok (hK : Closed K) (s : State) (d : Nat) (a : Nat) (bs : List Byte) (hs : Ok K s) :
    Ok K (State.clrWrite s d a bs).2 := by
  unfold State.clrWrite
  repeat' first
    | with_reducible first | assumption | apply State.prtWrite_ok hK
    | split
    | with_reducible refine ok_snd (by assumption) ?_

theorem execClrSubmit_ok (hK : Closed K) (r : Requester) (d : Die) (v : Word) (s : State) (hs : Ok K s) :
    OkOut K (execClrSubmit r d v s) := by
  unfold execClrSubmit
  repeat' first
    | with_reducible first | assumption | apply ok_next | apply State.submit_ok hK

theorem execClrQueueClear_ok (hK : Closed K) (r : Requester) (d : Die) (s : State) (hs : Ok K s) :
    OkOut K (execClrQueueClear r d s) := by
  unfold execClrQueueClear
  repeat' first
    | with_reducible assumption
    | intro _
    | with_reducible first | apply ok_next | apply State.engFlush_ok hK | apply State.regWr_ok hK

theorem State.clrEnter_ok (hK : Closed K) (s : State) (d : Nat) (o : ClrOp) (hs : Ok K s) :
    Ok K (State.clrEnter s d o) := by
  unfold State.clrEnter
  repeat' first
    | with_reducible first | assumption | apply State.setClr_ok hK | apply State.engPop_ok hK

theorem State.clrRefuse_ok (hK : Closed K) (s : State) (d : Nat) (q : QDesc) (hs : Ok K s) :
    Ok K (State.clrRefuse s d q) := by
  unfold State.clrRefuse
  repeat' first
    | with_reducible first | assumption | apply State.raise_ok hK | apply State.engPop_ok hK

theorem State.clrHead_ok (hK : Closed K) (s : State) (d : Nat) (kind : Nat) (hs : Ok K s) :
    Ok K (State.clrHead s d kind).2 := by
  unfold State.clrHead
  repeat' first
    | with_reducible first | assumption | apply ok_ite_snd | apply State.raise_ok hK | apply State.dcnt_ok hK
    | with_reducible first | apply State.clrRefuse_ok hK | apply State.engPop_ok hK | apply State.dbrk_ok hK
    | split

theorem State.arm_ok (hK : Closed K) (s : State) (x : Desc) (k : List Byte) (p : Nat) (hs : Ok K s) :
    Ok K (State.arm s x k p).2 := by
  unfold State.arm
  repeat' first
    | with_reducible first | assumption | apply ok_ite_snd | apply State.wr_ok hK | apply State.raise_ok hK

theorem State.armAll_ok (hK : Closed K) (s : State) (x : Desc) (k : List Byte) (ps0 : List Nat) (hs : Ok K s) :
    Ok K (State.armAll s x k ps0).2 := by
  fun_induction State.armAll s x k ps0
  all_goals
    repeat' first
      | with_reducible first | assumption | apply State.arm_ok hK | refine ok_snd (by assumption) ?_ | apply_assumption

theorem State.armNodes_ok (hK : Closed K) (s : State) (x : Desc) (ps0 : List (List Byte)) (hs : Ok K s) :
    Ok K (State.armNodes s x ps0).2 := by
  fun_induction State.armNodes s x ps0
  all_goals
    repeat' first
      | with_reducible first | assumption | apply State.armAll_ok hK | refine ok_snd (by assumption) ?_
      | with_reducible first | apply_assumption

theorem State.tallyZero_ok (hK : Closed K) (s : State) (d : Nat) (n : Nat) (hs : Ok K s) :
    Ok K (State.tallyZero s d n) := by
  unfold State.tallyZero
  repeat' first
    | with_reducible first | assumption | apply State.tallyQueue_ok hK

theorem State.reduceStart_ok (hK : Closed K) (s : State) (d : Nat) (q : QDesc) (recs : List (List Byte))
    (bm : List Byte) (hs : Ok K s) :
    Ok K (State.reduceStart s d q recs bm) := by
  unfold State.reduceStart
  repeat' first
    | with_reducible assumption
    | intro _
    | with_reducible first | apply ok_ite | apply State.clrEnter_ok hK | apply State.tallyZero_ok hK
    | with_reducible first | apply State.armNodes_ok hK | apply State.clrFail_ok hK | apply ok_foldl
    | (extract_lets +onlyGivenNames v; (fail_if_success (have : ∀ z, v z = v z := fun _ => rfl)); clear_value v)
    | split
    | with_reducible refine ok_snd (by assumption) ?_

theorem State.clrLeave_ok (hK : Closed K) (s : State) (d : Nat) (num : Nat) (hs : Ok K s) :
    Ok K (State.clrLeave s d num) := by
  unfold State.clrLeave
  repeat' first
    | with_reducible first | assumption | apply State.setClr_ok hK

theorem State.reduceSettle_ok (hK : Closed K) (s : State) (d : Nat) (num : Nat) (hs : Ok K s) :
    Ok K (State.reduceSettle s d num) := by
  unfold State.reduceSettle
  repeat' first
    | with_reducible assumption
    | intro _
    | with_reducible first | apply ok_ite | apply State.doneAdd_ok hK | apply State.tallyZero_ok hK
    | with_reducible first | apply State.putOp_ok hK | apply State.clrLeave_ok hK | apply ok_foldl
    | split

theorem State.reduceBegin_ok (hK : Closed K) (s : State) (d : Nat) (q : QDesc) (hs : Ok K s) :
    Ok K (State.reduceBegin s d q) := by
  unfold State.reduceBegin
  repeat' first
    | with_reducible first | assumption | apply ok_ite | apply ok_ite_snd | apply State.clrRead_ok hK
    | with_reducible first | apply State.reduceSettle_ok hK | apply State.reduceStart_ok hK
    | with_reducible first | apply State.clrFail_ok hK | apply State.clrRefuse_ok hK
    | (extract_lets +onlyGivenNames v; (fail_if_success (have : ∀ z, v z = v z := fun _ => rfl)); clear_value v)
    | split
    | with_reducible refine ok_snd (by assumption) ?_

theorem State.contrib_ok (hK : Closed K) (s : State) (d : Nat) (x : Desc) (g : Nat) (off : Nat) (n : Nat)
    (note : Bool) (hs : Ok K s) :
    Ok K (State.contrib s d x g off n note).2 := by
  unfold State.contrib
  repeat' first
    | with_reducible first | assumption | apply ok_ite | apply ok_ite_snd | apply State.clrRead_ok hK
    | with_reducible first | apply State.dbrk_ok hK
    | split
    | with_reducible refine ok_snd (by assumption) ?_
    | dsimp -zeta only

theorem State.sendUp_ok (hK : Closed K) (s : State) (d : Nat) (x : Desc) (n : ClrNode) (p : Nat) (count : Nat)
    (pay : List Byte) (hs : Ok K s) :
    Ok K (State.sendUp s d x n p count pay) := by
  unfold State.sendUp
  repeat' first
    | with_reducible first | assumption | apply State.route_ok hK | apply State.dcnt_ok hK

theorem State.sendOwn_ok (hK : Closed K) (s : State) (d : Nat) (o : ClrOp) (n : ClrNode) (hs : Ok K s) :
    Ok K (State.sendOwn s d o n) := by
  unfold State.sendOwn
  repeat' first
    | with_reducible first | assumption | apply ok_ite | apply State.route_ok hK | apply State.putOp_ok hK
    | with_reducible first | apply State.clrFail_ok hK | apply State.contrib_ok hK | apply State.sendUp_ok hK
    | (extract_lets +onlyGivenNames v; (fail_if_success (have : ∀ z, v z = v z := fun _ => rfl)); clear_value v)
    | split
    | with_reducible refine ok_snd (by assumption) ?_

theorem State.creditHeld_ok (hK : Closed K) (s : State) (d : Nat) (o : ClrOp) (n : ClrNode) (hs : Ok K s) :
    Ok K (State.creditHeld s d o n) := by
  unfold State.creditHeld
  repeat' first
    | with_reducible first | assumption | apply State.putOp_ok hK | apply State.dcnt_ok hK

theorem State.position_ok (hK : Closed K) (s : State) (d : Nat) (o : ClrOp) (n : ClrNode) (hs : Ok K s) :
    Ok K (State.position s d o n) := by
  unfold State.position
  repeat' first
    | with_reducible first | assumption | apply ok_ite | apply State.sendOwn_ok hK | apply State.putOp_ok hK
    | with_reducible first | apply State.creditHeld_ok hK | apply State.sendUp_ok hK
    | (extract_lets +onlyGivenNames v; (fail_if_success (have : ∀ z, v z = v z := fun _ => rfl)); clear_value v)
    | split

theorem execPositionSend_ok (hK : Closed K) (d : Die) (i : Fin 4) (r : Nat) (s : State) (hs : Ok K s) :
    OkOut K (execPositionSend d i r s) := by
  unfold execPositionSend
  repeat' first
    | with_reducible first | assumption | apply okOut_ite | apply ok_next | apply State.reduceSettle_ok hK
    | with_reducible first | apply State.position_ok hK
    | split

theorem State.grantAll_ok (hK : Closed K) (s : State) (d : Nat) (n : ClrNode) (amount : Nat) (hs : Ok K s) :
    Ok K (State.grantAll s d n amount) := by
  unfold State.grantAll
  repeat' first
    | with_reducible assumption
    | intro _
    | with_reducible first | apply State.addTally_ok hK | apply ok_foldl

theorem State.grant_ok (hK : Closed K) (s : State) (d : Nat) (x : Desc) (n : ClrNode) (p : Nat) (hs : Ok K s) :
    Ok K (State.grant s d x n p).2 := by
  unfold State.grant
  repeat' first
    | with_reducible first | assumption | apply ok_ite_snd | apply State.grantAll_ok hK

theorem State.pads_ok (hK : Closed K) (s : State) (d : Nat) (o : ClrOp) (n : ClrNode) (p : Nat) (ps0 : List Nat)
    (hs : Ok K s) :
    Ok K (State.pads s d o n p ps0) := by
  induction ps0 generalizing s with
  | nil => exact hs
  | cons q qs ih =>
    unfold State.pads
    refine ih _ (ok_ite (State.dbrk_ok hK _ _ _ _ ?_) ?_) <;> exact State.dbrk_ok hK _ _ _ _ (State.route_ok hK _ _ _ _ hs)

theorem State.advanceEntry_ok (hK : Closed K) (s : State) (d : Nat) (o : ClrOp) (n : ClrNode) (p : Nat) (hs : Ok K s)
    :
    Ok K (State.advanceEntry s d o n p).2 := by
  unfold State.advanceEntry
  repeat' first
    | with_reducible first | assumption | apply ok_ite | apply State.pads_ok hK | apply State.grant_ok hK

theorem State.blockDeliver_ok (hK : Closed K) (s : State) (d : Nat) (o : ClrOp) (grad : Nat) (dir : Nat) (i : Nat)
    (counts : List Nat) (maxAbs : Nat) (hs : Ok K s) :
    Ok K (State.blockDeliver s d o grad dir i counts maxAbs).2 := by
  unfold State.blockDeliver
  repeat' first
    | with_reducible first | assumption | apply ok_ite_snd | apply State.normBlock_ok hK | apply State.clrOnce_ok hK
    | with_reducible first | apply State.clrWrite_ok hK | apply State.dbrk_ok hK
    | (extract_lets +onlyGivenNames v; (fail_if_success (have : ∀ z, v z = v z := fun _ => rfl)); clear_value v)
    | split
    | with_reducible refine ok_snd (by assumption) ?_

theorem State.shardEnd_ok (hK : Closed K) (s : State) (d : Nat) (o : ClrOp) (hs : Ok K s) :
    Ok K (State.shardEnd s d o) := by
  unfold State.shardEnd
  exact State.normJudge_ok hK _ _ _ _ (State.observeG_ok hK _ _ _ _ _ (State.largest_ok hK s _ hs))

theorem State.rootBlock_ok (hK : Closed K) (s : State) (d : Nat) (o : ClrOp) (n : ClrNode) (i : Nat) (hs : Ok K s) :
    Ok K (State.rootBlock s d o n i) := by
  unfold State.rootBlock
  repeat' first
    | with_reducible first | assumption | apply ok_ite | apply State.shardEnd_ok hK | apply State.putOp_ok hK
    | with_reducible first | apply State.record_ok hK | apply State.clrFail_ok hK | apply State.blockDeliver_ok hK
    | with_reducible first | apply State.dbrk_ok hK
    | (extract_lets +onlyGivenNames v; (fail_if_success (have : ∀ z, v z = v z := fun _ => rfl)); clear_value v)
    | split
    | with_reducible refine ok_snd (by assumption) ?_

theorem State.rootWrite_ok (hK : Closed K) (s : State) (d : Nat) (o : ClrOp) (n : ClrNode) (p : Nat) (k : Packet)
    (hs : Ok K s) :
    Ok K (State.rootWrite s d o n p k) := by
  unfold State.rootWrite
  repeat' first
    | with_reducible first | assumption | apply ok_ite | apply State.putOp_ok hK | apply State.clrFail_ok hK
    | with_reducible first | apply State.rootBlock_ok hK | apply State.clrWrite_ok hK
    | (extract_lets +onlyGivenNames v; (fail_if_success (have : ∀ z, v z = v z := fun _ => rfl)); clear_value v)
    | split
    | with_reducible refine ok_snd (by assumption) ?_

theorem State.nodeRound_ok (hK : Closed K) (s : State) (d : Nat) (o : ClrOp) (n : ClrNode) (e : Nat) (k : Packet)
    (hs : Ok K s) :
    Ok K (State.nodeRound s d o n e k) := by
  unfold State.nodeRound
  repeat' first
    | with_reducible first | assumption | apply ok_ite | apply State.route_ok hK | apply State.rootWrite_ok hK
    | with_reducible first | apply State.advanceEntry_ok hK | apply State.putOp_ok hK | apply State.arm_ok hK
    | with_reducible first | apply State.dcnt_ok hK | apply State.sendUp_ok hK | apply State.dbrk_ok hK
    | split
    | with_reducible refine ok_snd (by assumption) ?_

theorem State.staleRound_ok (hK : Closed K) (s : State) (d : Nat) (o : ClrOp) (n : ClrNode) (e : Nat) (hs : Ok K s) :
    Ok K (State.staleRound s d o n e) := by
  unfold State.staleRound
  repeat' first
    | with_reducible first | assumption | apply State.advanceEntry_ok hK | apply State.putOp_ok hK
    | with_reducible first | apply State.arm_ok hK
    | (extract_lets +onlyGivenNames v; (fail_if_success (have : ∀ z, v z = v z := fun _ => rfl)); clear_value v)
    | split
    | with_reducible refine ok_snd (by assumption) ?_

theorem State.takeRound_ok (hK : Closed K) (s : State) (d : Nat) (k : Packet) (hs : Ok K s) :
    Ok K (State.takeRound s d k) := by
  unfold State.takeRound
  repeat' first
    | with_reducible first | assumption | apply ok_ite | apply State.nodeRound_ok hK | apply State.staleRound_ok hK
    | with_reducible first | apply State.reduceSettle_ok hK
    | split

theorem execNodeRound_ok (hK : Closed K) (d : Die) (k : Packet) (s : State) (hs : Ok K s) :
    OkOut K (execNodeRound d k s) := by
  unfold execNodeRound
  repeat' first
    | with_reducible first | assumption | apply okOut_ite | apply ok_next | apply State.setClr_ok hK
    | with_reducible first | apply State.takeRound_ok hK

theorem State.padOpen_ok (hK : Closed K) (s : State) (d : Nat) (o : ClrOp) (n : ClrNode) (late : List Nat)
    (ps0 : List Nat) (hs : Ok K s) :
    Ok K (State.padOpen s d o n late ps0) := by
  fun_induction State.padOpen s d o n late ps0
  all_goals
    repeat' first
      | with_reducible first | assumption | apply ok_ite | apply State.pads_ok hK | apply_assumption

theorem State.declareLate_ok (hK : Closed K) (s : State) (d : Nat) (o : ClrOp) (n : ClrNode) (hs : Ok K s) :
    Ok K (State.declareLate s d o n) := by
  unfold State.declareLate
  repeat' first
    | with_reducible first | assumption | apply ok_ite | apply State.putOp_ok hK | apply State.padOpen_ok hK
    | with_reducible first | apply State.clrOnce_ok hK

theorem execClrDeadline_ok (hK : Closed K) (d : Die) (i : Fin 4) (r : Nat) (s : State) (hs : Ok K s) :
    OkOut K (execClrDeadline d i r s) := by
  unfold execClrDeadline
  repeat' first
    | with_reducible first | assumption | apply okOut_ite | apply ok_next | apply State.declareLate_ok hK
    | split

theorem execClrStallLate_ok (hK : Closed K) (d : Die) (i : Fin 4) (r : Nat) (s : State) (hs : Ok K s) :
    OkOut K (execClrStallLate d i r s) := by
  unfold execClrStallLate
  repeat' first
    | with_reducible first | assumption | apply okOut_ite | apply ok_next | apply State.declareLate_ok hK
    | split

theorem execCreditAbandon_ok (hK : Closed K) (d : Die) (i : Fin 4) (r : Nat) (s : State) (hs : Ok K s) :
    OkOut K (execCreditAbandon d i r s) := by
  unfold execCreditAbandon
  repeat' first
    | with_reducible first | assumption | apply okOut_ite | apply ok_next | apply State.reduceSettle_ok hK
    | with_reducible first | apply State.putOp_ok hK | apply State.dbrk_ok hK
    | (extract_lets +onlyGivenNames v; (fail_if_success (have : ∀ z, v z = v z := fun _ => rfl)); clear_value v)
    | split

theorem State.liveExp_ok (hK : Closed K) (s : State) (d : Nat) (x : Desc) (vs : List XV) (hs : Ok K s) :
    Ok K (State.liveExp s d x vs).2 := by
  unfold State.liveExp
  repeat' first
    | with_reducible first | assumption | apply ok_ite_snd | apply State.draw_ok hK
    | split

theorem State.slotBytes_ok (hK : Closed K) (s : State) (d : Nat) (x : Desc) (count : Nat) (b : List Byte)
    (hs : Ok K s) :
    Ok K (State.slotBytes s d x count b).2 := by
  unfold State.slotBytes
  repeat' first
    | with_reducible first | assumption | apply ok_ite_snd | apply State.liveExp_ok hK | apply State.dbrk_ok hK

theorem State.clrSend_ok (hK : Closed K) (s : State) (d : Nat) (num : Nat) (r : Nat) (dst : Nat) (a : Nat)
    (ps0 : List (List Byte)) (hs : Ok K s) :
    Ok K (State.clrSend s d num r dst a ps0) := by
  fun_induction State.clrSend s d num r dst a ps0
  all_goals
    repeat' first
      | with_reducible first | assumption | apply State.sendPkt_ok hK | apply_assumption

theorem State.slotSend_ok (hK : Closed K) (s : State) (d : Nat) (o : ClrOp) (z : ClrSlot) (hs : Ok K s) :
    Ok K (State.slotSend s d o z) := by
  unfold State.slotSend
  repeat' first
    | with_reducible first | assumption | apply State.putOp_ok hK | apply State.slotBytes_ok hK
    | with_reducible first | apply State.clrFail_ok hK | apply State.clrSend_ok hK | apply State.dcnt_ok hK
    | with_reducible first | apply State.contrib_ok hK
    | (extract_lets +onlyGivenNames v; (fail_if_success (have : ∀ z, v z = v z := fun _ => rfl)); clear_value v)
    | split
    | with_reducible refine ok_snd (by assumption) ?_

theorem execDirectSlotSend_ok (hK : Closed K) (d : Die) (i : Fin 4) (r : Nat) (s : State) (hs : Ok K s) :
    OkOut K (execDirectSlotSend d i r s) := by
  unfold execDirectSlotSend
  repeat' first
    | with_reducible first | assumption | apply okOut_ite | apply ok_next | apply State.slotSend_ok hK
    | split

theorem execSlotHeaderWrite_ok (hK : Closed K) (d : Die) (i : Fin 4) (r : Nat) (s : State) (hs : Ok K s) :
    OkOut K (execSlotHeaderWrite d i r s) := by
  unfold execSlotHeaderWrite
  repeat' first
    | with_reducible first | assumption | apply okOut_ite | apply ok_next | apply State.putOp_ok hK
    | with_reducible first | apply State.clrSend_ok hK
    | (extract_lets +onlyGivenNames v; (fail_if_success (have : ∀ z, v z = v z := fun _ => rfl)); clear_value v)
    | split

theorem State.slotHeads_ok (hK : Closed K) (s : State) (d : Nat) (x : Desc) (z : ClrSlot) (ps0 : List Nat)
    (hs : Ok K s) :
    Ok K (State.slotHeads s d x z ps0).2 := by
  fun_induction State.slotHeads s d x z ps0
  all_goals
    repeat' first
      | with_reducible first | assumption | apply State.clrRead_ok hK
      | split
      | with_reducible first | refine ok_snd (by assumption) ?_ | apply_assumption

theorem State.sumBlock_ok (hK : Closed K) (s : State) (d : Nat) (x : Desc) (z : ClrSlot) (i : Nat) (acc : List Nat)
    (count : Nat) (ps0 : List (Nat × Option Bool)) (hs : Ok K s) :
    Ok K (State.sumBlock s d x z i acc count ps0).2 := by
  fun_induction State.sumBlock s d x z i acc count ps0
  all_goals
    repeat' first
      | with_reducible first | assumption | apply State.clrRead_ok hK | apply State.dcnt_ok hK
      | with_reducible first | apply State.contrib_ok hK | refine ok_snd (by assumption) ?_ | apply_assumption

theorem State.sumShard_ok (hK : Closed K) (s : State) (d : Nat) (o : ClrOp) (z : ClrSlot)
    (heads : List (Nat × Option Bool)) (i : Nat) (ps0 : Nat) (hs : Ok K s) :
    Ok K (State.sumShard s d o z heads i ps0).2 := by
  fun_induction State.sumShard s d o z heads i ps0
  all_goals
    repeat' first
      | with_reducible first | assumption | apply State.blockDeliver_ok hK | apply State.sumBlock_ok hK
      | with_reducible first | apply State.clrWrite_ok hK | refine ok_snd (by assumption) ?_ | apply_assumption

theorem State.targetCheck_ok (hK : Closed K) (s : State) (d : Nat) (o : ClrOp) (z : ClrSlot) (hs : Ok K s) :
    Ok K (State.targetCheck s d o z) := by
  unfold State.targetCheck
  repeat' first
    | with_reducible first | assumption | apply ok_ite | apply State.shardEnd_ok hK | apply State.reduceSettle_ok hK
    | with_reducible first | apply State.putOp_ok hK | apply State.sumShard_ok hK | apply State.clrFail_ok hK
    | with_reducible first | apply State.slotHeads_ok hK
    | (extract_lets +onlyGivenNames v; (fail_if_success (have : ∀ z, v z = v z := fun _ => rfl)); clear_value v)
    | split
    | with_reducible refine ok_snd (by assumption) ?_

theorem execArrivalCheck_ok (hK : Closed K) (d : Die) (i : Fin 4) (r : Nat) (s : State) (hs : Ok K s) :
    OkOut K (execArrivalCheck d i r s) := by
  unfold execArrivalCheck
  repeat' first
    | with_reducible first | assumption | apply okOut_ite | apply ok_next | apply State.targetCheck_ok hK
    | split

theorem State.clrList_ok (hK : Closed K) (s : State) (d : Nat) (a : Nat) (n : Nat) (hs : Ok K s) :
    Ok K (State.clrList s d a n).2 := by
  unfold State.clrList
  repeat' first
    | with_reducible first | assumption | apply State.clrRead_ok hK
    | split
    | with_reducible refine ok_snd (by assumption) ?_

theorem State.gatherTo_ok (hK : Closed K) (s : State) (d : Nat) (num : Nat) (x : Desc) (i : Nat) (pair : List Byte)
    (ps0 : Nat) (ps1 : List (List Byte)) (hs : Ok K s) :
    Ok K (State.gatherTo s d num x i pair ps0 ps1) := by
  fun_induction State.gatherTo s d num x i pair ps0 ps1
  all_goals
    repeat' first
      | with_reducible first | assumption | apply State.clrSend_ok hK | apply_assumption

theorem State.gatherRun_ok (hK : Closed K) (s : State) (d : Nat) (o : ClrOp) (dests : List (List Byte)) (ps0 : Nat)
    (hs : Ok K s) :
    Ok K (State.gatherRun s d o dests ps0) := by
  fun_induction State.gatherRun s d o dests ps0
  all_goals
    repeat' first
      | with_reducible first | assumption | apply State.clrRead_ok hK | apply State.putOp_ok hK
      | with_reducible first | apply State.clrFail_ok hK | apply State.gatherTo_ok hK | refine ok_snd (by assumption) ?_
      | with_reducible first | apply_assumption

theorem State.placeRows_ok (hK : Closed K) (s : State) (d : Nat) (wset : Nat) (ps0 : List (List Byte)) (hs : Ok K s) :
    Ok K (State.placeRows s d wset ps0).2 := by
  fun_induction State.placeRows s d wset ps0
  all_goals
    repeat' first
      | with_reducible first | assumption | apply State.clrWrite_ok hK | refine ok_snd (by assumption) ?_
      | with_reducible first | apply_assumption

theorem State.placeBlock_ok (hK : Closed K) (s : State) (d : Nat) (x : Desc) (i : Nat) (e : List Byte) (hs : Ok K s) :
    Ok K (State.placeBlock s d x i e).2 := by
  unfold State.placeBlock
  repeat' first
    | with_reducible first | assumption | apply ok_ite | apply ok_ite_snd | apply State.clrRead_ok hK
    | with_reducible first | apply State.placeRows_ok hK | apply State.clrWrite_ok hK | apply State.dbrk_ok hK
    | (extract_lets +onlyGivenNames v; (fail_if_success (have : ∀ z, v z = v z := fun _ => rfl)); clear_value v)
    | split
    | with_reducible refine ok_snd (by assumption) ?_

theorem State.placeRun_ok (hK : Closed K) (s : State) (d : Nat) (o : ClrOp) (l : List (List Byte)) (ps0 : Nat)
    (hs : Ok K s) :
    Ok K (State.placeRun s d o l ps0) := by
  fun_induction State.placeRun s d o l ps0
  all_goals
    repeat' first
      | with_reducible first | assumption | apply State.doneAdd_ok hK | apply State.placeBlock_ok hK
      | with_reducible first | apply State.putOp_ok hK | apply State.clrFail_ok hK | apply State.clrLeave_ok hK
      | with_reducible first | refine ok_snd (by assumption) ?_ | apply_assumption

theorem State.moveRun_ok (hK : Closed K) (s : State) (d : Nat) (o : ClrOp) (l : List (List Byte)) (ps0 : Nat)
    (hs : Ok K s) :
    Ok K (State.moveRun s d o l ps0) := by
  fun_induction State.moveRun s d o l ps0
  all_goals
    repeat' first
      | with_reducible first | assumption | apply State.clrRead_ok hK | apply State.putOp_ok hK
      | with_reducible first | apply State.clrFail_ok hK | apply State.clrSend_ok hK | refine ok_snd (by assumption) ?_
      | with_reducible first | apply_assumption

theorem State.moveAdds_ok (hK : Closed K) (s : State) (d : Nat) (o : ClrOp) (ps0 : List Nat) (hs : Ok K s) :
    Ok K (State.moveAdds s d o ps0) := by
  fun_induction State.moveAdds s d o ps0
  all_goals
    repeat' first
      | with_reducible first | assumption | apply State.putOp_ok hK | apply State.addTally_ok hK | apply_assumption

theorem State.finalRun_ok (hK : Closed K) (s : State) (d : Nat) (o : ClrOp) (ps0 : Nat) (hs : Ok K s) :
    Ok K (State.finalRun s d o ps0) := by
  fun_induction State.finalRun s d o ps0
  all_goals
    repeat' first
      | with_reducible first | assumption | apply State.doneAdd_ok hK | apply State.tallyZero_ok hK
      | with_reducible first | apply State.clrRead_ok hK | apply State.putOp_ok hK | apply State.clrFail_ok hK
      | with_reducible first | apply State.clrLeave_ok hK | apply State.clrWrite_ok hK
      | with_reducible first | refine ok_snd (by assumption) ?_ | apply_assumption

theorem State.clrRun_ok (hK : Closed K) (s : State) (d : Nat) (o : ClrOp) (hs : Ok K s) :
    Ok K (State.clrRun s d o) := by
  unfold State.clrRun
  repeat' first
    | with_reducible first | assumption | apply ok_ite | apply State.clrList_ok hK | apply State.moveRun_ok hK
    | with_reducible first | apply State.moveAdds_ok hK | apply State.finalRun_ok hK | apply State.placeRun_ok hK
    | with_reducible first | apply State.gatherRun_ok hK | apply State.clrFail_ok hK
    | (extract_lets +onlyGivenNames v; (fail_if_success (have : ∀ z, v z = v z := fun _ => rfl)); clear_value v)
    | split
    | with_reducible refine ok_snd (by assumption) ?_

theorem State.listBegin_ok (hK : Closed K) (s : State) (d : Nat) (q : QDesc) (n : Nat) (bad : List Byte → Bool)
    (hs : Ok K s) :
    Ok K (State.listBegin s d q n bad) := by
  unfold State.listBegin
  repeat' first
    | with_reducible first | assumption | apply ok_ite | apply State.clrRun_ok hK | apply State.clrEnter_ok hK
    | with_reducible first | apply State.clrList_ok hK | apply State.clrFail_ok hK | apply State.clrRefuse_ok hK
    | split
    | with_reducible refine ok_snd (by assumption) ?_

theorem State.clrStart_ok (hK : Closed K) (s : State) (d : Nat) (q : QDesc) (hs : Ok K s) :
    Ok K (State.clrStart s d q) := by
  unfold State.clrStart
  repeat' first
    | with_reducible first | assumption | apply State.clrEnter_ok hK | apply State.listBegin_ok hK
    | with_reducible first | apply State.reduceBegin_ok hK
    | split

theorem State.clrBegin_ok (hK : Closed K) (s : State) (d : Nat) (kind : Nat) (hs : Ok K s) :
    Ok K (State.clrBegin s d kind) := by
  unfold State.clrBegin
  repeat' first
    | with_reducible first | assumption | apply State.clrStart_ok hK | apply State.clrHead_ok hK
    | split
    | with_reducible refine ok_snd (by assumption) ?_

theorem execReduce_ok (hK : Closed K) (d : Die) (s : State) (hs : Ok K s) :
    OkOut K (execReduce d s) := by
  unfold execReduce
  repeat' first
    | with_reducible first | assumption | apply ok_next | apply State.clrBegin_ok hK

theorem execGather_ok (hK : Closed K) (d : Die) (s : State) (hs : Ok K s) :
    OkOut K (execGather d s) := by
  unfold execGather
  repeat' first
    | with_reducible first | assumption | apply ok_next | apply State.clrBegin_ok hK

theorem execPlace_ok (hK : Closed K) (d : Die) (s : State) (hs : Ok K s) :
    OkOut K (execPlace d s) := by
  unfold execPlace
  repeat' first
    | with_reducible first | assumption | apply ok_next | apply State.clrBegin_ok hK

theorem execPermute_ok (hK : Closed K) (d : Die) (s : State) (hs : Ok K s) :
    OkOut K (execPermute d s) := by
  unfold execPermute
  repeat' first
    | with_reducible first | assumption | apply ok_next | apply State.clrBegin_ok hK

theorem execGatherArrivalAdd_ok (hK : Closed K) (d : Die) (i : Fin 4) (r : Nat) (s : State) (hs : Ok K s) :
    OkOut K (execGatherArrivalAdd d i r s) := by
  unfold execGatherArrivalAdd
  repeat' first
    | with_reducible first | assumption | apply okOut_ite | apply ok_next | apply State.doneAdd_ok hK
    | with_reducible first | apply State.clrRead_ok hK | apply State.putOp_ok hK | apply State.clrFail_ok hK
    | with_reducible first | apply State.clrLeave_ok hK | apply State.addTally_ok hK
    | (extract_lets +onlyGivenNames v; (fail_if_success (have : ∀ z, v z = v z := fun _ => rfl)); clear_value v)
    | split
    | with_reducible refine ok_snd (by assumption) ?_

theorem State.forceOlder_ok (hK : Closed K) (s : State) (d : Nat) (hs : Ok K s) :
    Ok K (State.forceOlder s d) := by
  unfold State.forceOlder
  repeat' first
    | with_reducible first | assumption | apply State.setClr_ok hK

theorem State.permuteMove_ok (hK : Closed K) (s : State) (d : Nat) (o : ClrOp) (hs : Ok K s) :
    Ok K (State.permuteMove s d o) := by
  unfold State.permuteMove
  repeat' first
    | with_reducible first | assumption | apply State.clrRun_ok hK | apply State.p_ok hK

theorem execPermuteFenceEnd_ok (hK : Closed K) (d : Die) (i : Fin 4) (s : State) (hs : Ok K s) :
    OkOut K (execPermuteFenceEnd d i s) := by
  unfold execPermuteFenceEnd
  repeat' first
    | with_reducible first | assumption | apply okOut_ite | apply ok_next | apply ok_ite | apply State.putOp_ok hK
    | with_reducible first | apply State.raise_ok hK | apply State.forceOlder_ok hK | apply State.permuteMove_ok hK
    | (extract_lets +onlyGivenNames v; have hv : Ok K v := ?_; clear_value v; pick_goal 2; subst v)
    | split

theorem execPermuteArriveEnd_ok (hK : Closed K) (d : Die) (i : Fin 4) (s : State) (hs : Ok K s) :
    OkOut K (execPermuteArriveEnd d i s) := by
  unfold execPermuteArriveEnd
  repeat' first
    | with_reducible first | assumption | apply okOut_ite | apply ok_next | apply State.clrRun_ok hK
    | with_reducible first | apply State.raise_ok hK | apply State.clrLeave_ok hK
    | split

theorem State.clrAck_ok (hK : Closed K) (s : State) (d : Nat) (num : Nat) (r : Nat) (n : Nat) (k : Packet)
    (status : Nat) (cause : Nat) (hs : Ok K s) :
    Ok K (State.clrAck s d num r n k status cause) := by
  unfold State.clrAck
  repeat' first
    | with_reducible first | assumption | apply ok_ite | apply State.moveAdds_ok hK | apply State.reduceSettle_ok hK
    | with_reducible first | apply State.putOp_ok hK | apply State.clrFail_ok hK | apply State.clrLeave_ok hK
    | with_reducible first | apply State.addTally_ok hK
    | split

theorem State.clrAgain_ok (hK : Closed K) (s : State) (d : Nat) (f : ClrFail) (n : Nat) (hs : Ok K s) :
    Ok K (State.clrAgain s d f n) := by
  unfold State.clrAgain
  repeat' first
    | with_reducible first | assumption | apply State.clrRun_ok hK | apply State.rootWrite_ok hK
    | with_reducible first | apply State.clrStart_ok hK | apply State.reduceSettle_ok hK | apply State.position_ok hK
    | with_reducible first | apply State.slotSend_ok hK | apply State.targetCheck_ok hK | apply State.rootBlock_ok hK
    | with_reducible first | apply State.sendPkt_ok hK
    | split

theorem State.takeHeld_ok (hK : Closed K) (s : State) (d : Nat) (ps0 : Nat) (hs : Ok K s) :
    Ok K (State.takeHeld s d ps0) := by
  fun_induction State.takeHeld s d ps0
  all_goals
    repeat' first
      | with_reducible first | assumption | apply State.setClr_ok hK | apply State.takeRound_ok hK | apply_assumption

theorem State.clrRedo_ok (hK : Closed K) (s : State) (d : Nat) (f : ClrFail) (n : Nat) (hs : Ok K s) :
    Ok K (State.clrRedo s d f n) := by
  unfold State.clrRedo
  repeat' first
    | with_reducible first | assumption | apply ok_ite | apply State.setClr_ok hK | apply State.takeHeld_ok hK
    | with_reducible first | apply State.clrHalt_ok hK | apply State.clrAgain_ok hK
    | (extract_lets +onlyGivenNames v; have hv : Ok K v := ?_; clear_value v; pick_goal 2; subst v)
    | (extract_lets +onlyGivenNames v; (fail_if_success (have : ∀ z, v z = v z := fun _ => rfl)); clear_value v)
    | split

theorem execClrRetry_ok (hK : Closed K) (d : Die) (s : State) (hs : Ok K s) :
    OkOut K (execClrRetry d s) := by
  unfold execClrRetry
  repeat' first
    | with_reducible first | assumption | apply okOut_ite | apply ok_next | apply State.clrRedo_ok hK
    | split

theorem State.clrResume_ok (hK : Closed K) (s : State) (d : Nat) (hs : Ok K s) :
    Ok K (State.clrResume s d) := by
  unfold State.clrResume
  repeat' first
    | with_reducible first | assumption | apply State.clrRedo_ok hK | apply State.p_ok hK
    | split

theorem execClrResume_ok (hK : Closed K) (r : Requester) (d : Die) (s : State) (hs : Ok K s) :
    OkOut K (execClrResume r d s) := by
  unfold execClrResume
  repeat' first
    | with_reducible assumption
    | intro _
    | with_reducible first | apply ok_next | apply State.regWr_ok hK | apply State.clrResume_ok hK

theorem State.clrAbort_ok (hK : Closed K) (s : State) (d : Nat) (hs : Ok K s) :
    Ok K (State.clrAbort s d) := by
  unfold State.clrAbort
  repeat' first
    | with_reducible first | assumption | apply ok_ite | apply State.setClr_ok hK | apply State.engPop_ok hK

theorem execClrAbort_ok (hK : Closed K) (r : Requester) (d : Die) (s : State) (hs : Ok K s) :
    OkOut K (execClrAbort r d s) := by
  unfold execClrAbort
  repeat' first
    | with_reducible assumption
    | intro _
    | with_reducible first | apply ok_next | apply State.regWr_ok hK | apply State.clrAbort_ok hK

end Sys2Proof.Machine
end

