-- ==== Sys2Proof/Laws/OkFlash.lean ====
section
/-! SUPPORT. Every operation of Machine/Flash.lean keeps a predicate closed under the primitive updates. -/

set_option linter.unusedTactic false
set_option linter.unreachableTactic false

namespace Sys2Proof.Machine

variable {K : State → Prop}

theorem State.setFlash_ok (hK : Closed K) (s : State) (f : FlashS) (hs : Ok K s) :
    Ok K (State.setFlash s f) := by
  unfold State.setFlash
  repeat' first
    | with_reducible first | assumption | apply State.setM_ok hK

theorem State.flashWrite_ok (hK : Closed K) (s : State) (v : Nat) (off : Nat) (bs : List Byte) (hs : Ok K s) :
    Ok K (State.flashWrite s v off bs) := by
  unfold State.flashWrite
  repeat' first
    | with_reducible first | assumption | apply State.setFlash_ok hK

theorem State.flashErase_ok (hK : Closed K) (s : State) (v : Nat) (off : Nat) (n : Nat) (hs : Ok K s) :
    Ok K (State.flashErase s v off n) := by
  unfold State.flashErase
  repeat' first
    | with_reducible first | assumption | apply State.setFlash_ok hK

theorem State.flashBoth_ok (hK : Closed K) (s : State) (off : Nat) (bs : List Byte) (hs : Ok K s) :
    Ok K (State.flashBoth s off bs) := by
  unfold State.flashBoth
  repeat' first
    | with_reducible first | assumption | apply State.flashWrite_ok hK

theorem State.setSec_ok (hK : Closed K) (s : State) (x : SecS) (hs : Ok K s) :
    Ok K (State.setSec s x) := by
  unfold State.setSec
  repeat' first
    | with_reducible first | assumption | apply State.setM_ok hK

theorem State.secRaise_ok (hK : Closed K) (s : State) (bit : Nat) (hs : Ok K s) :
    Ok K (State.secRaise s bit) := by
  unfold State.secRaise
  repeat' first
    | with_reducible first | assumption | apply State.raise_ok hK

theorem State.dirCompact_ok (hK : Closed K) (s : State) (hs : Ok K s) :
    Ok K (State.dirCompact s) := by
  unfold State.dirCompact
  extract_lets k
  clear_value k
  cases k
  · exact hs
  · exact State.flashWrite_ok hK _ _ _ _ (State.flashErase_ok hK _ _ _ _
      (State.flashWrite_ok hK _ _ _ _ (State.flashErase_ok hK _ _ _ _ hs)))

theorem State.dirWrite_ok (hK : Closed K) (s : State) (slot : Nat) (mode : Nat) (version : Nat) (hs : Ok K s) :
    Ok K (State.dirWrite s slot mode version) := by
  unfold State.dirWrite
  repeat' first
    | with_reducible first | assumption | apply ok_ite | apply State.flashWrite_ok hK | apply State.dirCompact_ok hK
    | (extract_lets +onlyGivenNames v; have hv : Ok K v := ?_; clear_value v; pick_goal 2; subst v)
    | (extract_lets +onlyGivenNames v; (fail_if_success (have : ∀ z, v z = v z := fun _ => rfl)); clear_value v)
    | (extract_lets +onlyGivenNames v; subst v; dsimp -zeta only)
    | split

theorem State.floorWrite_ok (hK : Closed K) (s : State) (v : Nat) (hs : Ok K s) :
    Ok K (State.floorWrite s v) := by
  unfold State.floorWrite
  repeat' first
    | with_reducible first | assumption | apply State.flashErase_ok hK | apply State.flashWrite_ok hK
    | with_reducible first | apply State.p_ok hK
    | split
    | dsimp -zeta only

theorem State.cacheShow_ok (hK : Closed K) (s : State) (hs : Ok K s) :
    Ok K (State.cacheShow s) := by
  unfold State.cacheShow
  repeat' first
    | with_reducible first | assumption | apply State.p_ok hK

theorem State.keyShow_ok (hK : Closed K) (s : State) (hs : Ok K s) :
    Ok K (State.keyShow s) := by
  unfold State.keyShow
  repeat' first
    | with_reducible first | assumption | apply ok_ite | apply State.secRaise_ok hK | apply State.setSec_ok hK
    | with_reducible first | apply State.p_ok hK

theorem State.keyReserve_ok (hK : Closed K) (s : State) (hs : Ok K s) :
    Ok K (State.keyReserve s).2 := by
  unfold State.keyReserve
  repeat' first
    | with_reducible first | assumption | apply ok_ite_snd | apply State.setSec_ok hK | apply State.flashBoth_ok hK

theorem State.cacheRebuild_ok (hK : Closed K) (s : State) (hs : Ok K s) :
    Ok K (State.cacheRebuild s) := by
  unfold State.cacheRebuild
  repeat' first
    | with_reducible first | assumption | apply ok_ite | apply State.flashErase_ok hK | apply State.flashBoth_ok hK
    | with_reducible first | apply State.p_ok hK

theorem State.sign_ok (hK : Closed K) (s : State) (msg : List Byte) (hs : Ok K s) :
    Ok K (State.sign s msg).2 := by
  unfold State.sign
  repeat' first
    | with_reducible first | assumption | apply ok_ite_snd | apply State.keyReserve_ok hK | apply State.secRaise_ok hK
    | with_reducible first | apply State.cacheRebuild_ok hK | apply State.setSec_ok hK | apply State.keyShow_ok hK
    | (extract_lets +onlyGivenNames v; have hv : Ok K v := ?_; clear_value v; pick_goal 2; subst v)
    | (extract_lets +onlyGivenNames v; (fail_if_success (have : ∀ z, v z = v z := fun _ => rfl)); clear_value v)
    | split
    | with_reducible refine ok_snd (by assumption) ?_

end Sys2Proof.Machine
end

