-- ==== Sys2Proof/Laws/OkToll.lean ====
section
/-! SUPPORT. Every operation of Machine/Toll.lean keeps a predicate closed under the primitive updates. -/

set_option linter.unusedTactic false
set_option linter.unreachableTactic false

namespace Sys2Proof.Machine

variable {K : State → Prop}

theorem State.setPitch_ok (hK : Closed K) (s : State) (x : PitchS) (hs : Ok K s) :
    Ok K (State.setPitch s x) := by
  unfold State.setPitch
  repeat' first
    | with_reducible first | assumption | apply State.setM_ok hK

theorem State.ethTx_ok (hK : Closed K) (s : State) (e : Nat) (n : Nat) (hs : Ok K s) :
    Ok K (State.ethTx s e n) := by
  unfold State.ethTx
  repeat' first
    | with_reducible first | assumption | apply State.inc64_ok hK

theorem State.pitchSend_ok (hK : Closed K) (s : State) (e : Nat) (dst : List Byte) (typ : Nat) (pitch : Nat)
    (body : List Byte) (hs : Ok K s) :
    Ok K (State.pitchSend s e dst typ pitch body).2 := by
  unfold State.pitchSend
  repeat' first
    | with_reducible first | assumption | apply State.ethTx_ok hK | apply State.setPitch_ok hK
    | with_reducible first | apply State.emit_ok hK

theorem State.tollWrite_ok (hK : Closed K) (s : State) (hs : Ok K s) :
    Ok K (State.tollWrite s) := by
  unfold State.tollWrite
  repeat' first
    | with_reducible first | assumption | apply State.setPitch_ok hK | apply State.setFlash_ok hK

theorem State.pitchTo_ok (hK : Closed K) (s : State) (v : Nat) (cause : Nat) (hs : Ok K s) :
    Ok K (State.pitchTo s v cause) := by
  unfold State.pitchTo
  repeat' first
    | with_reducible first | assumption | apply State.pitchSend_ok hK | apply State.tollWrite_ok hK
    | with_reducible first | apply State.raise_ok hK | apply State.p_ok hK

theorem State.tollSign_ok (hK : Closed K) (s : State) (r : OpenRec) (interrupted : Bool) (close : Nat) (hs : Ok K s) :
    Ok K (State.tollSign s r interrupted close).2 := by
  unfold State.tollSign
  repeat' first
    | with_reducible first | assumption | apply State.sign_ok hK | apply State.setFlash_ok hK
    | (extract_lets +onlyGivenNames v; (fail_if_success (have : ∀ z, v z = v z := fun _ => rfl)); clear_value v)
    | split
    | with_reducible refine ok_snd (by assumption) ?_

theorem State.tollInterrupted_ok (hK : Closed K) (s : State) (hs : Ok K s) :
    Ok K (State.tollInterrupted s) := by
  unfold State.tollInterrupted
  repeat' first
    | with_reducible first | assumption | apply State.tollSign_ok hK
    | split

theorem State.pitchCut_ok (hK : Closed K) (s : State) (hs : Ok K s) :
    Ok K (State.pitchCut s) := by
  unfold State.pitchCut
  repeat' first
    | with_reducible first | assumption | apply ok_ite | apply State.tollWrite_ok hK
    | with_reducible first | apply State.tollInterrupted_ok hK | apply State.wr_ok hK

theorem State.setEth_ok (hK : Closed K) (s : State) (e : Nat) (x : EthS) (hs : Ok K s) :
    Ok K (State.setEth s e x) := by
  unfold State.setEth
  repeat' first
    | with_reducible first | assumption | apply State.setM_ok hK

theorem State.ethRaise_ok (hK : Closed K) (s : State) (e : Nat) (bit : Nat) (hs : Ok K s) :
    Ok K (State.ethRaise s e bit) := by
  unfold State.ethRaise
  repeat' first
    | with_reducible first | assumption | apply State.raise_ok hK

theorem State.setQp_ok (hK : Closed K) (s : State) (e : Nat) (q : Nat) (x : QpS) (hs : Ok K s) :
    Ok K (State.setQp s e q x) := by
  unfold State.setQp
  repeat' first
    | with_reducible first | assumption | apply State.setEth_ok hK

theorem State.qpError_ok (hK : Closed K) (s : State) (e : Nat) (q : Nat) (hs : Ok K s) :
    Ok K (State.qpError s e q) := by
  unfold State.qpError
  repeat' first
    | with_reducible first | assumption | apply ok_ite | apply State.ethRaise_ok hK | apply State.setQp_ok hK
    | split

theorem State.ethDown_ok (hK : Closed K) (s : State) (e : Nat) (hs : Ok K s) :
    Ok K (State.ethDown s e) := by
  unfold State.ethDown
  repeat' first
    | with_reducible assumption
    | intro _
    | with_reducible first | apply ok_ite | apply State.qpError_ok hK | apply State.each_ok hK | apply State.p_ok hK

theorem State.ethDestroy_ok (hK : Closed K) (s : State) (hs : Ok K s) :
    Ok K (State.ethDestroy s) := by
  unfold State.ethDestroy
  repeat' first
    | with_reducible assumption
    | intro _
    | with_reducible first | apply State.setEth_ok hK | apply State.wr_ok hK | apply State.each_ok hK
    | with_reducible first | apply State.p_ok hK

theorem State.dieOff_ok (hK : Closed K) (s : State) (d : Nat) (hs : Ok K s) :
    Ok K (State.dieOff s d) := by
  unfold State.dieOff
  repeat' first
    | with_reducible first | assumption | apply State.dropFlaws_ok hK | apply State.dropMem_ok hK
    | with_reducible first | apply State.dropRegs_ok hK | apply State.forgetTiles_ok hK | apply State.setLoose_ok hK
    | with_reducible first | apply State.forgetPorts_ok hK | apply State.forgetDies_ok hK
    | with_reducible first | apply State.setWaiting_ok hK | apply State.dropValid_ok hK

theorem State.tileOff_ok (hK : Closed K) (s : State) (d : Nat) (t : Nat) (hs : Ok K s) :
    Ok K (State.tileOff s d t) := by
  unfold State.tileOff
  repeat' first
    | with_reducible first | assumption | apply State.invalidate_ok hK | apply State.dropRegs_ok hK
    | with_reducible first | apply State.setTile_ok hK

theorem State.setBoot_ok (hK : Closed K) (s : State) (x : BootS) (hs : Ok K s) :
    Ok K (State.setBoot s x) := by
  unfold State.setBoot
  repeat' first
    | with_reducible first | assumption | apply State.setM_ok hK

theorem State.setMod_ok (hK : Closed K) (s : State) (v : ModState) (hs : Ok K s) :
    Ok K (State.setMod s v) := by
  unfold State.setMod
  repeat' first
    | with_reducible first | assumption | apply State.setM_ok hK

theorem State.toStandby_ok (hK : Closed K) (s : State) (hs : Ok K s) :
    Ok K (State.toStandby s) := by
  unfold State.toStandby
  repeat' first
    | with_reducible assumption
    | intro _
    | with_reducible first | apply State.dieOff_ok hK | apply State.setM_ok hK | apply State.ethDown_ok hK
    | with_reducible first | apply State.each_ok hK | apply State.refUpdate_ok hK

theorem State.showState_ok (hK : Closed K) (s : State) (v : Nat) (hs : Ok K s) :
    Ok K (State.showState s v) := by
  unfold State.showState
  repeat' first
    | with_reducible first | assumption | apply State.p_ok hK

theorem State.setGen_ok (hK : Closed K) (s : State) (v : Nat) (hs : Ok K s) :
    Ok K (State.setGen s v) := by
  unfold State.setGen
  repeat' first
    | with_reducible first | assumption | apply State.p_ok hK

end Sys2Proof.Machine
end

