-- ==== Sys2Proof/Laws/OkPlan.lean ====
section
/-! SUPPORT. Every operation of Machine/Plan.lean keeps a predicate closed under the primitive updates. -/

set_option linter.unusedTactic false
set_option linter.unreachableTactic false

namespace Sys2Proof.Machine

variable {K : State → Prop}

theorem State.haltSeqs_ok (hK : Closed K) (s : State) (hs : Ok K s) :
    Ok K (State.haltSeqs s) := by
  unfold State.haltSeqs
  repeat' first
    | with_reducible assumption
    | intro _
    | with_reducible first | apply ok_ite | apply State.each_ok hK | apply State.seqHalt_ok hK

theorem State.tileUp_ok (hK : Closed K) (s : State) (d : Nat) (t : Nat) (hs : Ok K s) :
    Ok K (State.tileUp s d t) := by
  unfold State.tileUp
  repeat' first
    | with_reducible first | assumption | apply State.p_ok hK

theorem State.setEndPass_ok (hK : Closed K) (s : State) (d : Nat) (t : Nat) (v : Nat) (hs : Ok K s) :
    Ok K (State.setEndPass s d t v) := by
  unfold State.setEndPass
  repeat' first
    | with_reducible first | assumption | apply State.startupEdge_ok hK | apply State.p_ok hK

theorem State.startupTile_ok (hK : Closed K) (s : State) (d : Nat) (t : Nat) (hs : Ok K s) :
    Ok K (State.startupTile s d t) := by
  unfold State.startupTile
  repeat' first
    | with_reducible first | assumption | apply State.histClear_ok hK | apply State.setEndPass_ok hK

theorem State.startupAll_ok (hK : Closed K) (s : State) (hs : Ok K s) :
    Ok K (State.startupAll s) := by
  unfold State.startupAll
  repeat' first
    | with_reducible assumption
    | intro _
    | with_reducible first | apply ok_ite | apply State.each_ok hK | apply State.startupTile_ok hK

theorem State.loadTile_ok (hK : Closed K) (s : State) (gen : Nat) (x : PlanTile) (hs : Ok K s) :
    Ok K (State.loadTile s gen x) := by
  unfold State.loadTile
  repeat' first
    | with_reducible first | assumption | apply State.p_ok hK | apply State.setPass_ok hK

theorem State.loadPlan_ok (hK : Closed K) (s : State) (pl : PlanS) (hs : Ok K s) :
    Ok K (State.loadPlan s pl) := by
  unfold State.loadPlan
  repeat' first
    | with_reducible assumption
    | intro _
    | with_reducible first | apply State.setM_ok hK | apply State.loadTile_ok hK | apply State.haltSeqs_ok hK
    | with_reducible first | apply State.wr_ok hK | apply State.writeSpan_ok hK | apply State.each_ok hK
    | with_reducible first | apply State.startupAll_ok hK | apply State.p_ok hK | apply State.tileUp_ok hK

theorem State.restoreTallies_ok (hK : Closed K) (s : State) (pl : PlanS) (hs : Ok K s) :
    Ok K (State.restoreTallies s pl) := by
  unfold State.restoreTallies
  repeat' first
    | with_reducible assumption
    | intro _
    | with_reducible first | apply State.tallyQueue_ok hK | apply State.each_ok hK | apply State.tallyClear_ok hK

theorem State.startSeqs_ok (hK : Closed K) (s : State) (hs : Ok K s) :
    Ok K (State.startSeqs s) := by
  unfold State.startSeqs
  repeat' first
    | with_reducible assumption
    | intro _
    | with_reducible first | apply State.each_ok hK | apply State.seqStart_ok hK

theorem State.abortDie_ok (hK : Closed K) (s : State) (d : Nat) (hs : Ok K s) :
    Ok K (State.abortDie s d) := by
  unfold State.abortDie
  repeat' first
    | with_reducible assumption
    | intro _
    | with_reducible first | apply State.prtAbort_ok hK | apply State.chHold_ok hK | apply State.each_ok hK
    | with_reducible first | apply State.clrAbort_ok hK | apply State.chAbort_ok hK | apply ok_foldl

theorem State.setHolds_ok (hK : Closed K) (s : State) (v : Nat) (hs : Ok K s) :
    Ok K (State.setHolds s v) := by
  unfold State.setHolds
  repeat' first
    | with_reducible assumption
    | intro _
    | with_reducible first | apply State.p_ok hK | apply ok_foldl

theorem State.haltAll_ok (hK : Closed K) (s : State) (hs : Ok K s) :
    Ok K (State.haltAll s) := by
  unfold State.haltAll
  repeat' first
    | with_reducible first | assumption | apply State.setHolds_ok hK | apply State.haltSeqs_ok hK
    | with_reducible first | apply State.abortDie_ok hK

theorem State.portEnable_ok (hK : Closed K) (s : State) (q : Nat) (on : Bool) (hs : Ok K s) :
    Ok K (State.portEnable s q on) := by
  unfold State.portEnable
  repeat' first
    | with_reducible first | assumption | apply ok_ite | apply State.leaveUp_ok hK | apply State.trainStart_ok hK
    | with_reducible first | apply State.p_ok hK

theorem State.setRoute_ok (hK : Closed K) (s : State) (st : Nat) (f : Nat → Nat) (hs : Ok K s) :
    Ok K (State.setRoute s st f) := by
  unfold State.setRoute
  repeat' first
    | with_reducible assumption
    | intro _
    | with_reducible first | apply State.p_ok hK | apply ok_foldl

theorem State.drain_ok (hK : Closed K) (s : State) (cause : Nat) (skip : Bool) (hs : Ok K s) :
    Ok K (State.drain s cause skip) := by
  unfold State.drain
  repeat' first
    | with_reducible first | assumption | apply State.showState_ok hK | apply State.pitchTo_ok hK
    | with_reducible first | apply State.setMod_ok hK | apply State.setPitch_ok hK

theorem State.endRunning_ok (hK : Closed K) (s : State) (cause : Nat) (hs : Ok K s) :
    Ok K (State.endRunning s cause) := by
  unfold State.endRunning
  repeat' first
    | with_reducible first | assumption | apply State.drain_ok hK

theorem State.parityOff_ok (hK : Closed K) (s : State) (hs : Ok K s) :
    Ok K (State.parityOff s) := by
  unfold State.parityOff
  repeat' first
    | with_reducible assumption
    | intro _
    | with_reducible first | apply State.each_ok hK | apply State.p_ok hK

end Sys2Proof.Machine
end

