-- ==== Sys2Proof/Laws/OkStartup.lean ====
section
/-! SUPPORT. Every operation of Machine/Startup.lean keeps a predicate closed under the primitive updates. -/

set_option linter.unusedTactic false
set_option linter.unreachableTactic false

namespace Sys2Proof.Machine

variable {K : State → Prop}

theorem State.standbyExit_ok (hK : Closed K) (s : State) (hs : Ok K s) :
    Ok K (State.standbyExit s) := by
  unfold State.standbyExit
  repeat' first
    | with_reducible first | assumption | apply ok_ite | apply State.setBoot_ok hK

theorem State.flowLowEvent_ok (hK : Closed K) (s : State) (hs : Ok K s) :
    Ok K (State.flowLowEvent s) := by
  unfold State.flowLowEvent
  repeat' first
    | with_reducible first | assumption | apply State.raise_ok hK

theorem State.setRail_ok (hK : Closed K) (s : State) (r : Nat) (mv : Nat) (hs : Ok K s) :
    Ok K (State.setRail s r mv) := by
  unfold State.setRail
  repeat' first
    | with_reducible first | assumption | apply State.p_ok hK

theorem State.dieUp_ok (hK : Closed K) (s : State) (d : Nat) (hs : Ok K s) :
    Ok K (State.dieUp s d) := by
  unfold State.dieUp
  repeat' first
    | with_reducible first | assumption | apply State.setDie_ok hK | apply State.wr_ok hK

theorem execReadyRequest_ok (hK : Closed K) (offs : List Int) (s : State) (hs : Ok K s) :
    OkOut K (execReadyRequest offs s) := by
  unfold execReadyRequest
  repeat' first
    | with_reducible assumption
    | intro _
    | with_reducible first | apply okOut_ite | apply ok_next | apply State.setM_ok hK | apply State.flowLowEvent_ok hK
    | with_reducible first | apply State.dieUp_ok hK | apply State.setRail_ok hK | apply State.each_ok hK
    | with_reducible first | apply State.setBoot_ok hK

theorem State.setPhase_ok (hK : Closed K) (s : State) (n : Nat) (hs : Ok K s) :
    Ok K (State.setPhase s n) := by
  unfold State.setPhase
  repeat' first
    | with_reducible first | assumption | apply State.p_ok hK

theorem State.phaseSix_ok (hK : Closed K) (s : State) (hs : Ok K s) :
    Ok K (State.phaseSix s) := by
  unfold State.phaseSix
  repeat' first
    | with_reducible first | assumption | apply ok_ite | apply State.setPhase_ok hK

theorem State.readyEnter_ok (hK : Closed K) (s : State) (hs : Ok K s) :
    Ok K (State.readyEnter s) := by
  unfold State.readyEnter
  repeat' first
    | with_reducible first | assumption | apply ok_ite | apply State.showState_ok hK | apply State.setM_ok hK
    | with_reducible first | apply State.setPhase_ok hK

theorem State.zeroExt_ok (hK : Closed K) (s : State) (d : Nat) (hs : Ok K s) :
    Ok K (State.zeroExt s d) := by
  unfold State.zeroExt
  repeat' first
    | with_reducible first | assumption | apply State.dropFlaws_ok hK | apply State.dropMem_ok hK
    | with_reducible first | apply State.setLoose_ok hK

theorem execMemInitDone_ok (hK : Closed K) (d : Die) (s : State) (hs : Ok K s) :
    OkOut K (execMemInitDone d s) := by
  unfold execMemInitDone
  repeat' first
    | with_reducible first | assumption | apply okOut_ite | apply ok_next | apply ok_ite | apply State.setDie_ok hK
    | with_reducible first | apply State.zeroExt_ok hK | apply State.readyEnter_ok hK | apply State.setPhase_ok hK
    | with_reducible first | apply State.release_ok hK

theorem State.trainAll_ok (hK : Closed K) (s : State) (hs : Ok K s) :
    Ok K (State.trainAll s) := by
  unfold State.trainAll
  repeat' first
    | with_reducible assumption
    | intro _
    | with_reducible first | apply ok_ite | apply State.each_ok hK | apply State.trainStart_ok hK

theorem execWardenLoadDone_ok (hK : Closed K) (s : State) (hs : Ok K s) :
    OkOut K (execWardenLoadDone s) := by
  unfold execWardenLoadDone
  repeat' first
    | with_reducible first | assumption | apply okOut_ite | apply ok_next | apply State.trainAll_ok hK
    | with_reducible first | apply State.readyEnter_ok hK | apply State.setPhase_ok hK | apply State.furnWrite_ok hK
    | with_reducible first | apply State.setBoot_ok hK

theorem State.tilesOff_ok (hK : Closed K) (s : State) (d : Nat) (hs : Ok K s) :
    Ok K (State.tilesOff s d) := by
  unfold State.tilesOff
  repeat' first
    | with_reducible assumption
    | intro _
    | with_reducible first | apply ok_ite | apply State.wr_ok hK | apply State.each_ok hK | apply State.tileOff_ok hK

theorem State.pllsWarm_ok (hK : Closed K) (s : State) (d : Nat) (hs : Ok K s) :
    Ok K (State.pllsWarm s d) := by
  unfold State.pllsWarm
  repeat' first
    | with_reducible first | assumption | apply State.setDie_ok hK | apply State.p_ok hK

theorem execWarmReserveEnter_ok (hK : Closed K) (s : State) (hs : Ok K s) :
    OkOut K (execWarmReserveEnter s) := by
  unfold execWarmReserveEnter
  repeat' first
    | with_reducible assumption
    | intro _
    | with_reducible first | apply okOut_ite | apply ok_next | apply State.showState_ok hK | apply State.setRail_ok hK
    | with_reducible first | apply State.tilesOff_ok hK | apply State.ethDown_ok hK | apply State.each_ok hK
    | with_reducible first | apply State.pllsWarm_ok hK | apply State.setMod_ok hK | apply State.setBoot_ok hK

theorem State.warmExit_ok (hK : Closed K) (s : State) (hs : Ok K s) :
    Ok K (State.warmExit s) := by
  unfold State.warmExit
  repeat' first
    | with_reducible first | assumption | apply ok_ite | apply State.showState_ok hK | apply State.setRail_ok hK
    | with_reducible first | apply State.setDie_ok hK | apply State.setMod_ok hK

theorem State.allReset_ok (hK : Closed K) (s : State) (hs : Ok K s) : Ok K (State.allReset s) :=
  hK.allReset _ hs

theorem State.coldReset_ok (hK : Closed K) (s : State) (hs : Ok K s) :
    Ok K (State.coldReset s) := by
  unfold State.coldReset
  repeat' first
    | with_reducible assumption
    | intro _
    | with_reducible first | apply State.wr_ok hK | apply State.each_ok hK | apply State.allReset_ok hK
    | with_reducible first | apply State.p_ok hK

theorem State.bootChoice_ok (hK : Closed K) (s : State) (valid : Nat → Bool) (hs : Ok K s) :
    Ok K (State.bootChoice s valid).2 := by
  unfold State.bootChoice
  repeat' first
    | with_reducible first | assumption | apply ok_ite_snd | apply State.secRaise_ok hK | apply State.dirWrite_ok hK
    | (extract_lets +onlyGivenNames v; have hv : Ok K v := ?_; clear_value v; pick_goal 2; subst v)
    | (extract_lets +onlyGivenNames v; subst v; dsimp -zeta only)
    | split

theorem State.fuseEpoch_ok (hK : Closed K) (s : State) (n : Nat) (hs : Ok K s) :
    Ok K (State.fuseEpoch s n) := by
  unfold State.fuseEpoch
  repeat' first
    | with_reducible first | assumption | apply ok_ite | apply State.setSec_ok hK | apply State.p_ok hK

theorem State.raiseFloor_ok (hK : Closed K) (s : State) (v : Nat) (hs : Ok K s) :
    Ok K (State.raiseFloor s v) := by
  unfold State.raiseFloor
  repeat' first
    | with_reducible first | assumption | apply ok_ite | apply State.floorWrite_ok hK | apply State.fuseEpoch_ok hK

theorem State.recovery_ok (hK : Closed K) (s : State) (hs : Ok K s) :
    Ok K (State.recovery s) := by
  unfold State.recovery
  repeat' first
    | with_reducible first | assumption | apply State.secRaise_ok hK | apply State.setSec_ok hK

theorem State.showFuses_ok (hK : Closed K) (s : State) (hs : Ok K s) :
    Ok K (State.showFuses s) := by
  unfold State.showFuses
  repeat' first
    | with_reducible first | assumption | apply State.p_ok hK

theorem State.startStandby_ok (hK : Closed K) (s : State) (ansA : Bool) (ansB : Bool) (hs : Ok K s) :
    Ok K (State.startStandby s ansA ansB) := by
  unfold State.startStandby
  repeat' first
    | with_reducible first | assumption | apply State.setM_ok hK | apply State.standbyExit_ok hK
    | with_reducible first | apply State.tollInterrupted_ok hK | apply State.keyShow_ok hK
    | with_reducible first | apply State.setPhase_ok hK | apply State.furnRead_ok hK | apply State.cacheShow_ok hK

theorem execColdStart_ok (hK : Closed K) (ansA : Bool) (ansB : Bool) (s : State) (hs : Ok K s) :
    OkOut K (execColdStart ansA ansB s) := by
  unfold execColdStart
  repeat' first
    | with_reducible first | assumption | apply okOut_ite | apply ok_next | apply ok_ite | apply State.secRaise_ok hK
    | with_reducible first | apply State.startStandby_ok hK | apply State.showFuses_ok hK
    | with_reducible first | apply State.coldReset_ok hK | apply State.raiseFloor_ok hK | apply State.setPhase_ok hK
    | with_reducible first | apply State.recovery_ok hK | apply State.p_ok hK | apply State.bootChoice_ok hK
    | (extract_lets +onlyGivenNames v; have hv : Ok K v := ?_; clear_value v; pick_goal 2; subst v)
    | (extract_lets +onlyGivenNames v; subst v; dsimp -zeta only)
    | split
    | with_reducible refine ok_snd (by assumption) ?_

theorem State.closeForRestart_ok (hK : Closed K) (s : State) (hs : Ok K s) :
    Ok K (State.closeForRestart s) := by
  unfold State.closeForRestart
  repeat' first
    | with_reducible first | assumption | apply ok_ite | apply State.tollInterrupted_ok hK | apply State.wr_ok hK

theorem State.restartCold_ok (hK : Closed K) (s : State) (hs : Ok K s) :
    Ok K (State.restartCold s) := by
  unfold State.restartCold
  repeat' first
    | with_reducible first | assumption | apply State.coldReset_ok hK | apply State.closeForRestart_ok hK

theorem State.restartWarm_ok (hK : Closed K) (s : State) (hs : Ok K s) :
    Ok K (State.restartWarm s) := by
  unfold State.restartWarm
  repeat' first
    | with_reducible first | assumption | apply ok_ite | apply State.setM_ok hK | apply State.standbyExit_ok hK
    | with_reducible first | apply State.toStandby_ok hK | apply State.keyShow_ok hK | apply State.setPhase_ok hK
    | with_reducible first | apply State.recovery_ok hK | apply State.p_ok hK | apply State.ethDestroy_ok hK
    | with_reducible first | apply State.closeForRestart_ok hK

theorem State.restartWrite_ok (hK : Closed K) (s : State) (cold : Bool) (v : Word) (hs : Ok K s) :
    Ok K (State.restartWrite s cold v) := by
  unfold State.restartWrite
  repeat' first
    | with_reducible first | assumption | apply ok_ite | apply State.mgtRaise_ok hK | apply State.restartCold_ok hK
    | with_reducible first | apply State.restartWarm_ok hK | apply State.setBoot_ok hK

theorem execColdRestart_ok (hK : Closed K) (r : Requester) (v : Word) (s : State) (hs : Ok K s) :
    OkOut K (execColdRestart r v s) := by
  unfold execColdRestart
  repeat' first
    | with_reducible assumption
    | intro _
    | with_reducible first | apply ok_next | apply State.restartWrite_ok hK | apply State.regWr_ok hK

theorem execWarmRestart_ok (hK : Closed K) (r : Requester) (v : Word) (s : State) (hs : Ok K s) :
    OkOut K (execWarmRestart r v s) := by
  unfold execWarmRestart
  repeat' first
    | with_reducible assumption
    | intro _
    | with_reducible first | apply ok_next | apply State.restartWrite_ok hK | apply State.regWr_ok hK

theorem execTrialCommit_ok (hK : Closed K) (s : State) (hs : Ok K s) :
    OkOut K (execTrialCommit s) := by
  unfold execTrialCommit
  repeat' first
    | with_reducible first | assumption | apply okOut_ite | apply ok_next | apply State.secRaise_ok hK
    | with_reducible first | apply State.p_ok hK | apply State.dirWrite_ok hK | apply State.floorWrite_ok hK
    | with_reducible first | apply State.fuseEpoch_ok hK

theorem State.flashDo_ok (hK : Closed K) (s : State) (op : Nat) (dev : Nat) (off : Nat) (hs : Ok K s) :
    Ok K (State.flashDo s op dev off) := by
  unfold State.flashDo
  repeat' first
    | with_reducible first | assumption | apply State.wrWords_ok hK | apply State.flashErase_ok hK
    | with_reducible first | apply State.flashWrite_ok hK
    | split

theorem State.flashCmd_ok (hK : Closed K) (s : State) (v : Word) (hs : Ok K s) :
    Ok K (State.flashCmd s v) := by
  unfold State.flashCmd
  repeat' first
    | with_reducible first | assumption | apply ok_ite | apply State.mgtRaise_ok hK | apply State.p_ok hK
    | with_reducible first | apply State.reserved_ok hK | apply State.flashDo_ok hK | apply State.fail_ok hK

theorem State.flashOp_ok (hK : Closed K) (s : State) (r : Requester) (op : Nat) (v : Word) (hs : Ok K s) :
    Ok K (State.flashOp s r op v) := by
  unfold State.flashOp
  repeat' first
    | with_reducible assumption
    | intro _
    | with_reducible first | apply State.flashCmd_ok hK | apply State.regWr_ok hK

theorem execFlashRead_ok (hK : Closed K) (r : Requester) (v : Word) (s : State) (hs : Ok K s) :
    OkOut K (execFlashRead r v s) := by
  unfold execFlashRead
  repeat' first
    | with_reducible first | assumption | apply ok_next | apply State.flashOp_ok hK

theorem execFlashProgram_ok (hK : Closed K) (r : Requester) (v : Word) (s : State) (hs : Ok K s) :
    OkOut K (execFlashProgram r v s) := by
  unfold execFlashProgram
  repeat' first
    | with_reducible first | assumption | apply ok_next | apply State.flashOp_ok hK

theorem execFlashErase_ok (hK : Closed K) (r : Requester) (v : Word) (s : State) (hs : Ok K s) :
    OkOut K (execFlashErase r v s) := by
  unfold execFlashErase
  repeat' first
    | with_reducible first | assumption | apply ok_next | apply State.flashOp_ok hK

theorem execFlashCmdDone_ok (hK : Closed K) (ok : Bool) (s : State) (hs : Ok K s) :
    OkOut K (execFlashCmdDone ok s) := by
  unfold execFlashCmdDone
  repeat' first
    | with_reducible first | assumption | apply okOut_ite | apply ok_next | apply State.p_ok hK

end Sys2Proof.Machine
end

