-- ==== Sys2Proof/Laws/OkFault.lean ====
section
/-! SUPPORT. Every operation of Machine/Fault.lean keeps a predicate closed under the primitive updates. -/

set_option linter.unusedTactic false
set_option linter.unreachableTactic false

namespace Sys2Proof.Machine

variable {K : State → Prop}

theorem State.setFault_ok (hK : Closed K) (s : State) (x : FaultS) (hs : Ok K s) :
    Ok K (State.setFault s x) := by
  unfold State.setFault
  repeat' first
    | with_reducible first | assumption | apply State.setM_ok hK

theorem State.wardenRaise_ok (hK : Closed K) (s : State) (bit : Nat) (hs : Ok K s) :
    Ok K (State.wardenRaise s bit) := by
  unfold State.wardenRaise
  repeat' first
    | with_reducible first | assumption | apply State.raise_ok hK

theorem execHeartbeatSend_ok (hK : Closed K) (p : Port) (s : State) (hs : Ok K s) :
    OkOut K (execHeartbeatSend p s) := by
  unfold execHeartbeatSend
  repeat' first
    | with_reducible first | assumption | apply okOut_ite | apply ok_next | apply State.setPort_ok hK
    | with_reducible first | apply State.scSend_ok hK

theorem execHeartbeat_ok (hK : Closed K) (p : Port) (m : List Byte) (s : State) (hs : Ok K s) :
    OkOut K (execHeartbeat p m s) := by
  unfold execHeartbeat
  repeat' first
    | with_reducible first | assumption | apply okOut_ite | apply ok_next | apply ok_ite | apply State.setPort_ok hK
    | with_reducible first | apply State.raise_ok hK | apply State.p_ok hK

theorem execLnkHbSilent_ok (hK : Closed K) (p : Port) (s : State) (hs : Ok K s) :
    OkOut K (execLnkHbSilent p s) := by
  unfold execLnkHbSilent
  repeat' first
    | with_reducible first | assumption | apply okOut_ite | apply ok_next | apply State.setPort_ok hK
    | with_reducible first | apply State.raise_ok hK | apply State.p_ok hK | apply State.dbrk_ok hK

theorem execLnkWatchdog_ok (hK : Closed K) (d : Die) (s : State) (hs : Ok K s) :
    OkOut K (execLnkWatchdog d s) := by
  unfold execLnkWatchdog
  repeat' first
    | with_reducible first | assumption | apply okOut_ite | apply ok_next | apply State.raise_ok hK
    | with_reducible first | apply State.p_ok hK

theorem State.hbKick_ok (hK : Closed K) (s : State) (d : Nat) (hs : Ok K s) :
    Ok K (State.hbKick s d) := by
  unfold State.hbKick
  repeat' first
    | with_reducible first | assumption | apply State.setDie_ok hK | apply State.p_ok hK

theorem execHbKick_ok (hK : Closed K) (r : Requester) (d : Die) (s : State) (hs : Ok K s) :
    OkOut K (execHbKick r d s) := by
  unfold execHbKick
  repeat' first
    | with_reducible assumption
    | intro _
    | with_reducible first | apply ok_next | apply State.regWr_ok hK | apply State.hbKick_ok hK

theorem State.sendPorts_ok (hK : Closed K) (s : State) (but : Option Nat) (m : List Byte) (hs : Ok K s) :
    Ok K (State.sendPorts s but m) := by
  unfold State.sendPorts
  repeat' first
    | with_reducible assumption
    | intro _
    | with_reducible first | apply State.each_ok hK | apply State.scSend_ok hK

theorem State.sendTo_ok (hK : Closed K) (s : State) (dst : Nat) (m : List Byte) (hs : Ok K s) :
    Ok K (State.sendTo s dst m) := by
  unfold State.sendTo
  repeat' first
    | with_reducible first | assumption | apply State.scSend_ok hK

theorem State.flood_ok (hK : Closed K) (s : State) (m : List Byte) (hs : Ok K s) :
    Ok K (State.flood s m) := by
  unfold State.flood
  repeat' first
    | with_reducible first | assumption | apply State.setFault_ok hK | apply State.sendPorts_ok hK

theorem State.fltForward_ok (hK : Closed K) (s : State) (m : List Byte) (hs : Ok K s) :
    Ok K (State.fltForward s m) := by
  unfold State.fltForward
  repeat' first
    | with_reducible first | assumption | apply ok_ite | apply State.sendTo_ok hK

theorem State.fltReceive_ok (hK : Closed K) (s : State) (p : Nat) (m : List Byte) (typ : Nat) (act : State → State)
    (hs : Ok K s) (hact : ∀ z0, Ok K z0 → Ok K (act z0)) :
    Ok K (State.fltReceive s p m typ act) := by
  unfold State.fltReceive
  repeat' first
    | with_reducible first | assumption | apply ok_ite | apply State.fltForward_ok hK | apply State.setFault_ok hK
    | with_reducible first | apply State.sendPorts_ok hK | apply hact

theorem execSideChannelReceive_ok (hK : Closed K) (p : Port) (m : List Byte) (s : State) (hs : Ok K s) :
    OkOut K (execSideChannelReceive p m s) := by
  unfold execSideChannelReceive
  repeat' first
    | with_reducible assumption
    | intro _
    | with_reducible first | apply okOut_ite | apply ok_next | apply State.fltReceive_ok hK
    | with_reducible first | apply State.scQueue_ok hK

theorem execFltSelfFail_ok (hK : Closed K) (why : FailWhy) (s : State) (hs : Ok K s) :
    OkOut K (execFltSelfFail why s) := by
  unfold execFltSelfFail
  repeat' first
    | with_reducible first | assumption | apply okOut_ite | apply ok_next | apply State.haltSeqs_ok hK
    | with_reducible first | apply State.wardenRaise_ok hK | apply State.sendPorts_ok hK

theorem execSuspectSend_ok (hK : Closed K) (st : Nat) (s : State) (hs : Ok K s) :
    OkOut K (execSuspectSend st s) := by
  unfold execSuspectSend
  repeat' first
    | with_reducible first | assumption | apply okOut_ite | apply ok_next | apply State.sendTo_ok hK
    | with_reducible first | apply State.setFault_ok hK

theorem State.stopAct_ok (hK : Closed K) (s : State) (hs : Ok K s) :
    Ok K (State.stopAct s) := by
  unfold State.stopAct
  repeat' first
    | with_reducible first | assumption | apply ok_ite | apply State.haltAll_ok hK | apply State.wardenRaise_ok hK
    | with_reducible first | apply State.setPitch_ok hK | apply State.drain_ok hK

theorem State.stopFlood_ok (hK : Closed K) (s : State) (cause : Nat) (st : Nat) (hs : Ok K s) :
    Ok K (State.stopFlood s cause st) := by
  unfold State.stopFlood
  repeat' first
    | with_reducible first | assumption | apply State.flood_ok hK | apply State.stopAct_ok hK

theorem State.takeStation_ok (hK : Closed K) (s : State) (f : Nat) (pl : PlanS) (hs : Ok K s) :
    Ok K (State.takeStation s f pl) := by
  unfold State.takeStation
  repeat' first
    | with_reducible assumption
    | intro _
    | with_reducible first | apply State.warmExit_ok hK | apply State.loadPlan_ok hK | apply State.each_ok hK
    | with_reducible first | apply State.p_ok hK | apply State.setFault_ok hK | apply State.setPitch_ok hK
    | with_reducible first | apply State.portEnable_ok hK

theorem State.declare_ok (hK : Closed K) (s : State) (f : Nat) (hs : Ok K s) :
    Ok K (State.declare s f) := by
  unfold State.declare
  repeat' first
    | with_reducible first | assumption | apply ok_ite | apply State.showState_ok hK | apply State.flood_ok hK
    | with_reducible first | apply State.wardenRaise_ok hK | apply State.takeStation_ok hK
    | with_reducible first | apply State.setFault_ok hK | apply State.setMod_ok hK | apply State.stopFlood_ok hK
    | with_reducible first | apply State.setGen_ok hK

theorem execSuspectMsg_ok (hK : Closed K) (p : Port) (m : List Byte) (s : State) (hs : Ok K s) :
    OkOut K (execSuspectMsg p m s) := by
  unfold execSuspectMsg
  repeat' first
    | with_reducible assumption
    | intro _
    | with_reducible first | apply ok_next | apply ok_ite | apply State.declare_ok hK | apply State.fltReceive_ok hK
    | with_reducible first | apply State.setFault_ok hK

theorem execFailMsg_ok (hK : Closed K) (p : Port) (m : List Byte) (s : State) (hs : Ok K s) :
    OkOut K (execFailMsg p m s) := by
  unfold execFailMsg
  repeat' first
    | with_reducible assumption
    | intro _
    | with_reducible first | apply ok_next | apply ok_ite | apply State.declare_ok hK | apply State.fltReceive_ok hK

theorem State.fence_ok (hK : Closed K) (s : State) (hs : Ok K s) :
    Ok K (State.fence s) := by
  unfold State.fence
  repeat' first
    | with_reducible assumption
    | intro _
    | with_reducible first | apply State.showState_ok hK | apply State.setM_ok hK | apply State.haltAll_ok hK
    | with_reducible first | apply State.wardenRaise_ok hK | apply State.each_ok hK | apply State.portEnable_ok hK
    | with_reducible first | apply State.setGen_ok hK

theorem State.acceptDeclare_ok (hK : Closed K) (s : State) (f : Nat) (g : Nat) (coord : Nat) (hs : Ok K s) :
    Ok K (State.acceptDeclare s f g coord) := by
  unfold State.acceptDeclare
  repeat' first
    | with_reducible assumption
    | intro _
    | with_reducible first | apply ok_ite | apply State.showState_ok hK | apply State.haltAll_ok hK
    | with_reducible first | apply State.each_ok hK | apply State.setFault_ok hK | apply State.setMod_ok hK
    | with_reducible first | apply State.stopFlood_ok hK | apply State.portEnable_ok hK | apply State.setGen_ok hK

theorem execDeclareMsg_ok (hK : Closed K) (p : Port) (m : List Byte) (s : State) (hs : Ok K s) :
    OkOut K (execDeclareMsg p m s) := by
  unfold execDeclareMsg
  repeat' first
    | with_reducible assumption
    | intro _
    | with_reducible first | apply ok_next | apply ok_ite | apply State.fltReceive_ok hK
    | with_reducible first | apply State.acceptDeclare_ok hK | apply State.fence_ok hK

theorem State.sendReady_ok (hK : Closed K) (s : State) (coord : Nat) (hs : Ok K s) :
    Ok K (State.sendReady s coord) := by
  unfold State.sendReady
  repeat' first
    | with_reducible first | assumption | apply State.sendTo_ok hK

theorem execDeclareSettle_ok (hK : Closed K) (s : State) (hs : Ok K s) :
    OkOut K (execDeclareSettle s) := by
  unfold execDeclareSettle
  repeat' first
    | with_reducible assumption
    | intro _
    | with_reducible first | apply okOut_ite | apply ok_next | apply State.setRoute_ok hK | apply State.each_ok hK
    | with_reducible first | apply State.setFault_ok hK | apply State.sendReady_ok hK
    | (extract_lets +onlyGivenNames v; (fail_if_success (have : ∀ z, v z = v z := fun _ => rfl)); clear_value v)
    | split

theorem State.wardenRead_ok (hK : Closed K) (s : State) (a : Nat) (n : Nat) (hs : Ok K s) :
    Ok K (State.wardenRead s a n).2 := by
  unfold State.wardenRead
  repeat' first
    | with_reducible first | assumption | apply State.readSpan_ok hK

theorem State.push_ok (hK : Closed K) (s : State) (d : Nat) (u : Nat) (x : Desc) (hs : Ok K s) :
    Ok K (State.push s d u x) := by
  unfold State.push
  repeat' first
    | with_reducible first | assumption | apply State.engPush_ok hK

theorem State.shipShard_ok (hK : Closed K) (s : State) (x : Mirrored) (hs : Ok K s) :
    Ok K (State.shipShard s x) := by
  unfold State.shipShard
  repeat' first
    | with_reducible assumption
    | intro _
    | with_reducible first | apply State.each_ok hK | apply State.wardenRead_ok hK | apply State.p_ok hK
    | with_reducible first | apply State.push_ok hK

theorem State.sendDone_ok (hK : Closed K) (s : State) (coord : Nat) (ships : Bool) (rebuild : Bool) (short : Bool)
    (hs : Ok K s) :
    Ok K (State.sendDone s coord ships rebuild short) := by
  unfold State.sendDone
  repeat' first
    | with_reducible first | assumption | apply State.sendTo_ok hK

theorem State.runClr_ok (hK : Closed K) (s : State) (x : Nat × Desc) (hs : Ok K s) :
    Ok K (State.runClr s x) := by
  unfold State.runClr
  repeat' first
    | with_reducible first | assumption | apply State.p_ok hK | apply State.push_ok hK

theorem State.rebuildStart_ok (hK : Closed K) (s : State) (f : Nat) (hs : Ok K s) :
    Ok K (State.rebuildStart s f) := by
  unfold State.rebuildStart
  repeat' first
    | with_reducible assumption
    | intro _
    | with_reducible first | apply ok_ite | apply State.each_ok hK | apply State.p_ok hK | apply State.setFault_ok hK
    | with_reducible first | apply State.runClr_ok hK

theorem State.restoreAct_ok (hK : Closed K) (s : State) (f : Nat) (coord : Nat) (sr : Nat) (isCoord : Bool)
    (hs : Ok K s) :
    Ok K (State.restoreAct s f coord sr isCoord) := by
  unfold State.restoreAct
  repeat' first
    | with_reducible assumption
    | intro _
    | with_reducible first | apply ok_ite | apply State.sendDone_ok hK | apply State.shipShard_ok hK
    | with_reducible first | apply State.rebuildStart_ok hK | apply State.each_ok hK | apply State.setFault_ok hK
    | with_reducible first | apply State.runClr_ok hK

theorem State.tryRestore_ok (hK : Closed K) (s : State) (hs : Ok K s) :
    Ok K (State.tryRestore s) := by
  unfold State.tryRestore
  repeat' first
    | with_reducible first | assumption | apply ok_ite | apply State.restoreAct_ok hK | apply State.flood_ok hK
    | (extract_lets +onlyGivenNames v; (fail_if_success (have : ∀ z, v z = v z := fun _ => rfl)); clear_value v)
    | split

theorem execReadyMsg_ok (hK : Closed K) (p : Port) (m : List Byte) (s : State) (hs : Ok K s) :
    OkOut K (execReadyMsg p m s) := by
  unfold execReadyMsg
  repeat' first
    | with_reducible assumption
    | intro _
    | with_reducible first | apply ok_next | apply ok_ite | apply State.fltReceive_ok hK
    | with_reducible first | apply State.wardenRaise_ok hK | apply State.tryRestore_ok hK | apply State.setFault_ok hK

theorem execRestoreMsg_ok (hK : Closed K) (p : Port) (m : List Byte) (s : State) (hs : Ok K s) :
    OkOut K (execRestoreMsg p m s) := by
  unfold execRestoreMsg
  repeat' first
    | with_reducible assumption
    | intro _
    | with_reducible first | apply ok_next | apply ok_ite | apply State.restoreAct_ok hK
    | with_reducible first | apply State.fltReceive_ok hK
    | split

theorem State.refreshShard_ok (hK : Closed K) (s : State) (x : Shard) (hs : Ok K s) :
    Ok K (State.refreshShard s x) := by
  unfold State.refreshShard
  repeat' first
    | with_reducible first | assumption | apply State.writeSpan_ok hK | apply State.wardenRead_ok hK
    | with_reducible first | apply State.push_ok hK

theorem State.refresh_ok (hK : Closed K) (s : State) (hs : Ok K s) :
    Ok K (State.refresh s) := by
  unfold State.refresh
  repeat' first
    | with_reducible assumption
    | intro _
    | with_reducible first | apply State.each_ok hK | apply State.setFault_ok hK | apply State.runClr_ok hK
    | with_reducible first | apply State.refreshShard_ok hK

theorem State.resumeAct_ok (hK : Closed K) (s : State) (sr : Nat) (hs : Ok K s) :
    Ok K (State.resumeAct s sr) := by
  unfold State.resumeAct
  repeat' first
    | with_reducible assumption
    | intro _
    | with_reducible first | apply State.showState_ok hK | apply State.setHolds_ok hK
    | with_reducible first | apply State.restoreTallies_ok hK | apply State.startSeqs_ok hK
    | with_reducible first | apply State.wardenRaise_ok hK | apply State.each_ok hK | apply State.endRunning_ok hK
    | with_reducible first | apply State.p_ok hK | apply State.setFault_ok hK | apply State.setMod_ok hK
    | with_reducible first | apply State.setPitch_ok hK | apply State.setPass_ok hK
    | (extract_lets +onlyGivenNames v; have hv : Ok K v := ?_; clear_value v; pick_goal 2; subst v)
    | (extract_lets +onlyGivenNames v; (fail_if_success (have : ∀ z, v z = v z := fun _ => rfl)); clear_value v)
    | split

theorem State.tryResume_ok (hK : Closed K) (s : State) (hs : Ok K s) :
    Ok K (State.tryResume s) := by
  unfold State.tryResume
  repeat' first
    | with_reducible first | assumption | apply ok_ite | apply State.flood_ok hK | apply State.resumeAct_ok hK
    | (extract_lets +onlyGivenNames v; (fail_if_success (have : ∀ z, v z = v z := fun _ => rfl)); clear_value v)
    | split

theorem execRebuildDone_ok (hK : Closed K) (s : State) (hs : Ok K s) :
    OkOut K (execRebuildDone s) := by
  unfold execRebuildDone
  repeat' first
    | with_reducible assumption
    | intro _
    | with_reducible first | apply okOut_ite | apply ok_next | apply State.sendDone_ok hK
    | with_reducible first | apply State.tryResume_ok hK | apply State.each_ok hK | apply State.p_ok hK
    | with_reducible first | apply State.setFault_ok hK | apply State.parityOff_ok hK
    | (extract_lets +onlyGivenNames v; have hv : Ok K v := ?_; clear_value v; pick_goal 2; subst v)
    | (extract_lets +onlyGivenNames v; (fail_if_success (have : ∀ z, v z = v z := fun _ => rfl)); clear_value v)
    | split

theorem execDoneMsg_ok (hK : Closed K) (p : Port) (m : List Byte) (s : State) (hs : Ok K s) :
    OkOut K (execDoneMsg p m s) := by
  unfold execDoneMsg
  repeat' first
    | with_reducible assumption
    | intro _
    | with_reducible first | apply ok_next | apply ok_ite | apply State.tryResume_ok hK | apply State.fltReceive_ok hK
    | with_reducible first | apply State.setFault_ok hK | apply State.refresh_ok hK

theorem execResumeMsg_ok (hK : Closed K) (p : Port) (m : List Byte) (s : State) (hs : Ok K s) :
    OkOut K (execResumeMsg p m s) := by
  unfold execResumeMsg
  repeat' first
    | with_reducible assumption
    | intro _
    | with_reducible first | apply ok_next | apply ok_ite | apply State.fltReceive_ok hK | apply State.resumeAct_ok hK
    | with_reducible first | apply State.setFault_ok hK
    | (extract_lets +onlyGivenNames v; have hv : Ok K v := ?_; clear_value v; pick_goal 2; subst v)
    | (extract_lets +onlyGivenNames v; (fail_if_success (have : ∀ z, v z = v z := fun _ => rfl)); clear_value v)
    | split

theorem execStopMsg_ok (hK : Closed K) (p : Port) (m : List Byte) (s : State) (hs : Ok K s) :
    OkOut K (execStopMsg p m s) := by
  unfold execStopMsg
  repeat' first
    | with_reducible assumption
    | intro _
    | with_reducible first | apply ok_next | apply State.fltReceive_ok hK | apply State.stopAct_ok hK

theorem execRecoverTimeout_ok (hK : Closed K) (s : State) (hs : Ok K s) :
    OkOut K (execRecoverTimeout s) := by
  unfold execRecoverTimeout
  repeat' first
    | with_reducible first | assumption | apply okOut_ite | apply ok_next | apply State.stopFlood_ok hK
    | (extract_lets +onlyGivenNames v; (fail_if_success (have : ∀ z, v z = v z := fun _ => rfl)); clear_value v)
    | (extract_lets +onlyGivenNames v; subst v; dsimp -zeta only)
    | split

theorem execReserveLost_ok (hK : Closed K) (s : State) (hs : Ok K s) :
    OkOut K (execReserveLost s) := by
  unfold execReserveLost
  repeat' first
    | with_reducible first | assumption | apply okOut_ite | apply ok_next | apply State.wardenRaise_ok hK
    | with_reducible first | apply State.setFault_ok hK | apply State.parityOff_ok hK

theorem execFenced_ok (hK : Closed K) (s : State) (hs : Ok K s) :
    OkOut K (execFenced s) := by
  unfold execFenced
  repeat' first
    | with_reducible first | assumption | apply okOut_ite | apply ok_next | apply State.fence_ok hK

theorem execJoinMsg_ok (hK : Closed K) (p : Port) (m : List Byte) (s : State) (hs : Ok K s) :
    OkOut K (execJoinMsg p m s) := by
  unfold execJoinMsg
  repeat' first
    | with_reducible assumption
    | intro _
    | with_reducible first | apply ok_next | apply ok_ite | apply State.fltReceive_ok hK
    | with_reducible first | apply State.wardenRaise_ok hK | apply State.scSend_ok hK | apply State.setFault_ok hK

theorem execJoinAnswer_ok (hK : Closed K) (p : Port) (m : List Byte) (s : State) (hs : Ok K s) :
    OkOut K (execJoinAnswer p m s) := by
  unfold execJoinAnswer
  repeat' first
    | with_reducible assumption
    | intro _
    | with_reducible first | apply ok_next | apply ok_ite | apply State.fltReceive_ok hK | apply State.setFault_ok hK

theorem State.joinSend_ok (hK : Closed K) (s : State) (q : Nat) (hs : Ok K s) :
    Ok K (State.joinSend s q) := by
  unfold State.joinSend
  repeat' first
    | with_reducible first | assumption | apply ok_ite | apply State.scSend_ok hK

theorem execPortIdentity_ok (hK : Closed K) (p : Port) (ident : List Byte) (s : State) (hs : Ok K s) :
    OkOut K (execPortIdentity p ident s) := by
  unfold execPortIdentity
  repeat' first
    | with_reducible first | assumption | apply ok_next | apply State.joinSend_ok hK | apply State.identity_ok hK
    | split
    | with_reducible refine ok_snd (by assumption) ?_

end Sys2Proof.Machine
end

