-- ==== Sys2Proof/Laws/OkEther.lean ====
section
/-! SUPPORT. Every operation of Machine/Ether.lean keeps a predicate closed under the primitive updates. -/

set_option linter.unusedTactic false
set_option linter.unreachableTactic false

namespace Sys2Proof.Machine

variable {K : State → Prop}

theorem execEthLinkUp_ok (hK : Closed K) (e : Fin 8) (optical : Bool) (s : State) (hs : Ok K s) :
    OkOut K (execEthLinkUp e optical s) := by
  unfold execEthLinkUp
  repeat' first
    | with_reducible first | assumption | apply okOut_ite | apply ok_next | apply State.p_ok hK

theorem execEthPortDown_ok (hK : Closed K) (e : Fin 8) (s : State) (hs : Ok K s) :
    OkOut K (execEthPortDown e s) := by
  unfold execEthPortDown
  repeat' first
    | with_reducible first | assumption | apply okOut_ite | apply ok_next | apply State.ethRaise_ok hK
    | with_reducible first | apply State.ethDown_ok hK

theorem State.ethDrop_ok (hK : Closed K) (s : State) (hs : Ok K s) :
    Ok K (State.ethDrop s) := by
  unfold State.ethDrop
  repeat' first
    | with_reducible first | assumption | apply State.mbrk_ok hK

theorem State.ethEmit_ok (hK : Closed K) (s : State) (e : Nat) (f : EthOut) (n : Nat) (hs : Ok K s) :
    Ok K (State.ethEmit s e f n) := by
  unfold State.ethEmit
  repeat' first
    | with_reducible first | assumption | apply State.ethTx_ok hK | apply State.emit_ok hK

theorem State.pauseCheck_ok (hK : Closed K) (s : State) (e : Nat) (hs : Ok K s) :
    Ok K (State.pauseCheck s e) := by
  unfold State.pauseCheck
  repeat' first
    | with_reducible first | assumption | apply ok_ite | apply State.setEth_ok hK | apply State.ethEmit_ok hK

theorem State.sqSend_ok (hK : Closed K) (s : State) (e : Nat) (q : Nat) (x : SqReq) (hs : Ok K s) :
    Ok K (State.sqSend s e q x) := by
  unfold State.sqSend
  repeat' first
    | with_reducible first | assumption | apply State.ethEmit_ok hK

theorem State.sqOne_ok (hK : Closed K) (s : State) (e : Nat) (q : Nat) (n : Nat) (x : QpS) (hs : Ok K s) :
    Ok K (State.sqOne s e q n x) := by
  unfold State.sqOne
  repeat' first
    | with_reducible first | assumption | apply ok_ite | apply ok_ite_snd | apply State.readSpan_ok hK
    | with_reducible first | apply State.qpError_ok hK | apply State.readLine_ok hK | apply State.setQp_ok hK
    | with_reducible first | apply State.sqSend_ok hK
    | (extract_lets +onlyGivenNames v; (fail_if_success (have : ∀ z, v z = v z := fun _ => rfl)); clear_value v)
    | split
    | with_reducible refine ok_snd (by assumption) ?_

theorem State.sqPump_ok (hK : Closed K) (s : State) (e : Nat) (q : Nat) (ps0 : Nat) (hs : Ok K s) :
    Ok K (State.sqPump s e q ps0) := by
  fun_induction State.sqPump s e q ps0
  all_goals
    repeat' first
      | with_reducible first | assumption | apply State.sqOne_ok hK | apply_assumption

theorem State.sqBell_ok (hK : Closed K) (s : State) (e : Nat) (v : Word) (hs : Ok K s) :
    Ok K (State.sqBell s e v) := by
  unfold State.sqBell
  repeat' first
    | with_reducible first | assumption | apply ok_ite | apply State.ethRaise_ok hK | apply State.p_ok hK
    | with_reducible first | apply State.sqPump_ok hK | apply State.fail_ok hK

theorem execSqBell_ok (hK : Closed K) (r : Requester) (e : Fin 8) (v : Word) (s : State) (hs : Ok K s) :
    OkOut K (execSqBell r e v s) := by
  unfold execSqBell
  repeat' first
    | with_reducible assumption
    | intro _
    | with_reducible first | apply ok_next | apply State.regWr_ok hK | apply State.sqBell_ok hK

theorem execSqEntryComplete_ok (hK : Closed K) (e : Fin 8) (q : Fin 64) (data : List Byte) (s : State) (hs : Ok K s) :
    OkOut K (execSqEntryComplete e q data s) := by
  unfold execSqEntryComplete
  repeat' first
    | with_reducible first | assumption | apply okOut_ite | apply ok_next | apply ok_ite_snd
    | with_reducible first | apply State.qpError_ok hK | apply State.writeSpan_ok hK | apply State.setQp_ok hK
    | with_reducible first | apply State.p_ok hK | apply State.sqPump_ok hK | apply State.addTally_ok hK
    | split

theorem execRoceRetransmit_ok (hK : Closed K) (e : Fin 8) (q : Fin 64) (s : State) (hs : Ok K s) :
    OkOut K (execRoceRetransmit e q s) := by
  unfold execRoceRetransmit
  repeat' first
    | with_reducible assumption
    | intro _
    | with_reducible first | apply okOut_ite | apply ok_next | apply State.qpError_ok hK | apply State.each_ok hK
    | with_reducible first | apply State.setQp_ok hK | apply State.sqSend_ok hK
    | split

theorem execCnpReceive_ok (hK : Closed K) (e : Fin 8) (q : Fin 64) (s : State) (hs : Ok K s) :
    OkOut K (execCnpReceive e q s) := by
  unfold execCnpReceive
  repeat' first
    | with_reducible first | assumption | apply ok_next | apply State.setQp_ok hK
    | split

theorem execRateRegain_ok (hK : Closed K) (e : Fin 8) (q : Fin 64) (s : State) (hs : Ok K s) :
    OkOut K (execRateRegain e q s) := by
  unfold execRateRegain
  repeat' first
    | with_reducible first | assumption | apply okOut_ite | apply ok_next | apply State.setQp_ok hK
    | split

theorem State.pfcTake_ok (hK : Closed K) (s : State) (e : Nat) (prio : Nat) (on : Bool) (hs : Ok K s) :
    Ok K (State.pfcTake s e prio on) := by
  unfold State.pfcTake
  repeat' first
    | with_reducible assumption
    | intro _
    | with_reducible first | apply ok_ite | apply State.setEth_ok hK | apply State.each_ok hK
    | with_reducible first | apply State.sqPump_ok hK

theorem State.roceTake_ok (hK : Closed K) (s : State) (e : Nat) (f : EthFrame) (icrcOk : Bool) (ce : Bool) (qp : Nat)
    (hs : Ok K s) :
    Ok K (State.roceTake s e f icrcOk ce qp) := by
  unfold State.roceTake
  repeat' first
    | with_reducible first | assumption | apply ok_ite | apply State.pauseCheck_ok hK | apply State.setEth_ok hK
    | with_reducible first | apply State.ethDrop_ok hK | apply State.ethEmit_ok hK

theorem execEthFrameReceive_ok (hK : Closed K) (e : Fin 8) (f : EthFrame) (s : State) (hs : Ok K s) :
    OkOut K (execEthFrameReceive e f s) := by
  unfold execEthFrameReceive
  repeat' first
    | with_reducible first | assumption | apply okOut_ite | apply ok_next | apply ok_ite | apply State.inc64_ok hK
    | with_reducible first | apply State.ethDrop_ok hK | apply State.roceTake_ok hK | apply State.pfcTake_ok hK
    | (extract_lets +onlyGivenNames v; (fail_if_success (have : ∀ z, v z = v z := fun _ => rfl)); clear_value v)
    | split

theorem execNeighbourAnswer_ok (hK : Closed K) (e : Fin 8) (peer : List Byte) (msg : NbrMsg) (s : State) (hs : Ok K s)
    :
    OkOut K (execNeighbourAnswer e peer msg s) := by
  unfold execNeighbourAnswer
  repeat' first
    | with_reducible first | assumption | apply okOut_ite | apply ok_next | apply State.setEth_ok hK
    | with_reducible first | apply State.ethEmit_ok hK
    | (extract_lets +onlyGivenNames v; (fail_if_success (have : ∀ z, v z = v z := fun _ => rfl)); clear_value v)
    | split

theorem State.roceServed_ok (hK : Closed K) (s : State) (e : Nat) (r : RoceReq) (hs : Ok K s) :
    Ok K (State.roceServed s e r) := by
  unfold State.roceServed
  repeat' first
    | with_reducible first | assumption | apply State.pauseCheck_ok hK | apply State.setEth_ok hK

theorem State.nak_ok (hK : Closed K) (s : State) (e : Nat) (f : EthOut) (counted : Bool) (hs : Ok K s) :
    Ok K (State.nak s e f counted) := by
  unfold State.nak
  repeat' first
    | with_reducible first | assumption | apply ok_ite | apply State.ethEmit_ok hK | apply State.mbrk_ok hK

theorem execRoceWrite_ok (hK : Closed K) (e : Fin 8) (r : RoceReq) (s : State) (hs : Ok K s) :
    OkOut K (execRoceWrite e r s) := by
  unfold execRoceWrite
  repeat' first
    | with_reducible first | assumption | apply okOut_ite | apply ok_next | apply State.writeSpan_ok hK
    | with_reducible first | apply State.ethEmit_ok hK | apply State.nak_ok hK | apply State.roceServed_ok hK
    | split
    | with_reducible refine ok_snd (by assumption) ?_

theorem execRoceRead_ok (hK : Closed K) (e : Fin 8) (r : RoceReq) (s : State) (hs : Ok K s) :
    OkOut K (execRoceRead e r s) := by
  unfold execRoceRead
  repeat' first
    | with_reducible first | assumption | apply okOut_ite | apply ok_next | apply State.readSpan_ok hK
    | with_reducible first | apply State.ethEmit_ok hK | apply State.nak_ok hK | apply State.roceServed_ok hK
    | split
    | with_reducible refine ok_snd (by assumption) ?_

theorem execNakInvalidRequest_ok (hK : Closed K) (e : Fin 8) (r : RoceReq) (s : State) (hs : Ok K s) :
    OkOut K (execNakInvalidRequest e r s) := by
  unfold execNakInvalidRequest
  repeat' first
    | with_reducible first | assumption | apply okOut_ite | apply ok_next | apply State.nak_ok hK
    | with_reducible first | apply State.roceServed_ok hK

theorem State.planArrives_ok (hK : Closed K) (s : State) (hs : Ok K s) :
    Ok K (State.planArrives s) := by
  unfold State.planArrives
  repeat' first
    | with_reducible first | assumption | apply ok_ite | apply State.restoreTallies_ok hK | apply State.loadPlan_ok hK
    | with_reducible first | apply State.takeStation_ok hK | apply State.setPitch_ok hK
    | split

theorem execRoceSend_ok (hK : Closed K) (e : Fin 8) (r : RoceReq) (s : State) (hs : Ok K s) :
    OkOut K (execRoceSend e r s) := by
  unfold execRoceSend
  repeat' first
    | with_reducible first | assumption | apply okOut_ite | apply ok_next | apply State.writeSpan_ok hK
    | with_reducible first | apply State.ethEmit_ok hK | apply State.nak_ok hK | apply State.p_ok hK
    | with_reducible first | apply State.request_ok hK | apply State.roceServed_ok hK | apply State.planArrives_ok hK
    | split
    | with_reducible refine ok_snd (by assumption) ?_

end Sys2Proof.Machine
end

