-- ==== Sys2Proof/Laws/OkPower.lean ====
section
/-! SUPPORT. Every operation of Machine/Power.lean keeps a predicate closed under the primitive updates. -/

set_option linter.unusedTactic false
set_option linter.unreachableTactic false

namespace Sys2Proof.Machine

variable {K : State → Prop}

theorem State.setPwr_ok (hK : Closed K) (s : State) (x : PwrS) (hs : Ok K s) :
    Ok K (State.setPwr s x) := by
  unfold State.setPwr
  repeat' first
    | with_reducible first | assumption | apply State.setM_ok hK

theorem State.pwrRaise_ok (hK : Closed K) (s : State) (bit : Nat) (hs : Ok K s) :
    Ok K (State.pwrRaise s bit) := by
  unfold State.pwrRaise
  repeat' first
    | with_reducible first | assumption | apply State.raise_ok hK

theorem execFeedLost_ok (hK : Closed K) (feed : Fin 2) (s : State) (hs : Ok K s) :
    OkOut K (execFeedLost feed s) := by
  unfold execFeedLost
  repeat' first
    | with_reducible first | assumption | apply okOut_ite | apply ok_next | apply State.pwrRaise_ok hK
    | with_reducible first | apply State.p_ok hK | apply State.mbrk_ok hK

theorem execFeedRestored_ok (hK : Closed K) (feed : Fin 2) (s : State) (hs : Ok K s) :
    OkOut K (execFeedRestored feed s) := by
  unfold execFeedRestored
  repeat' first
    | with_reducible first | assumption | apply ok_next | apply State.p_ok hK

theorem State.openSwitch_ok (hK : Closed K) (s : State) (f : Nat) (hs : Ok K s) :
    Ok K (State.openSwitch s f) := by
  unfold State.openSwitch
  repeat' first
    | with_reducible first | assumption | apply State.p_ok hK | apply State.setPwr_ok hK

theorem State.closeSwitch_ok (hK : Closed K) (s : State) (f : Nat) (hs : Ok K s) :
    Ok K (State.closeSwitch s f) := by
  unfold State.closeSwitch
  repeat' first
    | with_reducible first | assumption | apply State.setPwr_ok hK

theorem execFeedReverse_ok (hK : Closed K) (feed : Fin 2) (s : State) (hs : Ok K s) :
    OkOut K (execFeedReverse feed s) := by
  unfold execFeedReverse
  repeat' first
    | with_reducible first | assumption | apply okOut_ite | apply ok_next | apply State.openSwitch_ok hK
    | with_reducible first | apply State.pwrRaise_ok hK | apply State.p_ok hK

theorem execFeedFault_ok (hK : Closed K) (feed : Fin 2) (s : State) (hs : Ok K s) :
    OkOut K (execFeedFault feed s) := by
  unfold execFeedFault
  repeat' first
    | with_reducible first | assumption | apply okOut_ite | apply ok_next | apply ok_ite
    | with_reducible first | apply State.openSwitch_ok hK | apply State.pwrRaise_ok hK | apply State.p_ok hK
    | with_reducible first | apply State.setPwr_ok hK

theorem execFeedReclose_ok (hK : Closed K) (feed : Fin 2) (s : State) (hs : Ok K s) :
    OkOut K (execFeedReclose feed s) := by
  unfold execFeedReclose
  repeat' first
    | with_reducible first | assumption | apply okOut_ite | apply ok_next | apply State.closeSwitch_ok hK
    | (extract_lets +onlyGivenNames v; (fail_if_success (have : ∀ z, v z = v z := fun _ => rfl)); clear_value v)
    | split

theorem State.toOff_ok (hK : Closed K) (s : State) (hs : Ok K s) :
    Ok K (State.toOff s) := by
  unfold State.toOff
  repeat' first
    | with_reducible first | assumption | apply State.wr_ok hK | apply State.coldReset_ok hK
    | with_reducible first | apply State.setPwr_ok hK

theorem execAlwaysOnOff_ok (hK : Closed K) (s : State) (hs : Ok K s) :
    OkOut K (execAlwaysOnOff s) := by
  unfold execAlwaysOnOff
  repeat' first
    | with_reducible first | assumption | apply ok_next | apply State.toOff_ok hK

theorem execSurge_ok (hK : Closed K) (s : State) (hs : Ok K s) :
    OkOut K (execSurge s) := by
  unfold execSurge
  repeat' first
    | with_reducible first | assumption | apply okOut_ite | apply ok_next | apply State.p_ok hK

theorem execOvervoltage_ok (hK : Closed K) (s : State) (hs : Ok K s) :
    OkOut K (execOvervoltage s) := by
  unfold execOvervoltage
  repeat' first
    | with_reducible first | assumption | apply ok_next | apply State.openSwitch_ok hK | apply State.toOff_ok hK

theorem State.dropDies_ok (hK : Closed K) (s : State) (hs : Ok K s) :
    Ok K (State.dropDies s) := by
  unfold State.dropDies
  repeat' first
    | with_reducible first | assumption | apply State.pitchCut_ok hK | apply State.toStandby_ok hK

theorem State.brownout_ok (hK : Closed K) (s : State) (hs : Ok K s) :
    Ok K (State.brownout s) := by
  unfold State.brownout
  repeat' first
    | with_reducible first | assumption | apply ok_ite | apply State.dropDies_ok hK | apply State.pwrRaise_ok hK
    | with_reducible first | apply State.setPwr_ok hK | apply State.mbrk_ok hK

theorem execBrownout_ok (hK : Closed K) (s : State) (hs : Ok K s) :
    OkOut K (execBrownout s) := by
  unfold execBrownout
  repeat' first
    | with_reducible first | assumption | apply ok_next | apply State.brownout_ok hK

theorem execOvercurrentTrip_ok (hK : Closed K) (s : State) (hs : Ok K s) :
    OkOut K (execOvercurrentTrip s) := by
  unfold execOvercurrentTrip
  repeat' first
    | with_reducible first | assumption | apply ok_next | apply State.brownout_ok hK

theorem execBrownoutRecover_ok (hK : Closed K) (s : State) (hs : Ok K s) :
    OkOut K (execBrownoutRecover s) := by
  unfold execBrownoutRecover
  repeat' first
    | with_reducible first | assumption | apply okOut_ite | apply ok_next | apply State.standbyExit_ok hK
    | with_reducible first | apply State.setPwr_ok hK

theorem State.overtemp_ok (hK : Closed K) (s : State) (hs : Ok K s) :
    Ok K (State.overtemp s) := by
  unfold State.overtemp
  repeat' first
    | with_reducible first | assumption | apply State.dropDies_ok hK | apply State.pwrRaise_ok hK

theorem execOvertemp_ok (hK : Closed K) (d : Die) (s : State) (hs : Ok K s) :
    OkOut K (execOvertemp d s) := by
  unfold execOvertemp
  repeat' first
    | with_reducible first | assumption | apply okOut_ite | apply ok_next | apply State.overtemp_ok hK

theorem execShutdown_ok (hK : Closed K) (s : State) (hs : Ok K s) :
    OkOut K (execShutdown s) := by
  unfold execShutdown
  repeat' first
    | with_reducible first | assumption | apply okOut_ite | apply ok_next | apply State.dropDies_ok hK
    | with_reducible first | apply State.pwrRaise_ok hK | apply State.setPwr_ok hK

theorem execShutdownRelease_ok (hK : Closed K) (s : State) (hs : Ok K s) :
    OkOut K (execShutdownRelease s) := by
  unfold execShutdownRelease
  repeat' first
    | with_reducible first | assumption | apply okOut_ite | apply ok_next | apply State.standbyExit_ok hK
    | with_reducible first | apply State.setPwr_ok hK

theorem State.holdStandby_ok (hK : Closed K) (s : State) (hs : Ok K s) :
    Ok K (State.holdStandby s) := by
  unfold State.holdStandby
  repeat' first
    | with_reducible first | assumption | apply State.toStandby_ok hK | apply State.setPwr_ok hK

theorem execRailFault_ok (hK : Closed K) (rail : Fin 17) (s : State) (hs : Ok K s) :
    OkOut K (execRailFault rail s) := by
  unfold execRailFault
  repeat' first
    | with_reducible assumption
    | intro _
    | with_reducible first | apply okOut_ite | apply ok_next | apply State.ethDown_ok hK | apply State.each_ok hK
    | with_reducible first | apply State.pwrRaise_ok hK | apply State.p_ok hK | apply State.holdStandby_ok hK
    | with_reducible first | apply State.toOff_ok hK

theorem execSenseOpen_ok (hK : Closed K) (rail : Fin 17) (s : State) (hs : Ok K s) :
    OkOut K (execSenseOpen rail s) := by
  unfold execSenseOpen
  repeat' first
    | with_reducible first | assumption | apply okOut_ite | apply ok_next | apply State.setBit_ok hK
    | with_reducible first | apply State.pwrRaise_ok hK | apply State.p_ok hK | apply State.mbrk_ok hK

theorem State.stretch_ok (hK : Closed K) (s : State) (hs : Ok K s) :
    Ok K (State.stretch s) := by
  unfold State.stretch
  repeat' first
    | with_reducible first | assumption | apply State.p_ok hK

theorem execShellWatchdog_ok (hK : Closed K) (s : State) (hs : Ok K s) :
    OkOut K (execShellWatchdog s) := by
  unfold execShellWatchdog
  repeat' first
    | with_reducible first | assumption | apply okOut_ite | apply ok_next | apply State.stretch_ok hK
    | with_reducible first | apply State.pwrRaise_ok hK | apply State.p_ok hK

theorem execManagerStep_ok (hK : Closed K) (s : State) (hs : Ok K s) :
    OkOut K (execManagerStep s) := by
  unfold execManagerStep
  repeat' first
    | with_reducible first | assumption | apply okOut_ite | apply ok_next | apply ok_ite | apply State.stretch_ok hK
    | with_reducible first | apply State.inc64_ok hK | apply State.p_ok hK | apply State.setPwr_ok hK

theorem execLimitFloor_ok (hK : Closed K) (s : State) (hs : Ok K s) :
    OkOut K (execLimitFloor s) := by
  unfold execLimitFloor
  repeat' first
    | with_reducible first | assumption | apply okOut_ite | apply ok_next | apply State.pwrRaise_ok hK
    | with_reducible first | apply State.p_ok hK
    | split

theorem State.setDroop_ok (hK : Closed K) (s : State) (d : Nat) (v : Nat) (hs : Ok K s) :
    Ok K (State.setDroop s d v) := by
  unfold State.setDroop
  repeat' first
    | with_reducible first | assumption | apply State.stretch_ok hK | apply State.setPwr_ok hK

theorem execDroop_ok (hK : Closed K) (d : Die) (s : State) (hs : Ok K s) :
    OkOut K (execDroop d s) := by
  unfold execDroop
  repeat' first
    | with_reducible first | assumption | apply okOut_ite | apply ok_next | apply State.setDroop_ok hK
    | with_reducible first | apply State.mbrk_ok hK

theorem execDroopRelease_ok (hK : Closed K) (d : Die) (s : State) (hs : Ok K s) :
    OkOut K (execDroopRelease d s) := by
  unfold execDroopRelease
  repeat' first
    | with_reducible first | assumption | apply ok_next | apply State.setDroop_ok hK

theorem State.feedSample_ok (hK : Closed K) (s : State) (f : Nat) (mv : Int) (ca : Nat) (other : Int) (hs : Ok K s) :
    Ok K (State.feedSample s f mv ca other) := by
  unfold State.feedSample
  repeat' first
    | with_reducible first | assumption | apply ok_ite | apply State.closeSwitch_ok hK | apply State.p_ok hK
    | with_reducible first | apply State.setPwr_ok hK

theorem State.railSample_ok (hK : Closed K) (s : State) (r : Nat) (x : Nat × Int) (hs : Ok K s) :
    Ok K (State.railSample s r x) := by
  unfold State.railSample
  repeat' first
    | with_reducible first | assumption | apply State.p_ok hK

theorem execTelemetrySample_ok (hK : Closed K) (t : Telem) (s : State) (hs : Ok K s) :
    OkOut K (execTelemetrySample t s) := by
  unfold execTelemetrySample
  repeat' first
    | with_reducible assumption
    | intro _
    | with_reducible first | apply okOut_ite | apply ok_next | apply ok_ite | apply State.railSample_ok hK
    | with_reducible first | apply State.inc64_ok hK | apply State.feedSample_ok hK | apply State.each_ok hK
    | with_reducible first | apply State.p_ok hK | apply State.setPwr_ok hK
    | split

theorem State.tileOnWrite_ok (hK : Closed K) (s : State) (d : Nat) (v : Word) (hs : Ok K s) :
    Ok K (State.tileOnWrite s d v) := by
  unfold State.tileOnWrite
  repeat' first
    | with_reducible assumption
    | intro _
    | with_reducible first | apply ok_ite | apply State.wr_ok hK | apply State.each_ok hK | apply State.pwrRaise_ok hK
    | with_reducible first | apply State.tileOff_ok hK | apply State.fail_ok hK

theorem execPwrTileOnWrite_ok (hK : Closed K) (r : Requester) (d : Die) (v : Word) (s : State) (hs : Ok K s) :
    OkOut K (execPwrTileOnWrite r d v s) := by
  unfold execPwrTileOnWrite
  repeat' first
    | with_reducible assumption
    | intro _
    | with_reducible first | apply ok_next | apply State.tileOnWrite_ok hK | apply State.regWr_ok hK

end Sys2Proof.Machine
end

