-- ==== Sys2Proof/Laws/OkClocks.lean ====
section
/-! SUPPORT. Every operation of Machine/Clocks.lean keeps a predicate closed under the primitive updates. -/

set_option linter.unusedTactic false
set_option linter.unreachableTactic false

namespace Sys2Proof.Machine

variable {K : State → Prop}

theorem State.mckRaise_ok (hK : Closed K) (s : State) (bit : Nat) (hs : Ok K s) :
    Ok K (State.mckRaise s bit) := by
  unfold State.mckRaise
  repeat' first
    | with_reducible first | assumption | apply State.raise_ok hK

theorem State.setClk_ok (hK : Closed K) (s : State) (x : ClkS) (hs : Ok K s) :
    Ok K (State.setClk s x) := by
  unfold State.setClk
  repeat' first
    | with_reducible first | assumption | apply State.setM_ok hK

theorem execFreqWindow_ok (hK : Closed K) (n : Nat) (s : State) (hs : Ok K s) :
    OkOut K (execFreqWindow n s) := by
  unfold execFreqWindow
  repeat' first
    | with_reducible first | assumption | apply okOut_ite | apply ok_next | apply State.setClk_ok hK
    | with_reducible first | apply State.refUpdate_ok hK | apply State.p_ok hK

theorem State.noReference_ok (hK : Closed K) (s : State) (hs : Ok K s) :
    Ok K (State.noReference s) := by
  unfold State.noReference
  repeat' first
    | with_reducible first | assumption | apply ok_ite | apply State.mckRaise_ok hK | apply State.brownout_ok hK

theorem execOscWindow_ok (hK : Closed K) (n : Nat) (s : State) (hs : Ok K s) :
    OkOut K (execOscWindow n s) := by
  unfold execOscWindow
  repeat' first
    | with_reducible first | assumption | apply okOut_ite | apply ok_next | apply State.setClk_ok hK
    | with_reducible first | apply State.mckRaise_ok hK | apply State.noReference_ok hK | apply State.refUpdate_ok hK
    | with_reducible first | apply State.p_ok hK

theorem State.setLock_ok (hK : Closed K) (s : State) (d : Nat) (pll : Nat) (v : Bool) (hs : Ok K s) :
    Ok K (State.setLock s d pll v) := by
  unfold State.setLock
  repeat' first
    | with_reducible first | assumption | apply State.p_ok hK

theorem State.arrShow_ok (hK : Closed K) (s : State) (d : Nat) (hs : Ok K s) :
    Ok K (State.arrShow s d) := by
  unfold State.arrShow
  repeat' first
    | with_reducible first | assumption | apply State.p_ok hK

theorem execPllLock_ok (hK : Closed K) (d : Die) (pll : Fin 5) (s : State) (hs : Ok K s) :
    OkOut K (execPllLock d pll s) := by
  unfold execPllLock
  repeat' first
    | with_reducible first | assumption | apply okOut_ite | apply ok_next | apply State.phaseSix_ok hK
    | with_reducible first | apply State.arrShow_ok hK | apply State.setLock_ok hK

theorem execPllUnlock_ok (hK : Closed K) (d : Die) (pll : Fin 5) (s : State) (hs : Ok K s) :
    OkOut K (execPllUnlock d pll s) := by
  unfold execPllUnlock
  repeat' first
    | with_reducible first | assumption | apply okOut_ite | apply ok_next | apply State.setClk_ok hK
    | with_reducible first | apply State.arrShow_ok hK | apply State.setDie_ok hK | apply State.raise_ok hK
    | with_reducible first | apply State.p_ok hK | apply State.holdStandby_ok hK | apply State.setLock_ok hK
    | with_reducible first | apply State.dbrk_ok hK

theorem State.arrStop_ok (hK : Closed K) (s : State) (d : Nat) (hs : Ok K s) :
    Ok K (State.arrStop s d) := by
  unfold State.arrStop
  repeat' first
    | with_reducible first | assumption | apply State.arrShow_ok hK | apply State.setDie_ok hK

theorem State.arrStopWrite_ok (hK : Closed K) (s : State) (d : Nat) (hs : Ok K s) :
    Ok K (State.arrStopWrite s d) := by
  unfold State.arrStopWrite
  repeat' first
    | with_reducible first | assumption | apply ok_ite | apply State.raise_ok hK | apply State.arrStop_ok hK
    | with_reducible first | apply State.fail_ok hK

theorem execArrStop_ok (hK : Closed K) (r : Requester) (d : Die) (s : State) (hs : Ok K s) :
    OkOut K (execArrStop r d s) := by
  unfold execArrStop
  repeat' first
    | with_reducible assumption
    | intro _
    | with_reducible first | apply ok_next | apply State.arrStopWrite_ok hK | apply State.regWr_ok hK

theorem execPllSleep_ok (hK : Closed K) (d : Die) (s : State) (hs : Ok K s) :
    OkOut K (execPllSleep d s) := by
  unfold execPllSleep
  repeat' first
    | with_reducible first | assumption | apply okOut_ite | apply ok_next | apply State.arrShow_ok hK
    | with_reducible first | apply State.setDie_ok hK | apply State.setLock_ok hK

theorem State.freqField_ok (hK : Closed K) (s : State) (d : Nat) (f : RF) (pll : Nat) (top : Nat) (v : Nat)
    (hs : Ok K s) :
    Ok K (State.freqField s d f pll top v) := by
  unfold State.freqField
  repeat' first
    | with_reducible first | assumption | apply ok_ite | apply State.arrShow_ok hK | apply State.p_ok hK
    | with_reducible first | apply State.reserved_ok hK | apply State.setLock_ok hK

theorem State.freqWrite_ok (hK : Closed K) (s : State) (d : Nat) (v : Word) (hs : Ok K s) :
    Ok K (State.freqWrite s d v) := by
  unfold State.freqWrite
  repeat' first
    | with_reducible first | assumption | apply State.freqField_ok hK

theorem execClkFreqWrite_ok (hK : Closed K) (r : Requester) (d : Die) (v : Word) (s : State) (hs : Ok K s) :
    OkOut K (execClkFreqWrite r d v s) := by
  unfold execClkFreqWrite
  repeat' first
    | with_reducible assumption
    | intro _
    | with_reducible first | apply ok_next | apply State.regWr_ok hK | apply State.freqWrite_ok hK

theorem State.clkoutTake_ok (hK : Closed K) (s : State) (hs : Ok K s) :
    Ok K (State.clkoutTake s) := by
  unfold State.clkoutTake
  repeat' first
    | with_reducible first | assumption | apply State.setClk_ok hK

theorem State.clkoutWrite_ok (hK : Closed K) (s : State) (v : Word) (hs : Ok K s) :
    Ok K (State.clkoutWrite s v) := by
  unfold State.clkoutWrite
  repeat' first
    | with_reducible first | assumption | apply ok_ite | apply State.clkoutTake_ok hK | apply State.p_ok hK
    | with_reducible first | apply State.reserved_ok hK

theorem execClkoutWrite_ok (hK : Closed K) (r : Requester) (v : Word) (s : State) (hs : Ok K s) :
    OkOut K (execClkoutWrite r v s) := by
  unfold execClkoutWrite
  repeat' first
    | with_reducible assumption
    | intro _
    | with_reducible first | apply ok_next | apply State.regWr_ok hK | apply State.clkoutWrite_ok hK

theorem State.setTime_ok (hK : Closed K) (s : State) (x : TimeS) (hs : Ok K s) :
    Ok K (State.setTime s x) := by
  unfold State.setTime
  repeat' first
    | with_reducible first | assumption | apply State.setM_ok hK

theorem State.timeRaise_ok (hK : Closed K) (s : State) (bit : Nat) (hs : Ok K s) :
    Ok K (State.timeRaise s bit) := by
  unfold State.timeRaise
  repeat' first
    | with_reducible first | assumption | apply State.raise_ok hK

theorem State.timeStepWrite_ok (hK : Closed K) (s : State) (v : Word) (hs : Ok K s) :
    Ok K (State.timeStepWrite s v) := by
  unfold State.timeStepWrite
  repeat' first
    | with_reducible first | assumption | apply ok_ite | apply State.timeRaise_ok hK | apply State.wr_ok hK
    | with_reducible first | apply State.setTime_ok hK | apply State.fail_ok hK

theorem execTimeStep_ok (hK : Closed K) (r : Requester) (v : Word) (s : State) (hs : Ok K s) :
    OkOut K (execTimeStep r v s) := by
  unfold execTimeStep
  repeat' first
    | with_reducible assumption
    | intro _
    | with_reducible first | apply ok_next | apply State.regWr_ok hK | apply State.timeStepWrite_ok hK

theorem State.setSlew_ok (hK : Closed K) (s : State) (n : Int) (hs : Ok K s) :
    Ok K (State.setSlew s n) := by
  unfold State.setSlew
  repeat' first
    | with_reducible first | assumption | apply State.p_ok hK | apply State.setTime_ok hK

theorem State.timeSlewWrite_ok (hK : Closed K) (s : State) (v : Word) (hs : Ok K s) :
    Ok K (State.timeSlewWrite s v) := by
  unfold State.timeSlewWrite
  repeat' first
    | with_reducible first | assumption | apply State.setSlew_ok hK

theorem execTimeSlew_ok (hK : Closed K) (r : Requester) (v : Word) (s : State) (hs : Ok K s) :
    OkOut K (execTimeSlew r v s) := by
  unfold execTimeSlew
  repeat' first
    | with_reducible assumption
    | intro _
    | with_reducible first | apply ok_next | apply State.regWr_ok hK | apply State.timeSlewWrite_ok hK

theorem State.unsync_ok (hK : Closed K) (s : State) (hs : Ok K s) :
    Ok K (State.unsync s) := by
  unfold State.unsync
  repeat' first
    | with_reducible first | assumption | apply ok_ite | apply State.timeRaise_ok hK | apply State.p_ok hK

theorem State.measure_ok (hK : Closed K) (s : State) (off : Int) (hs : Ok K s) :
    Ok K (State.measure s off) := by
  unfold State.measure
  repeat' first
    | with_reducible first | assumption | apply ok_ite | apply State.timeRaise_ok hK | apply State.p_ok hK
    | with_reducible first | apply State.setTime_ok hK | apply State.unsync_ok hK

theorem execTimeUnsync_ok (hK : Closed K) (s : State) (hs : Ok K s) :
    OkOut K (execTimeUnsync s) := by
  unfold execTimeUnsync
  repeat' first
    | with_reducible first | assumption | apply okOut_ite | apply ok_next | apply State.unsync_ok hK

theorem execTimeReqSend_ok (hK : Closed K) (s : State) (hs : Ok K s) :
    OkOut K (execTimeReqSend s) := by
  unfold execTimeReqSend
  repeat' first
    | with_reducible first | assumption | apply okOut_ite | apply ok_next | apply State.scSend_ok hK
    | with_reducible first | apply State.setTime_ok hK

theorem execTimeReq_ok (hK : Closed K) (p : Port) (m : List Byte) (s : State) (hs : Ok K s) :
    OkOut K (execTimeReq p m s) := by
  unfold execTimeReq
  repeat' first
    | with_reducible first | assumption | apply okOut_ite | apply ok_next | apply State.scSend_ok hK

theorem execTimeResp_ok (hK : Closed K) (p : Port) (m : List Byte) (s : State) (hs : Ok K s) :
    OkOut K (execTimeResp p m s) := by
  unfold execTimeResp
  repeat' first
    | with_reducible first | assumption | apply okOut_ite | apply ok_next | apply ok_ite | apply State.p_ok hK
    | with_reducible first | apply State.measure_ok hK | apply State.mbrk_ok hK

theorem execPtpEvent_ok (hK : Closed K) (e : Fin 8) (m : PtpMsg) (s : State) (hs : Ok K s) :
    OkOut K (execPtpEvent e m s) := by
  unfold execPtpEvent
  repeat' first
    | with_reducible first | assumption | apply okOut_ite | apply ok_next | apply ok_ite | apply State.ethEmit_ok hK
    | with_reducible first | apply State.measure_ok hK | apply State.setTime_ok hK
    | (extract_lets +onlyGivenNames v; have hv : Ok K v := ?_; clear_value v; pick_goal 2; subst v)
    | (extract_lets +onlyGivenNames v; (fail_if_success (have : ∀ z, v z = v z := fun _ => rfl)); clear_value v)
    | (extract_lets +onlyGivenNames v; subst v; dsimp -zeta only)
    | split

end Sys2Proof.Machine
end

