-- ==== Sys2Proof/Laws/OkShaker.lean ====
section
/-! SUPPORT. Every operation of Machine/Shaker.lean keeps a predicate closed under the primitive updates. -/

set_option linter.unusedTactic false
set_option linter.unreachableTactic false

namespace Sys2Proof.Machine

variable {K : State → Prop}

theorem State.shakerWord_ok (hK : Closed K) (s : State) (lo : Nat) (hi : Nat) (hs : Ok K s) :
    Ok K (State.shakerWord s lo hi).2 := by
  unfold State.shakerWord
  repeat' first
    | with_reducible first | assumption | apply State.wr_ok hK

theorem State.draw16_ok (hK : Closed K) (s : State) (lo : Nat) (hi : Nat) (left : List Nat) (ps0 : Nat) (hs : Ok K s)
    :
    Ok K (State.draw16 s lo hi left ps0).2.2 := by
  fun_induction State.draw16 s lo hi left ps0
  all_goals
    repeat' first
      | with_reducible first | assumption | apply State.shakerWord_ok hK | refine ok_snd (by assumption) ?_
      | with_reducible first | refine ok_snd3 (by assumption) ?_ | apply_assumption

theorem State.genDrawn_ok (hK : Closed K) (s : State) (d : Nat) (t : Nat) (g : Nat) (drew : List Nat) (hs : Ok K s) :
    Ok K (State.genDrawn s d t g drew) := by
  unfold State.genDrawn
  repeat' first
    | with_reducible first | assumption | apply ok_ite | apply State.brk_ok hK

theorem State.shakerWrite_ok (hK : Closed K) (s : State) (lo : Nat) (hi : Nat) (isHi : Bool) (v : Word) (hs : Ok K s)
    :
    Ok K (State.shakerWrite s lo hi isHi v) := by
  unfold State.shakerWrite
  repeat' first
    | with_reducible first | assumption | apply ok_ite | apply State.wr_ok hK

end Sys2Proof.Machine
end

