-- ==== Sys2Proof/Laws/OkCnv.lean ====
section
/-! SUPPORT. Every operation of Machine/Cnv.lean keeps a predicate closed under the primitive updates. -/

set_option linter.unusedTactic false
set_option linter.unreachableTactic false

namespace Sys2Proof.Machine

variable {K : State → Prop}

theorem State.setCnv_ok (hK : Closed K) (s : State) (d : Nat) (t : Nat) (c : Option CnvS) (hs : Ok K s) :
    Ok K (State.setCnv s d t c) := by
  unfold State.setCnv
  repeat' first
    | with_reducible first | assumption | apply State.setTile_ok hK

theorem State.cnvWrite_ok (hK : Closed K) (s : State) (d : Die) (t : Tile) (o : OpRec) (a : Nat) (bs : List Byte)
    (hs : Ok K s) :
    Ok K (State.cnvWrite s d t o a bs) := by
  unfold State.cnvWrite
  repeat' first
    | with_reducible first | assumption | apply ok_ite | apply State.withhold_ok hK | apply State.writeSpan_ok hK
    | with_reducible first | apply State.sendWrites_ok hK
    | split
    | with_reducible refine ok_snd (by assumption) ?_

theorem State.cnvQuires_ok (hK : Closed K) (s : State) (d : Die) (t : Tile) (o : OpRec) (fmt : Nat) (base : Nat)
    (stride : Nat) (w : Nat) (qs : List (List Byte × List Byte)) (hs : Ok K s) :
    Ok K (State.cnvQuires s d t o fmt base stride w qs) := by
  unfold State.cnvQuires
  repeat' first
    | with_reducible first | assumption | apply ok_ite | apply State.cnvWrite_ok hK

theorem State.cnvOut_ok (hK : Closed K) (s : State) (d : Die) (t : Tile) (o : OpRec) (c : CnvS) (w : Nat)
    (els : List XV) (draws : List Nat) (codes : List Nat) (hs : Ok K s) :
    Ok K (State.cnvOut s d t o c w els draws codes).2 := by
  unfold State.cnvOut
  repeat' first
    | with_reducible first | assumption | apply ok_ite | apply State.cnvQuires_ok hK | apply State.cnvWrite_ok hK
    | with_reducible first | apply State.raise_ok hK | apply State.brk_ok hK

theorem State.cnvOutBad_ok (hK : Closed K) (s : State) (d : Die) (t : Tile) (o : OpRec) (w : Nat) (hs : Ok K s) :
    Ok K (State.cnvOutBad s d t o w) := by
  unfold State.cnvOutBad
  repeat' first
    | with_reducible first | assumption | apply ok_ite | apply State.cnvQuires_ok hK | apply State.cnvWrite_ok hK

theorem State.chanStat_ok (hK : Closed K) (s : State) (d : Nat) (t : Nat) (ps0 : List (Nat × XV)) (hs : Ok K s) :
    Ok K (State.chanStat s d t ps0) := by
  fun_induction State.chanStat s d t ps0
  all_goals
    repeat' first
      | with_reducible first | assumption | apply State.p_ok hK | apply_assumption

theorem State.cnvVec_ok (hK : Closed K) (s : State) (d : Die) (t : Tile) (o : OpRec) (c : CnvS) (bad : Bool)
    (ys : List XV) (hs : Ok K s) :
    Ok K (State.cnvVec s d t o c bad ys) := by
  unfold State.cnvVec
  repeat' first
    | with_reducible first | assumption | apply ok_ite | apply ok_ite_snd | apply ok_ite_snd3
    | with_reducible first | apply State.readSpan_ok hK | apply State.draw16_ok hK | apply State.setCnv_ok hK
    | with_reducible first | apply State.raise_ok hK | apply State.cnvOutBad_ok hK | apply State.chanStat_ok hK
    | with_reducible first | apply State.cnvOut_ok hK | apply State.brk_ok hK | apply State.genDrawn_ok hK
    | with_reducible first | apply State.cnt_ok hK

theorem execCnvVector_ok (hK : Closed K) (d : Die) (t : Tile) (s : State) (hs : Ok K s) :
    OkOut K (execCnvVector d t s) := by
  unfold execCnvVector
  repeat' first
    | with_reducible first | assumption | apply okOut_ite | apply ok_next | apply State.readSpan_ok hK
    | with_reducible first | apply State.setTile_ok hK | apply State.cnvVec_ok hK
    | (extract_lets +onlyGivenNames v; (fail_if_success (have : ∀ z, v z = v z := fun _ => rfl)); clear_value v)
    | split

theorem State.cnvPush_ok (hK : Closed K) (s : State) (d : Die) (t : Tile) (o : OpRec) (c : CnvS) (hs : Ok K s) :
    Ok K (State.cnvPush s d t o c) := by
  unfold State.cnvPush
  repeat' first
    | with_reducible first | assumption | apply ok_ite | apply State.pushTo_ok hK | apply State.withhold_ok hK
    | with_reducible first | apply State.sendPkt_ok hK
    | split
    | with_reducible refine ok_snd (by assumption) ?_

theorem execCnvComplete_ok (hK : Closed K) (d : Die) (t : Tile) (s : State) (hs : Ok K s) :
    OkOut K (execCnvComplete d t s) := by
  unfold execCnvComplete
  repeat' first
    | with_reducible first | assumption | apply okOut_ite | apply ok_next | apply ok_ite | apply State.cnvPush_ok hK
    | with_reducible first | apply State.opDone_ok hK | apply State.setCnv_ok hK | apply State.observeQ_ok hK
    | split

theorem State.genStateWrite_ok (hK : Closed K) (s : State) (d : Nat) (t : Nat) (g : Nat) (hi : Bool) (v : Word)
    (hs : Ok K s) :
    Ok K (State.genStateWrite s d t g hi v) := by
  unfold State.genStateWrite
  repeat' first
    | with_reducible first | assumption | apply ok_ite | apply State.raise_ok hK | apply State.shakerWrite_ok hK
    | with_reducible first | apply State.fail_ok hK

theorem State.updGenWrite_ok (hK : Closed K) (s : State) (d : Nat) (g : Nat) (hi : Bool) (v : Word) (hs : Ok K s) :
    Ok K (State.updGenWrite s d g hi v) := by
  unfold State.updGenWrite
  repeat' first
    | with_reducible first | assumption | apply ok_ite | apply State.raise_ok hK | apply State.shakerWrite_ok hK
    | with_reducible first | apply State.fail_ok hK

theorem execGenStateWrite_ok (hK : Closed K) (r : Requester) (d : Die) (u : ShakerUnit) (g : Fin 8) (hi : Bool)
    (v : Word) (s : State) (hs : Ok K s) :
    OkOut K (execGenStateWrite r d u g hi v s) := by
  unfold execGenStateWrite
  repeat' first
    | with_reducible assumption
    | intro _
    | with_reducible first | apply ok_next | apply State.regWr_ok hK | apply State.updGenWrite_ok hK
    | with_reducible first | apply State.genStateWrite_ok hK
    | split

end Sys2Proof.Machine
end

