-- ==== Sys2Proof/Laws/OkObs.lean ====
section
/-! SUPPORT. Every operation of Machine/Obs.lean keeps a predicate closed under the primitive updates. -/

set_option linter.unusedTactic false
set_option linter.unreachableTactic false

namespace Sys2Proof.Machine

variable {K : State → Prop}

theorem State.dropWords_ok (hK : Closed K) (s : State) (lo : Nat) (n : Nat) (hs : Ok K s) :
    Ok K (State.dropWords s lo n) := by
  unfold State.dropWords
  repeat' first
    | with_reducible first | assumption | apply State.dropRegs_ok hK

theorem State.clearSat_ok (hK : Closed K) (s : State) (lo : Nat) (n : Nat) (hs : Ok K s) :
    Ok K (State.clearSat s lo n) := by
  unfold State.clearSat
  repeat' first
    | with_reducible assumption
    | intro _
    | with_reducible first | apply State.each_ok hK | apply State.p_ok hK

theorem State.clear64_ok (hK : Closed K) (s : State) (b : CntBlock) (hs : Ok K s) :
    Ok K (State.clear64 s b) := by
  unfold State.clear64
  repeat' first
    | with_reducible first | assumption | apply State.clearSat_ok hK | apply State.dropWords_ok hK

theorem State.clear32_ok (hK : Closed K) (s : State) (b : CntBlock) (hs : Ok K s) :
    Ok K (State.clear32 s b) := by
  unfold State.clear32
  repeat' first
    | with_reducible first | assumption | apply State.dropWords_ok hK

theorem execClear64_ok (hK : Closed K) (r : Requester) (blk : CntBlock) (s : State) (hs : Ok K s) :
    OkOut K (execClear64 r blk s) := by
  unfold execClear64
  repeat' first
    | with_reducible assumption
    | intro _
    | with_reducible first | apply ok_next | apply State.regWr_ok hK | apply State.clear64_ok hK

theorem execClear32_ok (hK : Closed K) (r : Requester) (blk : CntBlock) (s : State) (hs : Ok K s) :
    OkOut K (execClear32 r blk s) := by
  unfold execClear32
  repeat' first
    | with_reducible assumption
    | intro _
    | with_reducible first | apply ok_next | apply State.regWr_ok hK | apply State.clear32_ok hK

theorem State.opcClear_ok (hK : Closed K) (s : State) (d : Nat) (t : Nat) (hs : Ok K s) :
    Ok K (State.opcClear s d t) := by
  unfold State.opcClear
  repeat' first
    | with_reducible first | assumption | apply State.setTile_ok hK

theorem execOpcClear_ok (hK : Closed K) (r : Requester) (d : Die) (t : Tile) (s : State) (hs : Ok K s) :
    OkOut K (execOpcClear r d t s) := by
  unfold execOpcClear
  repeat' first
    | with_reducible assumption
    | intro _
    | with_reducible first | apply ok_next | apply State.regWr_ok hK | apply State.opcClear_ok hK

theorem State.opcCfgWrite_ok (hK : Closed K) (s : State) (d : Nat) (t : Nat) (v : Word) (hs : Ok K s) :
    Ok K (State.opcCfgWrite s d t v) := by
  unfold State.opcCfgWrite
  repeat' first
    | with_reducible first | assumption | apply ok_ite | apply State.p_ok hK | apply State.reserved_ok hK
    | with_reducible first | apply State.opcClear_ok hK

theorem execOpcCfgWrite_ok (hK : Closed K) (r : Requester) (d : Die) (t : Tile) (v : Word) (s : State) (hs : Ok K s) :
    OkOut K (execOpcCfgWrite r d t v s) := by
  unfold execOpcCfgWrite
  repeat' first
    | with_reducible assumption
    | intro _
    | with_reducible first | apply ok_next | apply State.regWr_ok hK | apply State.opcCfgWrite_ok hK

theorem State.pcCapture_ok (hK : Closed K) (s : State) (d : Nat) (t : Nat) (hs : Ok K s) :
    Ok K (State.pcCapture s d t) := by
  unfold State.pcCapture
  repeat' first
    | with_reducible first | assumption | apply State.wr_ok hK | apply State.p_ok hK

theorem State.sampleGo_ok (hK : Closed K) (s : State) (d : Nat) (t : Nat) (hs : Ok K s) :
    Ok K (State.sampleGo s d t) := by
  unfold State.sampleGo
  repeat' first
    | with_reducible assumption
    | intro _
    | with_reducible first | apply State.wr_ok hK | apply State.each_ok hK | apply State.pcCapture_ok hK

theorem execSampleGo_ok (hK : Closed K) (r : Requester) (d : Die) (t : Tile) (s : State) (hs : Ok K s) :
    OkOut K (execSampleGo r d t s) := by
  unfold execSampleGo
  repeat' first
    | with_reducible assumption
    | intro _
    | with_reducible first | apply ok_next | apply State.regWr_ok hK | apply State.sampleGo_ok hK

theorem State.wardenPc_ok (hK : Closed K) (s : State) (d : Nat) (w : Nat) (hs : Ok K s) :
    Ok K (State.wardenPc s d w) := by
  unfold State.wardenPc
  repeat' first
    | with_reducible first | assumption | apply State.draw_ok hK | apply State.p_ok hK

theorem execPcSample_ok (hK : Closed K) (d : Die) (t : Option Tile) (s : State) (hs : Ok K s) :
    OkOut K (execPcSample d t s) := by
  unfold execPcSample
  repeat' first
    | with_reducible assumption
    | intro _
    | with_reducible first | apply okOut_ite | apply ok_next | apply State.wardenPc_ok hK | apply State.trace_ok hK
    | with_reducible first | apply State.each_ok hK | apply State.pcCapture_ok hK
    | split

theorem State.snapUnit_ok (hK : Closed K) (s0 : State) (d : Nat) (s : State) (u : Nat) (hs0 : Ok K s0) (hs : Ok K s) :
    Ok K (State.snapUnit s0 d s u) := by
  unfold State.snapUnit
  repeat' first
    | with_reducible first | assumption | apply State.wrWords_ok hK

theorem State.snapGo_ok (hK : Closed K) (s : State) (d : Nat) (hs : Ok K s) :
    Ok K (State.snapGo s d) := by
  unfold State.snapGo
  repeat' first
    | with_reducible assumption
    | intro _
    | with_reducible first | apply State.wr_ok hK | apply State.each_ok hK | apply State.snapUnit_ok hK

theorem execSnapGo_ok (hK : Closed K) (r : Requester) (d : Die) (s : State) (hs : Ok K s) :
    OkOut K (execSnapGo r d s) := by
  unfold execSnapGo
  repeat' first
    | with_reducible assumption
    | intro _
    | with_reducible first | apply ok_next | apply State.regWr_ok hK | apply State.snapGo_ok hK

theorem State.dobRaiseWrite_ok (hK : Closed K) (s : State) (r : Requester) (d : Nat) (v : Word) (hs : Ok K s) :
    Ok K (State.dobRaiseWrite s r d v) := by
  unfold State.dobRaiseWrite
  repeat' first
    | with_reducible first | assumption | apply ok_ite | apply State.raise_ok hK | apply State.reserved_ok hK

theorem execDobRaise_ok (hK : Closed K) (r : Requester) (d : Die) (v : Word) (s : State) (hs : Ok K s) :
    OkOut K (execDobRaise r d v s) := by
  unfold execDobRaise
  repeat' first
    | with_reducible assumption
    | intro _
    | with_reducible first | apply ok_next | apply State.dobRaiseWrite_ok hK | apply State.regWr_ok hK

end Sys2Proof.Machine
end

