-- ==== Sys2Proof/Laws/OkStaging.lean ====
section
/-! SUPPORT. Every operation of Machine/Staging.lean keeps a predicate closed under the primitive updates. -/

set_option linter.unusedTactic false
set_option linter.unreachableTactic false

namespace Sys2Proof.Machine

variable {K : State → Prop}

theorem State.setWindow_ok (hK : Closed K) (s : State) (bs : List Byte) (hs : Ok K s) :
    Ok K (State.setWindow s bs) := by
  unfold State.setWindow
  repeat' first
    | with_reducible first | assumption | apply State.wrWords_ok hK

theorem State.secP_ok (hK : Closed K) (s : State) (f : RF) (v : Nat) (hs : Ok K s) :
    Ok K (State.secP s f v) := by
  unfold State.secP
  repeat' first
    | with_reducible first | assumption | apply State.p_ok hK

theorem State.stageRefuse_ok (hK : Closed K) (s : State) (hs : Ok K s) :
    Ok K (State.stageRefuse s) := by
  unfold State.stageRefuse
  repeat' first
    | with_reducible first | assumption | apply State.secRaise_ok hK | apply State.secP_ok hK

theorem State.stageDo_ok (hK : Closed K) (s : State) (op : Nat) (blk : Nat) (win : List Byte) (hs : Ok K s) :
    Ok K (State.stageDo s op blk win) := by
  unfold State.stageDo
  repeat' first
    | with_reducible first | assumption | apply State.setSec_ok hK | apply State.flashErase_ok hK
    | with_reducible first | apply State.flashWrite_ok hK | apply State.dirWrite_ok hK
    | split

theorem State.stageEnd_ok (hK : Closed K) (s : State) (op : Nat) (blk : Nat) (ok : Bool) (hs : Ok K s) :
    Ok K (State.stageEnd s op blk ok).2 := by
  unfold State.stageEnd
  repeat' first
    | with_reducible first | assumption | apply ok_ite | apply ok_ite_snd | apply State.setSec_ok hK
    | with_reducible first | apply State.secP_ok hK

theorem State.stageStart_ok (hK : Closed K) (s : State) (op : Nat) (blk : Nat) (win : List Byte) (hs : Ok K s) :
    Ok K (State.stageStart s op blk win).2 := by
  unfold State.stageStart
  repeat' first
    | with_reducible first | assumption | apply ok_ite_snd | apply State.stageDo_ok hK | apply State.stageRefuse_ok hK
    | with_reducible first | apply State.secP_ok hK

theorem State.stageWrite_ok (hK : Closed K) (s : State) (v : Word) (hs : Ok K s) :
    Ok K (State.stageWrite s v) := by
  unfold State.stageWrite
  repeat' first
    | with_reducible first | assumption | apply ok_ite | apply State.stageStart_ok hK | apply State.p_ok hK

theorem State.stageOp_ok (hK : Closed K) (s : State) (r : Requester) (op : Nat) (v : Word) (hs : Ok K s) :
    Ok K (State.stageOp s r op v) := by
  unfold State.stageOp
  repeat' first
    | with_reducible assumption
    | intro _
    | with_reducible first | apply State.regWr_ok hK | apply State.stageWrite_ok hK

theorem execStageBegin_ok (hK : Closed K) (r : Requester) (v : Word) (s : State) (hs : Ok K s) :
    OkOut K (execStageBegin r v s) := by
  unfold execStageBegin
  repeat' first
    | with_reducible first | assumption | apply ok_next | apply State.stageOp_ok hK

theorem execStageBlock_ok (hK : Closed K) (r : Requester) (v : Word) (s : State) (hs : Ok K s) :
    OkOut K (execStageBlock r v s) := by
  unfold execStageBlock
  repeat' first
    | with_reducible first | assumption | apply ok_next | apply State.stageOp_ok hK

theorem execStageFinish_ok (hK : Closed K) (r : Requester) (v : Word) (s : State) (hs : Ok K s) :
    OkOut K (execStageFinish r v s) := by
  unfold execStageFinish
  repeat' first
    | with_reducible first | assumption | apply ok_next | apply State.stageOp_ok hK

theorem execStageActivate_ok (hK : Closed K) (r : Requester) (v : Word) (s : State) (hs : Ok K s) :
    OkOut K (execStageActivate r v s) := by
  unfold execStageActivate
  repeat' first
    | with_reducible first | assumption | apply ok_next | apply State.stageOp_ok hK

theorem execStageAbort_ok (hK : Closed K) (r : Requester) (v : Word) (s : State) (hs : Ok K s) :
    OkOut K (execStageAbort r v s) := by
  unfold execStageAbort
  repeat' first
    | with_reducible first | assumption | apply ok_next | apply State.stageOp_ok hK

theorem State.setDist_ok (hK : Closed K) (s : State) (x : DistS) (hs : Ok K s) :
    Ok K (State.setDist s x) := by
  unfold State.setDist
  repeat' first
    | with_reducible first | assumption | apply State.setM_ok hK

theorem State.fwSend_ok (hK : Closed K) (s : State) (q : Nat) (blk : Nat) (hs : Ok K s) :
    Ok K (State.fwSend s q blk) := by
  unfold State.fwSend
  repeat' first
    | with_reducible assumption
    | intro _
    | with_reducible first | apply State.each_ok hK | apply State.scSend_ok hK

theorem State.fwPeer_ok (hK : Closed K) (s : State) (q : Nat) (x : FwPeer) (hs : Ok K s) :
    Ok K (State.fwPeer s q x) := by
  unfold State.fwPeer
  repeat' first
    | with_reducible first | assumption | apply State.setDist_ok hK

theorem State.fwPump_ok (hK : Closed K) (s : State) (x : FwPeer) (ps0 : Nat) (hs : Ok K s) :
    Ok K (State.fwPump s x ps0) := by
  fun_induction State.fwPump s x ps0
  all_goals
    repeat' first
      | with_reducible first | assumption | apply State.fwSend_ok hK | apply State.scSend_ok hK
      | with_reducible first | apply State.fwPeer_ok hK | apply_assumption

theorem State.fwPumpAll_ok (hK : Closed K) (s : State) (hs : Ok K s) :
    Ok K (State.fwPumpAll s) := by
  unfold State.fwPumpAll
  repeat' first
    | with_reducible assumption
    | intro _
    | with_reducible first | apply State.fwPump_ok hK | apply State.each_ok hK

theorem execFwStart_ok (hK : Closed K) (p : Port) (m : List Byte) (s : State) (hs : Ok K s) :
    OkOut K (execFwStart p m s) := by
  unfold execFwStart
  repeat' first
    | with_reducible assumption
    | intro _
    | with_reducible first | apply okOut_ite | apply ok_next | apply State.each_ok hK | apply State.scSend_ok hK
    | with_reducible first | apply State.setDist_ok hK

theorem State.fwStage_ok (hK : Closed K) (s : State) (hs : Ok K s) :
    Ok K (State.fwStage s) := by
  unfold State.fwStage
  repeat' first
    | with_reducible first | assumption | apply ok_ite | apply State.stageStart_ok hK | apply State.setWindow_ok hK
    | with_reducible first | apply State.scSend_ok hK | apply State.setDist_ok hK
    | (extract_lets +onlyGivenNames v; (fail_if_success (have : ∀ z, v z = v z := fun _ => rfl)); clear_value v)
    | split
    | with_reducible refine ok_snd (by assumption) ?_

theorem execFwData_ok (hK : Closed K) (p : Port) (m : List Byte) (s : State) (hs : Ok K s) :
    OkOut K (execFwData p m s) := by
  unfold execFwData
  repeat' first
    | with_reducible first | assumption | apply okOut_ite | apply ok_next | apply State.fwStage_ok hK
    | with_reducible first | apply State.scSend_ok hK | apply State.setDist_ok hK

theorem execFwAck_ok (hK : Closed K) (p : Port) (m : List Byte) (s : State) (hs : Ok K s) :
    OkOut K (execFwAck p m s) := by
  unfold execFwAck
  repeat' first
    | with_reducible first | assumption | apply okOut_ite | apply ok_next | apply ok_ite | apply State.fwSend_ok hK
    | with_reducible first | apply State.fwPump_ok hK | apply State.setDist_ok hK | apply State.fwPeer_ok hK
    | (extract_lets +onlyGivenNames v; (fail_if_success (have : ∀ z, v z = v z := fun _ => rfl)); clear_value v)
    | split

theorem execFwDone_ok (hK : Closed K) (p : Port) (m : List Byte) (s : State) (hs : Ok K s) :
    OkOut K (execFwDone p m s) := by
  unfold execFwDone
  repeat' first
    | with_reducible first | assumption | apply okOut_ite | apply ok_next | apply State.stageStart_ok hK
    | with_reducible first | apply State.scSend_ok hK | apply State.setDist_ok hK
    | split
    | with_reducible refine ok_snd (by assumption) ?_

theorem State.fwStaged_ok (hK : Closed K) (s : State) (result : Nat) (hs : Ok K s) :
    Ok K (State.fwStaged s result) := by
  unfold State.fwStaged
  repeat' first
    | with_reducible first | assumption | apply ok_ite | apply State.stageStart_ok hK | apply State.fwStage_ok hK
    | with_reducible first | apply State.fwPumpAll_ok hK | apply State.scSend_ok hK | apply State.setDist_ok hK
    | (extract_lets +onlyGivenNames v; have hv : Ok K v := ?_; clear_value v; pick_goal 2; subst v)
    | (extract_lets +onlyGivenNames v; (fail_if_success (have : ∀ z, v z = v z := fun _ => rfl)); clear_value v)
    | split
    | with_reducible refine ok_snd (by assumption) ?_

theorem execStageOpEnd_ok (hK : Closed K) (ok : Bool) (s : State) (hs : Ok K s) :
    OkOut K (execStageOpEnd ok s) := by
  unfold execStageOpEnd
  repeat' first
    | with_reducible first | assumption | apply okOut_ite | apply ok_next | apply ok_ite | apply State.fwStaged_ok hK
    | with_reducible first | apply State.stageEnd_ok hK | apply State.restartCold_ok hK
    | with_reducible first | apply State.restartWarm_ok hK | apply State.setBoot_ok hK
    | (extract_lets +onlyGivenNames v; have hv : Ok K v := ?_; clear_value v; pick_goal 2; subst v)
    | (extract_lets +onlyGivenNames v; (fail_if_success (have : ∀ z, v z = v z := fun _ => rfl)); clear_value v)
    | split
    | with_reducible refine ok_snd (by assumption) ?_

theorem State.recSend_ok (hK : Closed K) (s : State) (m : List Byte) (hs : Ok K s) :
    Ok K (State.recSend s m) := by
  unfold State.recSend
  repeat' first
    | with_reducible first | assumption | apply State.ethEmit_ok hK

theorem execHello_ok (hK : Closed K) (s : State) (hs : Ok K s) :
    OkOut K (execHello s) := by
  unfold execHello
  repeat' first
    | with_reducible first | assumption | apply okOut_ite | apply ok_next | apply State.recSend_ok hK

theorem State.stageWhole_ok (hK : Closed K) (s : State) (op : Nat) (blk : Nat) (win : List Byte) (ok : Bool)
    (hs : Ok K s) :
    Ok K (State.stageWhole s op blk win ok).2 := by
  unfold State.stageWhole
  repeat' first
    | with_reducible first | assumption | apply State.stageStart_ok hK | apply State.stageEnd_ok hK
    | split
    | with_reducible refine ok_snd (by assumption) ?_

theorem execRecoveryBlock_ok (hK : Closed K) (m : List Byte) (s : State) (hs : Ok K s) :
    OkOut K (execRecoveryBlock m s) := by
  unfold execRecoveryBlock
  repeat' first
    | with_reducible first | assumption | apply okOut_ite | apply ok_next | apply State.stageWhole_ok hK
    | with_reducible first | apply State.recSend_ok hK

theorem execActivate_ok (hK : Closed K) (m : List Byte) (s : State) (hs : Ok K s) :
    OkOut K (execActivate m s) := by
  unfold execActivate
  repeat' first
    | with_reducible first | assumption | apply okOut_ite | apply ok_next | apply State.stageWhole_ok hK
    | with_reducible first | apply State.restartCold_ok hK

theorem State.drawWords_ok (hK : Closed K) (s : State) (a : Nat) (ps0 : Nat) (hs : Ok K s) :
    Ok K (State.drawWords s a ps0) := by
  fun_induction State.drawWords s a ps0
  all_goals
    repeat' first
      | with_reducible first | assumption | apply State.draw_ok hK | apply State.wr_ok hK
      | with_reducible first | refine ok_snd (by assumption) ?_ | apply_assumption

theorem State.newChal_ok (hK : Closed K) (s : State) (hs : Ok K s) :
    Ok K (State.newChal s) := by
  unfold State.newChal
  repeat' first
    | with_reducible first | assumption | apply State.drawWords_ok hK | apply State.setSec_ok hK

theorem execDbgNewChal_ok (hK : Closed K) (r : Requester) (s : State) (hs : Ok K s) :
    OkOut K (execDbgNewChal r s) := by
  unfold execDbgNewChal
  repeat' first
    | with_reducible assumption
    | intro _
    | with_reducible first | apply ok_next | apply State.newChal_ok hK | apply State.regWr_ok hK

theorem State.dbgCheck_ok (hK : Closed K) (s : State) (hs : Ok K s) :
    Ok K (State.dbgCheck s) := by
  unfold State.dbgCheck
  repeat' first
    | with_reducible first | assumption | apply ok_ite | apply State.secRaise_ok hK | apply State.setSec_ok hK
    | with_reducible first | apply State.secP_ok hK

theorem execDbgCheck_ok (hK : Closed K) (r : Requester) (s : State) (hs : Ok K s) :
    OkOut K (execDbgCheck r s) := by
  unfold execDbgCheck
  repeat' first
    | with_reducible assumption
    | intro _
    | with_reducible first | apply ok_next | apply State.regWr_ok hK | apply State.dbgCheck_ok hK

theorem State.pwWrite_ok (hK : Closed K) (s : State) (hs : Ok K s) :
    Ok K (State.pwWrite s) := by
  unfold State.pwWrite
  repeat' first
    | with_reducible first | assumption | apply ok_ite | apply State.setSec_ok hK | apply State.secP_ok hK

theorem execDbgPwWrite_ok (hK : Closed K) (r : Requester) (s : State) (hs : Ok K s) :
    OkOut K (execDbgPwWrite r s) := by
  unfold execDbgPwWrite
  repeat' first
    | with_reducible assumption
    | intro _
    | with_reducible first | apply ok_next | apply State.pwWrite_ok hK | apply State.regWr_ok hK

theorem State.dbgCtlWrite_ok (hK : Closed K) (s : State) (v : Word) (hs : Ok K s) :
    Ok K (State.dbgCtlWrite s v) := by
  unfold State.dbgCtlWrite
  repeat' first
    | with_reducible first | assumption | apply ok_ite | apply State.newChal_ok hK | apply State.pwWrite_ok hK
    | with_reducible first | apply State.p_ok hK | apply State.dbgCheck_ok hK

theorem execJtagInstruction_ok (hK : Closed K) (ir : JtagIr) (s : State) (hs : Ok K s) :
    OkOut K (execJtagInstruction ir s) := by
  unfold execJtagInstruction
  repeat' first
    | with_reducible first | assumption | apply ok_next | apply State.setSec_ok hK

end Sys2Proof.Machine
end

