-- ==== Sys2Proof/Laws/OkUpd.lean ====
section
/-! SUPPORT. Every operation of Machine/Upd.lean keeps a predicate closed under the primitive updates. -/

set_option linter.unusedTactic false
set_option linter.unreachableTactic false

namespace Sys2Proof.Machine

variable {K : State → Prop}

theorem State.setUpd_ok (hK : Closed K) (s : State) (d : Nat) (u : UpdUnitS) (hs : Ok K s) :
    Ok K (State.setUpd s d u) := by
  unfold State.setUpd
  repeat' first
    | with_reducible first | assumption | apply State.setDie_ok hK

theorem State.setUpdCur_ok (hK : Closed K) (s : State) (d : Nat) (c : Option UpdS) (hs : Ok K s) :
    Ok K (State.setUpdCur s d c) := by
  unfold State.setUpdCur
  repeat' first
    | with_reducible first | assumption | apply State.setUpd_ok hK

theorem State.mirrorSettle_ok (hK : Closed K) (s : State) (d : Nat) (hs : Ok K s) :
    Ok K (State.mirrorSettle s d) := by
  unfold State.mirrorSettle
  repeat' first
    | with_reducible first | assumption | apply State.setDie_ok hK

theorem execUpdSubmit_ok (hK : Closed K) (r : Requester) (d : Die) (v : Word) (s : State) (hs : Ok K s) :
    OkOut K (execUpdSubmit r d v s) := by
  unfold execUpdSubmit
  repeat' first
    | with_reducible first | assumption | apply ok_next | apply State.submit_ok hK

theorem State.updFlush_ok (hK : Closed K) (s : State) (d : Nat) (hs : Ok K s) :
    Ok K (State.updFlush s d) := by
  unfold State.updFlush
  repeat' first
    | with_reducible first | assumption | apply State.engFlush_ok hK | apply State.setUpd_ok hK

theorem execUpdQueueClear_ok (hK : Closed K) (r : Requester) (d : Die) (s : State) (hs : Ok K s) :
    OkOut K (execUpdQueueClear r d s) := by
  unfold execUpdQueueClear
  repeat' first
    | with_reducible assumption
    | intro _
    | with_reducible first | apply ok_next | apply State.updFlush_ok hK | apply State.regWr_ok hK

theorem State.updDrop_ok (hK : Closed K) (s : State) (d : Nat) (q : QDesc) (add : Bool) (hs : Ok K s) :
    Ok K (State.updDrop s d q add) := by
  unfold State.updDrop
  repeat' first
    | with_reducible first | assumption | apply ok_ite | apply State.doneAdd_ok hK | apply State.engPop_ok hK
    | with_reducible first | apply State.setUpd_ok hK

theorem State.updSkip_ok (hK : Closed K) (s : State) (d : Nat) (q : QDesc) (hs : Ok K s) :
    Ok K (State.updSkip s d q) := by
  unfold State.updSkip
  repeat' first
    | with_reducible first | assumption | apply State.updDrop_ok hK | apply State.dbrk_ok hK

theorem State.updVerdict_ok (hK : Closed K) (s : State) (d : Nat) (q : QDesc) (hs : Ok K s) :
    Ok K (State.updVerdict s d q).2 := by
  unfold State.updVerdict
  repeat' first
    | with_reducible first | assumption | apply ok_ite_snd | apply State.raise_ok hK
    | split

theorem State.updStart_ok (hK : Closed K) (s : State) (d : Nat) (q : QDesc) (parm : List Byte) (hs : Ok K s) :
    Ok K (State.updStart s d q parm) := by
  unfold State.updStart
  repeat' first
    | with_reducible first | assumption | apply ok_ite | apply State.updDrop_ok hK | apply State.updVerdict_ok hK
    | with_reducible first | apply State.updSkip_ok hK | apply State.setDie_ok hK | apply State.readLine_ok hK
    | with_reducible first | apply State.raise_ok hK | apply State.engPop_ok hK
    | (extract_lets +onlyGivenNames v; (fail_if_success (have : ∀ z, v z = v z := fun _ => rfl)); clear_value v)
    | split
    | with_reducible refine ok_snd (by assumption) ?_

theorem execUpdBegin_ok (hK : Closed K) (d : Die) (s : State) (hs : Ok K s) :
    OkOut K (execUpdBegin d s) := by
  unfold execUpdBegin
  repeat' first
    | with_reducible first | assumption | apply okOut_ite | apply ok_next | apply State.readSpan_ok hK
    | with_reducible first | apply State.updDrop_ok hK | apply State.updSkip_ok hK | apply State.raise_ok hK
    | with_reducible first | apply State.dcnt_ok hK | apply State.updStart_ok hK | apply State.setUpd_ok hK
    | (extract_lets +onlyGivenNames v; (fail_if_success (have : ∀ z, v z = v z := fun _ => rfl)); clear_value v)
    | split
    | with_reducible refine ok_snd (by assumption) ?_

theorem State.prepassBlocks_ok (hK : Closed K) (s : State) (d : Nat) (base : Nat) (i : Nat) (ps0 : Nat) (hs : Ok K s)
    :
    Ok K (State.prepassBlocks s d base i ps0).2 := by
  fun_induction State.prepassBlocks s d base i ps0
  all_goals
    repeat' first
      | with_reducible first | assumption | apply State.readSpan_ok hK | refine ok_snd (by assumption) ?_
      | with_reducible first | apply_assumption

theorem State.ledgerHdr_ok (hK : Closed K) (s : State) (d : Nat) (x : Desc) (i : Nat) (stride : Nat) (hs : Ok K s) :
    Ok K (State.ledgerHdr s d x i stride).2 := by
  unfold State.ledgerHdr
  repeat' first
    | with_reducible first | assumption | apply State.readLine_ok hK
    | split
    | with_reducible refine ok_snd (by assumption) ?_

theorem State.prepassRows_ok (hK : Closed K) (s : State) (d : Nat) (x : Desc) (D : Nat) (nrows : Nat) (i : Nat)
    (ps0 : Nat) (hs : Ok K s) :
    Ok K (State.prepassRows s d x D nrows i ps0).2 := by
  fun_induction State.prepassRows s d x D nrows i ps0
  all_goals
    repeat' first
      | with_reducible first | assumption | apply State.readSpan_ok hK | apply State.ledgerHdr_ok hK
      | with_reducible first | refine ok_snd (by assumption) ?_ | apply_assumption

theorem execUpdPrepass_ok (hK : Closed K) (d : Die) (s : State) (hs : Ok K s) :
    OkOut K (execUpdPrepass d s) := by
  unfold execUpdPrepass
  repeat' first
    | with_reducible first | assumption | apply okOut_ite | apply ok_next | apply State.largest_ok hK | apply ok_ite_snd | apply State.dcnt_ok hK
    | with_reducible first | apply State.setUpdCur_ok hK | apply State.prepassRows_ok hK
    | with_reducible first | apply State.prepassBlocks_ok hK
    | split

theorem execUpdFirstLane_ok (hK : Closed K) (d : Die) (s : State) (hs : Ok K s) :
    OkOut K (execUpdFirstLane d s) := by
  unfold execUpdFirstLane
  repeat' first
    | with_reducible first | assumption | apply okOut_ite | apply ok_next | apply State.setUpdCur_ok hK
    | split

theorem State.updRecord_ok (hK : Closed K) (s : State) (d : Nat) (q : QDesc) (addr : Nat) (cause : Nat) (hs : Ok K s)
    :
    Ok K (State.updRecord s d q addr cause) := by
  unfold State.updRecord
  repeat' first
    | with_reducible first | assumption | apply State.record_ok hK

theorem State.updRefused_ok (hK : Closed K) (s : State) (d : Nat) (addr : Nat) (cause : Nat) (hs : Ok K s) :
    Ok K (State.updRefused s d addr cause) := by
  unfold State.updRefused
  repeat' first
    | with_reducible first | assumption | apply ok_ite | apply State.updRecord_ok hK | apply State.setUpd_ok hK
    | split

theorem State.updPut_ok (hK : Closed K) (s : State) (d : Nat) (a : Nat) (ps0 : List (Nat × List Byte)) (hs : Ok K s) :
    Ok K (State.updPut s d a ps0) := by
  fun_induction State.updPut s d a ps0
  all_goals
    repeat' first
      | with_reducible first | assumption | apply State.writeSpan_ok hK | apply State.updRefused_ok hK
      | with_reducible first | refine ok_snd (by assumption) ?_ | apply_assumption

theorem State.updWrite_ok (hK : Closed K) (s : State) (d : Nat) (a : Nat) (bs : List (Option Byte)) (hs : Ok K s) :
    Ok K (State.updWrite s d a bs) := by
  unfold State.updWrite
  repeat' first
    | with_reducible first | assumption | apply State.updPut_ok hK

theorem State.parityDelta_ok (hK : Closed K) (s : State) (d : Nat) (base : Nat) (addr : Nat) (old : List Byte)
    (new : List Byte) (hs : Ok K s) :
    Ok K (State.parityDelta s d base addr old new) := by
  unfold State.parityDelta
  repeat' first
    | with_reducible first | assumption | apply ok_ite | apply State.wr_ok hK | apply State.sendPkt_ok hK
    | split

theorem State.shardLine_ok (hK : Closed K) (s : State) (d : Nat) (base : Nat) (addr : Nat) (old : List Byte)
    (new : List Byte) (hs : Ok K s) :
    Ok K (State.shardLine s d base addr old new) := by
  unfold State.shardLine
  repeat' first
    | with_reducible first | assumption | apply State.writeSpan_ok hK | apply State.updRefused_ok hK
    | with_reducible first | apply State.parityDelta_ok hK
    | split
    | with_reducible refine ok_snd (by assumption) ?_

theorem State.updDraws_ok (hK : Closed K) (s : State) (d : Nat) (k : Nat) (left : List (List Nat)) (ps0 : Nat)
    (hs : Ok K s) :
    Ok K (State.updDraws s d k left ps0).2.2 := by
  fun_induction State.updDraws s d k left ps0
  all_goals
    repeat' first
      | with_reducible first | assumption | apply State.draw16_ok hK | refine ok_snd3 (by assumption) ?_
      | with_reducible first | apply_assumption

theorem State.blockRead_ok (hK : Closed K) (s : State) (d : Nat) (c : UpdS) (hs : Ok K s) :
    Ok K (State.blockRead s d c).2 := by
  unfold State.blockRead
  repeat' first
    | with_reducible first | assumption | apply ok_ite_snd | apply State.readSpan_ok hK

theorem State.statCol_ok (hK : Closed K) (s : State) (old : Option Nat) (prods : List XV) (hs : Ok K s) :
    Ok K (State.statCol s old prods).2 := by
  unfold State.statCol
  repeat' first
    | with_reducible first | assumption | apply ok_ite_snd | apply State.draw_ok hK
    | split

theorem State.statCols_ok (hK : Closed K) (s : State) (ps0 : List (Option Nat × List XV)) (hs : Ok K s) :
    Ok K (State.statCols s ps0).2 := by
  fun_induction State.statCols s ps0
  all_goals
    repeat' first
      | with_reducible first | assumption | apply State.statCol_ok hK | refine ok_snd (by assumption) ?_
      | with_reducible first | apply_assumption

theorem State.blockStats_ok (hK : Closed K) (s : State) (d : Nat) (c : UpdS) (b : BlockIn)
    (outs : List (Option ElemOut)) (hs : Ok K s) :
    Ok K (State.blockStats s d c b outs) := by
  unfold State.blockStats
  repeat' first
    | with_reducible first | assumption | apply ok_ite | apply State.readSpan_ok hK | apply State.updWrite_ok hK
    | with_reducible first | apply State.statCols_ok hK

theorem State.blockNarrow_ok (hK : Closed K) (s : State) (d : Nat) (c : UpdS) (b : BlockIn)
    (outs : List (Option ElemOut)) (ds : List (List Nat)) (k : Nat) (hs : Ok K s) :
    Ok K (State.blockNarrow s d c b outs ds k) := by
  unfold State.blockNarrow
  repeat' first
    | with_reducible first | assumption | apply ok_ite | apply State.raise_ok hK | apply State.updWrite_ok hK
    | with_reducible first | apply State.dbrk_ok hK

theorem State.blockBwd_ok (hK : Closed K) (s : State) (d : Nat) (c : UpdS) (b : BlockIn)
    (outs : List (Option ElemOut)) (ds : List (List Nat)) (k : Nat) (hs : Ok K s) :
    Ok K (State.blockBwd s d c b outs ds k) := by
  unfold State.blockBwd
  repeat' first
    | with_reducible first | assumption | apply ok_ite | apply State.p_ok hK | apply State.updWrite_ok hK
    | with_reducible first | apply State.dbrk_ok hK

theorem State.updNote_ok (hK : Closed K) (s : State) (d : Nat) (f : UpdS → UpdS) (hs : Ok K s) :
    Ok K (State.updNote s d f) := by
  unfold State.updNote
  repeat' first
    | with_reducible first | assumption | apply State.setUpdCur_ok hK
    | split

theorem State.updNonfinite_ok (hK : Closed K) (s : State) (d : Nat) (c : UpdS) (n : Nat) (hs : Ok K s) :
    Ok K (State.updNonfinite s d c n) := by
  unfold State.updNonfinite
  repeat' first
    | with_reducible first | assumption | apply ok_ite | apply State.raise_ok hK | apply State.dbrk_ok hK

theorem State.updBlock_ok (hK : Closed K) (s : State) (d : Nat) (c : UpdS) (lrExp : Int) (hs : Ok K s) :
    Ok K (State.updBlock s d c lrExp) := by
  unfold State.updBlock
  repeat' first
    | with_reducible first | assumption | apply ok_ite | apply ok_ite_snd3 | apply State.blockStats_ok hK
    | with_reducible first | apply State.blockNarrow_ok hK | apply State.updNote_ok hK | apply State.blockBwd_ok hK
    | with_reducible first | apply State.blockRead_ok hK | apply State.dcnt_ok hK | apply State.updNonfinite_ok hK
    | with_reducible first | apply State.updWrite_ok hK | apply State.updDraws_ok hK | apply State.dbrk_ok hK

theorem State.rowLines_ok (hK : Closed K) (s : State) (d : Nat) (base : Nat) (addr : Nat)
    (ps0 : List (List Byte × Option (List Byte))) (hs : Ok K s) :
    Ok K (State.rowLines s d base addr ps0) := by
  fun_induction State.rowLines s d base addr ps0
  all_goals
    repeat' first
      | with_reducible first | assumption | apply State.shardLine_ok hK | apply_assumption

theorem State.updRowWrite_ok (hK : Closed K) (s : State) (d : Nat) (c : UpdS) (lrExp : Int) (row : Nat) (count : Nat)
    (hs : Ok K s) :
    Ok K (State.updRowWrite s d c lrExp row count) := by
  unfold State.updRowWrite
  repeat' first
    | with_reducible first | assumption | apply State.readSpan_ok hK | apply State.updNote_ok hK
    | with_reducible first | apply State.rowLines_ok hK | apply State.dcnt_ok hK | apply State.updNonfinite_ok hK
    | (extract_lets +onlyGivenNames v; (fail_if_success (have : ∀ z, v z = v z := fun _ => rfl)); clear_value v)
    | split
    | with_reducible refine ok_snd (by assumption) ?_

theorem State.updEntry_ok (hK : Closed K) (s : State) (d : Nat) (c : UpdS) (lrExp : Int) (hs : Ok K s) :
    Ok K (State.updEntry s d c lrExp) := by
  unfold State.updEntry
  repeat' first
    | with_reducible first | assumption | apply ok_ite | apply State.updNote_ok hK | apply State.ledgerHdr_ok hK
    | with_reducible first | apply State.raise_ok hK | apply State.dcnt_ok hK | apply State.updRowWrite_ok hK
    | with_reducible first | apply State.dbrk_ok hK

theorem State.mirrorLost_ok (hK : Closed K) (s : State) (d : Nat) (n : Nat) (addr : Nat) (cause : Nat) (hs : Ok K s) :
    Ok K (State.mirrorLost s d n addr cause) := by
  unfold State.mirrorLost
  repeat' first
    | with_reducible first | assumption | apply ok_ite | apply State.updRecord_ok hK | apply State.setUpd_ok hK
    | split

theorem State.mirrorCopy_ok (hK : Closed K) (s : State) (d : Nat) (m : MirrorS) (src : Nat) (dst : Nat) (n : Nat)
    (hs : Ok K s) :
    Ok K (State.mirrorCopy s d m src dst n) := by
  unfold State.mirrorCopy
  repeat' first
    | with_reducible assumption
    | intro _
    | with_reducible first | apply ok_ite | apply State.readSpan_ok hK | apply State.sendWrites_ok hK
    | with_reducible first | apply State.mirrorLost_ok hK | apply ok_foldl

theorem State.mirrorBlocks_ok (hK : Closed K) (s : State) (d : Nat) (m : MirrorS) (src : Nat) (dst : Nat) (i : Nat)
    (ps0 : Nat) (hs : Ok K s) :
    Ok K (State.mirrorBlocks s d m src dst i ps0) := by
  fun_induction State.mirrorBlocks s d m src dst i ps0
  all_goals
    repeat' first
      | with_reducible first | assumption | apply State.mirrorCopy_ok hK | apply_assumption

theorem State.mirrorPump_ok (hK : Closed K) (s : State) (d : Nat) (n : Nat) (hs : Ok K s) :
    Ok K (State.mirrorPump s d n) := by
  unfold State.mirrorPump
  repeat' first
    | with_reducible first | assumption | apply ok_ite | apply State.mirrorBlocks_ok hK | apply State.mirrorCopy_ok hK
    | with_reducible first | apply State.mirrorSettle_ok hK | apply State.setUpd_ok hK
    | split

theorem State.mirrorNote_ok (hK : Closed K) (s : State) (d : Nat) (n : Nat) (f : MirrorS → MirrorS) (hs : Ok K s) :
    Ok K (State.mirrorNote s d n f) := by
  unfold State.mirrorNote
  repeat' first
    | with_reducible first | assumption | apply State.mirrorPump_ok hK | apply State.setUpd_ok hK

theorem execUpdBlockWritten_ok (hK : Closed K) (d : Die) (s : State) (hs : Ok K s) :
    OkOut K (execUpdBlockWritten d s) := by
  unfold execUpdBlockWritten
  repeat' first
    | with_reducible first | assumption | apply okOut_ite | apply ok_next | apply State.updBlock_ok hK
    | with_reducible first | apply State.updEntry_ok hK | apply State.mirrorNote_ok hK
    | split

theorem execUpdHeaderWrite_ok (hK : Closed K) (d : Die) (s : State) (hs : Ok K s) :
    OkOut K (execUpdHeaderWrite d s) := by
  unfold execUpdHeaderWrite
  repeat' first
    | with_reducible first | assumption | apply okOut_ite | apply ok_next | apply State.largest_ok hK | apply ok_ite | apply State.shardLine_ok hK
    | with_reducible first | apply State.setDie_ok hK | apply State.mirrorNote_ok hK | apply State.updWrite_ok hK
    | (extract_lets +onlyGivenNames v; (fail_if_success (have : ∀ z, v z = v z := fun _ => rfl)); clear_value v)
    | split

theorem execUpdComplete_ok (hK : Closed K) (d : Die) (s : State) (hs : Ok K s) :
    OkOut K (execUpdComplete d s) := by
  unfold execUpdComplete
  repeat' first
    | with_reducible first | assumption | apply ok_next | apply ok_ite | apply State.doneAdd_ok hK
    | with_reducible first | apply State.setUpd_ok hK
    | (extract_lets +onlyGivenNames v; (fail_if_success (have : ∀ z, v z = v z := fun _ => rfl)); clear_value v)
    | split

theorem execMirrorStart_ok (hK : Closed K) (d : Die) (s : State) (hs : Ok K s) :
    OkOut K (execMirrorStart d s) := by
  unfold execMirrorStart
  repeat' first
    | with_reducible first | assumption | apply okOut_ite | apply ok_next | apply State.mirrorNote_ok hK
    | split

theorem execMirrorRemoteAdd_ok (hK : Closed K) (d : Die) (s : State) (hs : Ok K s) :
    OkOut K (execMirrorRemoteAdd d s) := by
  unfold execMirrorRemoteAdd
  repeat' first
    | with_reducible first | assumption | apply ok_next | apply State.setUpd_ok hK | apply State.addTally_ok hK
    | (extract_lets +onlyGivenNames v; (fail_if_success (have : ∀ z, v z = v z := fun _ => rfl)); clear_value v)
    | split

theorem execDcpSubmit_ok (hK : Closed K) (r : Requester) (d : Die) (v : Word) (s : State) (hs : Ok K s) :
    OkOut K (execDcpSubmit r d v s) := by
  unfold execDcpSubmit
  repeat' first
    | with_reducible first | assumption | apply ok_next | apply State.submit_ok hK

end Sys2Proof.Machine
end

