-- ==== Sys2Proof/Laws/OkRegWrite.lean ====
section
/-! SUPPORT. Every operation of Machine/RegWrite.lean keeps a predicate closed under the primitive updates. -/

set_option linter.unusedTactic false
set_option linter.unreachableTactic false

namespace Sys2Proof.Machine

variable {K : State → Prop}

theorem State.plainWrite_ok (hK : Closed K) (s : State) (d : Nat) (a : Nat) (v : Word) (hs : Ok K s) :
    Ok K (State.plainWrite s d a v) := by
  unfold State.plainWrite
  repeat' first
    | with_reducible first | assumption | apply ok_ite | apply State.wr_ok hK | apply State.reserved_ok hK

theorem State.when_ok (hK : Closed K) (s : State) (c : Bool) (f : State → State) (hs : Ok K s)
    (hf : ∀ z0, Ok K z0 → Ok K (f z0)) :
    Ok K (State.when s c f) := by
  unfold State.when
  repeat' first
    | with_reducible first | assumption | apply ok_ite | apply hf

theorem State.writeSeq_ok (hK : Closed K) (s : State) (d : Nat) (t : Nat) (a : Nat) (v : Word) (hs : Ok K s) :
    Ok K (State.writeSeq s d t a v) := by
  unfold State.writeSeq
  repeat' first
    | with_reducible assumption
    | intro _
    | with_reducible first | apply ok_ite | apply State.plainWrite_ok hK | apply State.raise_ok hK
    | with_reducible first | apply State.seqStart_ok hK | apply State.setPass_ok hK | apply State.when_ok hK
    | with_reducible first | apply State.fail_ok hK

theorem State.writeWgh_ok (hK : Closed K) (s : State) (d : Nat) (t : Nat) (a : Nat) (v : Word) (hs : Ok K s) :
    Ok K (State.writeWgh s d t a v) := by
  unfold State.writeWgh
  repeat' first
    | with_reducible assumption
    | intro _
    | with_reducible first | apply ok_ite | apply State.histClear_ok hK | apply State.chanClear_ok hK
    | with_reducible first | apply State.startupEdge_ok hK | apply State.plainWrite_ok hK | apply State.when_ok hK

theorem State.banksOff_ok (hK : Closed K) (s : State) (d : Nat) (t : Nat) (ps0 : List Nat) (hs : Ok K s) :
    Ok K (State.banksOff s d t ps0) := by
  induction ps0 generalizing s with
  | nil => exact hs
  | cons q qs ih =>
    unfold State.banksOff
    exact ih _ (ok_ite (State.invalidate_ok hK _ _ _ hs) hs)

theorem State.writeMem_ok (hK : Closed K) (s : State) (d : Nat) (t : Nat) (a : Nat) (v : Word) (hs : Ok K s) :
    Ok K (State.writeMem s d t a v) := by
  unfold State.writeMem
  repeat' first
    | with_reducible first | assumption | apply ok_ite | apply State.handWrite_ok hK | apply State.handCancel_ok hK
    | with_reducible first | apply State.invalStart_ok hK | apply State.handFields_ok hK
    | with_reducible first | apply State.plainWrite_ok hK | apply State.banksOff_ok hK
    | (extract_lets +onlyGivenNames v; (fail_if_success (have : ∀ z, v z = v z := fun _ => rfl)); clear_value v)
    | split

theorem State.chCtl_ok (hK : Closed K) (s : State) (k : ChanId) (v : Word) (hs : Ok K s) :
    Ok K (State.chCtl s k v) := by
  unfold State.chCtl
  repeat' first
    | with_reducible assumption
    | intro _
    | with_reducible first | apply ok_ite | apply State.chResume_ok hK | apply State.chHold_ok hK
    | with_reducible first | apply State.chAbort_ok hK | apply State.when_ok hK

theorem State.writeCpy_ok (hK : Closed K) (s : State) (d : Nat) (t : Nat) (a : Nat) (v : Word) (hs : Ok K s) :
    Ok K (State.writeCpy s d t a v) := by
  unfold State.writeCpy
  repeat' first
    | with_reducible first | assumption | apply ok_ite | apply State.chCtl_ok hK | apply State.plainWrite_ok hK
    | with_reducible first | apply State.requests_ok hK

theorem State.writeObs_ok (hK : Closed K) (s : State) (d : Nat) (t : Nat) (a : Nat) (v : Word) (hs : Ok K s) :
    Ok K (State.writeObs s d t a v) := by
  unfold State.writeObs
  repeat' first
    | with_reducible assumption
    | intro _
    | with_reducible first | apply ok_ite | apply State.opcCfgWrite_ok hK | apply State.clear64_ok hK
    | with_reducible first | apply State.plainWrite_ok hK | apply State.sampleGo_ok hK | apply State.when_ok hK
    | with_reducible first | apply State.clear32_ok hK | apply State.opcClear_ok hK

theorem State.writeGen_ok (hK : Closed K) (s : State) (d : Nat) (t : Nat) (off : Nat) (a : Nat) (v : Word)
    (hs : Ok K s) :
    Ok K (State.writeGen s d t off a v) := by
  unfold State.writeGen
  repeat' first
    | with_reducible first | assumption | apply ok_ite | apply State.plainWrite_ok hK
    | with_reducible first | apply State.genStateWrite_ok hK

theorem State.writeTly_ok (hK : Closed K) (s : State) (d : Nat) (off : Nat) (a : Nat) (v : Word) (hs : Ok K s) :
    Ok K (State.writeTly s d off a v) := by
  unfold State.writeTly
  repeat' first
    | with_reducible assumption
    | intro _
    | with_reducible first | apply ok_ite | apply State.tallyQueue_ok hK | apply State.tallyClear_ok hK
    | with_reducible first | apply State.plainWrite_ok hK | apply State.when_ok hK

theorem State.writeUpd_ok (hK : Closed K) (s : State) (r : Requester) (d : Nat) (off : Nat) (a : Nat) (v : Word)
    (hs : Ok K s) :
    Ok K (State.writeUpd s r d off a v) := by
  unfold State.writeUpd
  repeat' first
    | with_reducible assumption
    | intro _
    | with_reducible first | apply ok_ite | apply State.updFlush_ok hK | apply State.updGenWrite_ok hK
    | with_reducible first | apply State.submit_ok hK | apply State.plainWrite_ok hK | apply State.when_ok hK

theorem State.writeMap_ok (hK : Closed K) (s : State) (d : Nat) (off : Nat) (a : Nat) (v : Word) (hs : Ok K s) :
    Ok K (State.writeMap s d off a v) := by
  unfold State.writeMap
  repeat' first
    | with_reducible assumption
    | intro _
    | with_reducible first | apply ok_ite | apply State.repairPop_ok hK | apply State.plainWrite_ok hK
    | with_reducible first | apply State.regionWrite_ok hK | apply State.rcResize_ok hK | apply State.when_ok hK

theorem State.portCtl_ok (hK : Closed K) (s : State) (d : Nat) (q : Nat) (a : Nat) (v : Word) (hs : Ok K s) :
    Ok K (State.portCtl s d q a v) := by
  unfold State.portCtl
  repeat' first
    | with_reducible assumption
    | intro _
    | with_reducible first | apply State.trainStart_ok hK | apply State.plainWrite_ok hK
    | with_reducible first | apply State.portEnable_ok hK | apply State.when_ok hK

theorem State.writeLnk_ok (hK : Closed K) (s : State) (d : Nat) (off : Nat) (a : Nat) (v : Word) (hs : Ok K s) :
    Ok K (State.writeLnk s d off a v) := by
  unfold State.writeLnk
  repeat' first
    | with_reducible assumption
    | intro _
    | with_reducible first | apply ok_ite | apply State.combWrite_ok hK | apply State.scTxGo_ok hK
    | with_reducible first | apply State.portRaise_ok hK | apply State.scRxPop_ok hK | apply State.plainWrite_ok hK
    | with_reducible first | apply State.hbKick_ok hK | apply State.portCtl_ok hK | apply State.when_ok hK
    | with_reducible first | apply State.fail_ok hK

theorem State.writeClr_ok (hK : Closed K) (s : State) (r : Requester) (d : Nat) (a : Nat) (v : Word) (hs : Ok K s) :
    Ok K (State.writeClr s r d a v) := by
  unfold State.writeClr
  repeat' first
    | with_reducible assumption
    | intro _
    | with_reducible first | apply ok_ite | apply State.engFlush_ok hK | apply State.submit_ok hK
    | with_reducible first | apply State.plainWrite_ok hK | apply State.clrResume_ok hK | apply State.clrAbort_ok hK
    | with_reducible first | apply State.when_ok hK

theorem State.writePrt_ok (hK : Closed K) (s : State) (r : Requester) (d : Nat) (a : Nat) (v : Word) (hs : Ok K s) :
    Ok K (State.writePrt s r d a v) := by
  unfold State.writePrt
  repeat' first
    | with_reducible assumption
    | intro _
    | with_reducible first | apply ok_ite | apply State.engFlush_ok hK | apply State.prtAbort_ok hK
    | with_reducible first | apply State.submit_ok hK | apply State.plainWrite_ok hK | apply State.prtResume_ok hK
    | with_reducible first | apply State.when_ok hK

theorem State.writeDcp_ok (hK : Closed K) (s : State) (r : Requester) (d : Nat) (off : Nat) (a : Nat) (v : Word)
    (hs : Ok K s) :
    Ok K (State.writeDcp s r d off a v) := by
  unfold State.writeDcp
  repeat' first
    | with_reducible first | assumption | apply ok_ite | apply State.chCtl_ok hK | apply State.submit_ok hK
    | with_reducible first | apply State.plainWrite_ok hK | apply State.requests_ok hK

theorem State.writeClk_ok (hK : Closed K) (s : State) (d : Nat) (a : Nat) (v : Word) (hs : Ok K s) :
    Ok K (State.writeClk s d a v) := by
  unfold State.writeClk
  repeat' first
    | with_reducible assumption
    | intro _
    | with_reducible first | apply ok_ite | apply State.arrStopWrite_ok hK | apply State.plainWrite_ok hK
    | with_reducible first | apply State.when_ok hK | apply State.freqWrite_ok hK

theorem State.writeDob_ok (hK : Closed K) (s : State) (r : Requester) (d : Nat) (a : Nat) (v : Word) (hs : Ok K s) :
    Ok K (State.writeDob s r d a v) := by
  unfold State.writeDob
  repeat' first
    | with_reducible assumption
    | intro _
    | with_reducible first | apply ok_ite | apply State.dobRaiseWrite_ok hK | apply State.clear64_ok hK
    | with_reducible first | apply State.plainWrite_ok hK | apply State.when_ok hK | apply State.clear32_ok hK
    | with_reducible first | apply State.snapGo_ok hK

theorem State.writePwr_ok (hK : Closed K) (s : State) (a : Nat) (v : Word) (hs : Ok K s) :
    Ok K (State.writePwr s a v) := by
  unfold State.writePwr
  repeat' first
    | with_reducible first | assumption | apply ok_ite | apply State.tileOnWrite_ok hK | apply State.plainWrite_ok hK

theorem State.writeEth_ok (hK : Closed K) (s : State) (off : Nat) (a : Nat) (v : Word) (hs : Ok K s) :
    Ok K (State.writeEth s off a v) := by
  unfold State.writeEth
  repeat' first
    | with_reducible assumption
    | intro _
    | with_reducible first | apply ok_ite | apply State.ethDown_ok hK | apply State.plainWrite_ok hK
    | with_reducible first | apply State.sqBell_ok hK | apply State.when_ok hK

theorem State.mgtCtlWrite_ok (hK : Closed K) (s : State) (v : Word) (hs : Ok K s) :
    Ok K (State.mgtCtlWrite s v) := by
  unfold State.mgtCtlWrite
  repeat' first
    | with_reducible assumption
    | intro _
    | with_reducible first | apply ok_ite | apply State.restartWrite_ok hK | apply State.when_ok hK

theorem State.writeMod_ok (hK : Closed K) (s : State) (a : Nat) (v : Word) (hs : Ok K s) :
    Ok K (State.writeMod s a v) := by
  unfold State.writeMod
  repeat' first
    | with_reducible first | assumption | apply ok_ite | apply State.flashCmd_ok hK | apply State.dbgCtlWrite_ok hK
    | with_reducible first | apply State.plainWrite_ok hK | apply State.refUpdate_ok hK
    | with_reducible first | apply State.mgtCtlWrite_ok hK | apply State.clkoutWrite_ok hK
    | with_reducible first | apply State.stageWrite_ok hK | apply State.timeSlewWrite_ok hK
    | with_reducible first | apply State.timeStepWrite_ok hK

theorem State.regEffect_ok (hK : Closed K) (s : State) (r : Requester) (l : RegLoc) (a : Nat) (v : Word) (hs : Ok K s)
    :
    Ok K (State.regEffect s r l a v) := by
  unfold State.regEffect
  repeat' first
    | with_reducible first | assumption | apply ok_ite | apply State.writeTly_ok hK | apply State.writeMem_ok hK
    | with_reducible first | apply State.writePrt_ok hK | apply State.writeLnk_ok hK | apply State.writePwr_ok hK
    | with_reducible first | apply State.writeMap_ok hK | apply State.writeDcp_ok hK | apply State.writeDob_ok hK
    | with_reducible first | apply State.writeSeq_ok hK | apply State.writeEth_ok hK | apply State.writeCpy_ok hK
    | with_reducible first | apply State.plainWrite_ok hK | apply State.writeMod_ok hK | apply State.writeWgh_ok hK
    | with_reducible first | apply State.writeClr_ok hK | apply State.writeUpd_ok hK | apply State.writeObs_ok hK
    | with_reducible first | apply State.writeGen_ok hK | apply State.writeClk_ok hK
    | split

theorem State.regWrite_ok (hK : Closed K) (s : State) (r : Requester) (l : RegLoc) (a : Nat) (v : Word) (hs : Ok K s)
    :
    Ok K (State.regWrite s r l a v) := by
  unfold State.regWrite
  repeat' first
    | with_reducible assumption
    | intro _
    | with_reducible first | apply ok_ite | apply State.touch_ok hK | apply State.answer_ok hK
    | with_reducible first | apply State.regWr_ok hK | apply State.plainWrite_ok hK | apply State.seqHalt_ok hK
    | with_reducible first | apply State.regEffect_ok hK

end Sys2Proof.Machine
end

