-- ==== Sys2Proof/Laws/OkAccess.lean ====
section
/-! SUPPORT. Every operation of Machine/Access.lean keeps a predicate closed under the primitive updates. -/

set_option linter.unusedTactic false
set_option linter.unreachableTactic false

namespace Sys2Proof.Machine

variable {K : State → Prop}

theorem State.regAccess_ok (hK : Closed K) (s : State) (r : Requester) (l : RegLoc) (a : Nat) (n : Nat) (write : Bool)
    (v : Word) (hs : Ok K s) :
    Ok K (State.regAccess s r l a n write v) := by
  unfold State.regAccess
  repeat' first
    | with_reducible first | assumption | apply ok_ite | apply State.touch_ok hK | apply State.answer_ok hK
    | with_reducible first | apply State.refuse_ok hK | apply State.regRead_ok hK | apply State.regWrite_ok hK
    | split

theorem State.access_ok (hK : Closed K) (s : State) (r : Requester) (q : Access) (hs : Ok K s) :
    Ok K (State.access s r q) := by
  unfold State.access
  repeat' first
    | with_reducible first | assumption | apply State.regAccess_ok hK | apply State.memAccess_ok hK
    | split

theorem execRegisterWrite_ok (hK : Closed K) (r : Requester) (a : Addr) (n : Nat) (v : Word) (s : State) (hs : Ok K s)
    :
    OkOut K (execRegisterWrite r a n v s) := by
  unfold execRegisterWrite
  repeat' first
    | with_reducible first | assumption | apply ok_next | apply State.regAccess_ok hK | apply State.memAccess_ok hK
    | split

theorem execMemoryAccess_ok (hK : Closed K) (r : Requester) (q : Access) (peer : Option (Requester × Access))
    (s : State) (hs : Ok K s) :
    OkOut K (execMemoryAccess r q peer s) := by
  unfold execMemoryAccess
  repeat' first
    | with_reducible first | assumption | apply okOut_ite | apply ok_next | apply State.memAccess2_ok hK
    | with_reducible first | apply State.access_ok hK
    | split

theorem State.uart_ok (hK : Closed K) (s : State) (m : List Byte) (hs : Ok K s) :
    Ok K (State.uart s m) := by
  unfold State.uart
  repeat' first
    | with_reducible first | assumption | apply ok_ite | apply State.access_ok hK | apply State.emit_ok hK
    | (extract_lets +onlyGivenNames v; have hv : Ok K v := ?_; clear_value v; pick_goal 2; subst v)
    | (extract_lets +onlyGivenNames v; (fail_if_success (have : ∀ z, v z = v z := fun _ => rfl)); clear_value v)
    | split

theorem execUartRequest_ok (hK : Closed K) (m : List Byte) (s : State) (hs : Ok K s) :
    OkOut K (execUartRequest m s) := by
  unfold execUartRequest
  repeat' first
    | with_reducible first | assumption | apply okOut_ite | apply ok_next | apply State.uart_ok hK

end Sys2Proof.Machine
end

