-- ==== Sys2Proof/Laws/OkAcks.lean ====
section
/-! SUPPORT. Every operation of Machine/Acks.lean keeps a predicate closed under the primitive updates. -/

set_option linter.unusedTactic false
set_option linter.unreachableTactic false

namespace Sys2Proof.Machine

variable {K : State → Prop}

theorem State.parityLost_ok (hK : Closed K) (s : State) (d : Nat) (t : Nat) (hs : Ok K s) :
    Ok K (State.parityLost s d t) := by
  unfold State.parityLost
  repeat' first
    | with_reducible first | assumption | apply State.inc32_ok hK | apply State.raise_ok hK | apply State.p_ok hK

theorem State.ownerTakes_ok (hK : Closed K) (s : State) (d : Nat) (x : Track) (status : Nat) (cause : Nat)
    (hs : Ok K s) :
    Ok K (State.ownerTakes s d x status cause) := by
  unfold State.ownerTakes
  repeat' first
    | with_reducible first | assumption | apply ok_ite | apply State.remoteLost_ok hK | apply State.withhold_ok hK
    | with_reducible first | apply State.parityLost_ok hK | apply State.prtAck_ok hK | apply State.mirrorLost_ok hK
    | with_reducible first | apply State.chAck_ok hK | apply State.mirrorSettle_ok hK | apply State.clrAck_ok hK
    | (extract_lets +onlyGivenNames v; (fail_if_success (have : ∀ z, v z = v z := fun _ => rfl)); clear_value v)
    | split

theorem State.untrack_ok (hK : Closed K) (s : State) (d : Nat) (tag : Nat) (hs : Ok K s) :
    Ok K (State.untrack s d tag) := by
  unfold State.untrack
  repeat' first
    | with_reducible first | assumption | apply State.setDie_ok hK | apply State.sendPkt_ok hK
    | (extract_lets +onlyGivenNames v; have hv : Ok K v := ?_; clear_value v; pick_goal 2; subst v)
    | (extract_lets +onlyGivenNames v; (fail_if_success (have : ∀ z, v z = v z := fun _ => rfl)); clear_value v)
    | split

theorem execAckPkt_ok (hK : Closed K) (k : Packet) (s : State) (hs : Ok K s) :
    OkOut K (execAckPkt k s) := by
  unfold execAckPkt
  repeat' first
    | with_reducible first | assumption | apply okOut_ite | apply ok_next | apply State.pktBad_ok hK
    | with_reducible first | apply State.ownerTakes_ok hK | apply State.untrack_ok hK | apply State.dbrk_ok hK
    | split

theorem execAckTimeout_ok (hK : Closed K) (d : Die) (n : Nat) (s : State) (hs : Ok K s) :
    OkOut K (execAckTimeout d n s) := by
  unfold execAckTimeout
  repeat' first
    | with_reducible first | assumption | apply okOut_ite | apply ok_next | apply State.raise_ok hK
    | with_reducible first | apply State.ownerTakes_ok hK | apply State.untrack_ok hK | apply State.dbrk_ok hK
    | split

end Sys2Proof.Machine
end

