-- ==== Sys2Proof/Laws/OkFwd.lean ====
section
/-! SUPPORT. Every operation of Machine/Fwd.lean keeps a predicate closed under the primitive updates. -/

set_option linter.unusedTactic false
set_option linter.unreachableTactic false

namespace Sys2Proof.Machine

variable {K : State → Prop}

theorem State.setFwd_ok (hK : Closed K) (s : State) (d : Nat) (t : Nat) (f : Option FwdS) (hs : Ok K s) :
    Ok K (State.setFwd s d t f) := by
  unfold State.setFwd
  repeat' first
    | with_reducible first | assumption | apply State.setTile_ok hK

theorem execFwdFirstPlane_ok (hK : Closed K) (d : Die) (t : Tile) (s : State) (hs : Ok K s) :
    OkOut K (execFwdFirstPlane d t s) := by
  unfold execFwdFirstPlane
  repeat' first
    | with_reducible first | assumption | apply okOut_ite | apply ok_next | apply ok_ite | apply State.setFwd_ok hK
    | with_reducible first | apply State.raise_ok hK | apply State.p_ok hK | apply State.brk_ok hK
    | split

theorem State.readQuires_ok (hK : Closed K) (s : State) (r : Requester) (f : Nat) (signed : Bool) (a : Nat)
    (hd : Option (List Byte)) (ps0 : List Nat) (hs : Ok K s) :
    Ok K (State.readQuires s r f signed a hd ps0).2 := by
  fun_induction State.readQuires s r f signed a hd ps0
  all_goals
    repeat' first
      | with_reducible first | assumption | apply State.readLine_ok hK | refine ok_snd (by assumption) ?_
      | with_reducible first | apply_assumption

theorem State.readReam_ok (hK : Closed K) (s : State) (r : Requester) (f : Nat) (signed : Bool) (a : Nat)
    (qs : List Nat) (hs : Ok K s) :
    Ok K (State.readReam s r f signed a qs).2 := by
  unfold State.readReam
  repeat' first
    | with_reducible first | assumption | apply State.readLine_ok hK | apply State.readQuires_ok hK

theorem State.readVector_ok (hK : Closed K) (s : State) (r : Requester) (f : Nat) (signed : Bool) (a : Nat)
    (stride : Nat) (v : Nat) (hs : Ok K s) :
    Ok K (State.readVector s r f signed a stride v).2 := by
  unfold State.readVector
  repeat' first
    | with_reducible first | assumption | apply ok_ite_snd | apply State.readReam_ok hK

theorem State.quireEvents_ok (hK : Closed K) (s : State) (e : Ev) (d : Nat) (t : Nat) (i : Info) (ps0 : List QuireR)
    (hs : Ok K s) :
    Ok K (State.quireEvents s e d t i ps0) := by
  induction ps0 generalizing s with
  | nil => exact hs
  | cons q qs ih =>
    unfold State.quireEvents
    refine ih _ (ok_ite (State.raise_ok hK _ _ _ _ hs) hs)

theorem State.streamPlane_ok (hK : Closed K) (s : State) (d : Nat) (t : Nat) (sh : List Nat) (thr : List Nat)
    (ps0 : List Nat) (ps1 : List Int) (hs : Ok K s) :
    Ok K (State.streamPlane s d t sh thr ps0 ps1).2 := by
  fun_induction State.streamPlane s d t sh thr ps0 ps1
  all_goals
    repeat' first
      | with_reducible first | assumption | apply State.shakerWord_ok hK | refine ok_snd (by assumption) ?_
      | with_reducible first | apply_assumption

theorem State.streamPlanes_ok (hK : Closed K) (s : State) (d : Nat) (t : Nat) (sh : List Nat) (thr : List Nat)
    (lanes : List Nat) (ps0 : Nat) (ps1 : List Int) (hs : Ok K s) :
    Ok K (State.streamPlanes s d t sh thr lanes ps0 ps1).2 := by
  fun_induction State.streamPlanes s d t sh thr lanes ps0 ps1
  all_goals
    repeat' first
      | with_reducible first | assumption | apply State.streamPlane_ok hK | refine ok_snd (by assumption) ?_
      | with_reducible first | apply_assumption

theorem State.genDrawnAll_ok (hK : Closed K) (s : State) (d : Nat) (t : Nat) (drew : List Nat) (ps0 : List Nat)
    (hs : Ok K s) :
    Ok K (State.genDrawnAll s d t drew ps0) := by
  fun_induction State.genDrawnAll s d t drew ps0
  all_goals
    repeat' first
      | with_reducible first | assumption | apply State.genDrawn_ok hK | apply_assumption

theorem State.loadVec_ok (hK : Closed K) (s : State) (d : Die) (t : Tile) (o : OpRec) (f : FwdS) (v : Nat)
    (hs : Ok K s) :
    Ok K (State.loadVec s d t o f v).2.2 := by
  unfold State.loadVec
  repeat' first
    | with_reducible first | assumption | apply ok_ite_snd3 | apply State.genDrawnAll_ok hK
    | with_reducible first | apply State.readVector_ok hK | apply State.quireEvents_ok hK
    | with_reducible first | apply State.streamPlanes_ok hK
    | (extract_lets +onlyGivenNames v; have hv : Ok K v := ?_; clear_value v; pick_goal 2; subst v)
    | (extract_lets +onlyGivenNames v; (fail_if_success (have : ∀ z, v z = v z := fun _ => rfl)); clear_value v)
    | split
    | with_reducible refine ok_snd (by assumption) ?_

theorem State.getVec_ok (hK : Closed K) (s : State) (d : Die) (t : Tile) (o : OpRec) (f : FwdS) (v : Nat)
    (hs : Ok K s) :
    Ok K (State.getVec s d t o f v).2 := by
  unfold State.getVec
  repeat' first
    | with_reducible first | assumption | apply ok_ite_snd | apply State.loadVec_ok hK

theorem execLaneVectorStart_ok (hK : Closed K) (d : Die) (t : Tile) (lane : Fin 8) (s : State) (hs : Ok K s) :
    OkOut K (execLaneVectorStart d t lane s) := by
  unfold execLaneVectorStart
  repeat' first
    | with_reducible first | assumption | apply okOut_ite | apply ok_next | apply State.setFwd_ok hK
    | with_reducible first | apply State.getVec_ok hK | apply State.brk_ok hK | apply State.cnt_ok hK
    | (extract_lets +onlyGivenNames v; (fail_if_success (have : ∀ z, v z = v z := fun _ => rfl)); clear_value v)
    | split
    | with_reducible refine ok_snd (by assumption) ?_

theorem execSideStallRound_ok (hK : Closed K) (d : Die) (t : Tile) (s : State) (hs : Ok K s) :
    OkOut K (execSideStallRound d t s) := by
  unfold execSideStallRound
  repeat' first
    | with_reducible first | assumption | apply okOut_ite | apply ok_next | apply ok_ite | apply State.readSpan_ok hK
    | with_reducible first | apply State.setFwd_ok hK | apply State.getVec_ok hK | apply State.raise_ok hK
    | with_reducible first | apply State.brk_ok hK | apply State.cnt_ok hK
    | (extract_lets +onlyGivenNames v; have hv : Ok K v := ?_; clear_value v; pick_goal 2; subst v)
    | (extract_lets +onlyGivenNames v; (fail_if_success (have : ∀ z, v z = v z := fun _ => rfl)); clear_value v)
    | split
    | with_reducible refine ok_snd (by assumption) ?_

theorem execFwdCombine_ok (hK : Closed K) (d : Die) (t : Tile) (s : State) (hs : Ok K s) :
    OkOut K (execFwdCombine d t s) := by
  unfold execFwdCombine
  repeat' first
    | with_reducible first | assumption | apply okOut_ite | apply ok_next | apply ok_ite | apply State.setFwd_ok hK
    | with_reducible first | apply State.raise_ok hK | apply State.p_ok hK | apply State.brk_ok hK
    | with_reducible first | apply State.cnt_ok hK
    | (extract_lets +onlyGivenNames v; (fail_if_success (have : ∀ z, v z = v z := fun _ => rfl)); clear_value v)
    | split

theorem execFwdDeliver_ok (hK : Closed K) (d : Die) (t : Tile) (s : State) (hs : Ok K s) :
    OkOut K (execFwdDeliver d t s) := by
  unfold execFwdDeliver
  repeat' first
    | with_reducible first | assumption | apply okOut_ite | apply ok_next | apply State.setTile_ok hK
    | with_reducible first | apply State.cnt_ok hK
    | (extract_lets +onlyGivenNames v; (fail_if_success (have : ∀ z, v z = v z := fun _ => rfl)); clear_value v)
    | split

theorem execFwdComplete_ok (hK : Closed K) (d : Die) (t : Tile) (s : State) (hs : Ok K s) :
    OkOut K (execFwdComplete d t s) := by
  unfold execFwdComplete
  repeat' first
    | with_reducible first | assumption | apply okOut_ite | apply ok_next | apply State.opDone_ok hK
    | with_reducible first | apply State.setFwd_ok hK
    | split

end Sys2Proof.Machine
end

