-- ==== Sys2Proof/Laws/OkBwd.lean ====
section
/-! SUPPORT. Every operation of Machine/Bwd.lean keeps a predicate closed under the primitive updates. -/

set_option linter.unusedTactic false
set_option linter.unreachableTactic false

namespace Sys2Proof.Machine

variable {K : State → Prop}

theorem State.setBwd_ok (hK : Closed K) (s : State) (d : Nat) (t : Nat) (b : BwdS) (hs : Ok K s) :
    Ok K (State.setBwd s d t b) := by
  unfold State.setBwd
  repeat' first
    | with_reducible first | assumption | apply State.setTile_ok hK

theorem execBwdFirstOperand_ok (hK : Closed K) (d : Die) (t : Tile) (s : State) (hs : Ok K s) :
    OkOut K (execBwdFirstOperand d t s) := by
  unfold execBwdFirstOperand
  repeat' first
    | with_reducible first | assumption | apply okOut_ite | apply ok_next | apply State.setBwd_ok hK
    | (extract_lets +onlyGivenNames v; (fail_if_success (have : ∀ z, v z = v z := fun _ => rfl)); clear_value v)
    | split

theorem State.quireRun_ok (hK : Closed K) (s : State) (r : Requester) (o : Operand) (flush : Bool) (v : Nat) (e : Nat)
    (n : Nat) (ev : Ev) (d : Nat) (t : Nat) (i : Info) (ps0 : Nat) (hs : Ok K s) :
    Ok K (State.quireRun s r o flush v e n ev d t i ps0).2 := by
  fun_induction State.quireRun s r o flush v e n ev d t i ps0
  all_goals
    repeat' first
      | with_reducible first | assumption | apply State.readReam_ok hK | apply State.quireEvents_ok hK
      | with_reducible first | refine ok_snd (by assumption) ?_ | apply_assumption

theorem State.plainRun_ok (hK : Closed K) (s : State) (r : Requester) (o : Operand) (flush : Bool) (a : Nat) (n : Nat)
    (hs : Ok K s) :
    Ok K (State.plainRun s r o flush a n).2 := by
  unfold State.plainRun
  repeat' first
    | with_reducible first | assumption | apply State.readSpan_ok hK

theorem State.couchRun_ok (hK : Closed K) (s : State) (r : Requester) (o : Operand) (flush : Bool) (x : Nat) (k : Nat)
    (n : Nat) (ev : Ev) (d : Nat) (t : Nat) (i : Info) (hs : Ok K s) :
    Ok K (State.couchRun s r o flush x k n ev d t i).2 := by
  unfold State.couchRun
  repeat' first
    | with_reducible first | assumption | apply ok_ite_snd | apply State.quireRun_ok hK | apply State.plainRun_ok hK

theorem State.couchRuns_ok (hK : Closed K) (s : State) (r : Requester) (o : Operand) (flush : Bool) (n : Nat)
    (ev : Ev) (d : Nat) (t : Nat) (i : Info) (ps0 : List (Nat × Nat)) (hs : Ok K s) :
    Ok K (State.couchRuns s r o flush n ev d t i ps0).2 := by
  fun_induction State.couchRuns s r o flush n ev d t i ps0
  all_goals
    repeat' first
      | with_reducible first | assumption | apply State.couchRun_ok hK | refine ok_snd (by assumption) ?_
      | with_reducible first | apply_assumption

theorem State.couchWindow_ok (hK : Closed K) (s : State) (d : Die) (t : Tile) (x : Desc) (o : Operand) (x0 : Nat)
    (k0 : Nat) (i : Info) (hs : Ok K s) :
    Ok K (State.couchWindow s d t x o x0 k0 i).2 := by
  unfold State.couchWindow
  repeat' first
    | with_reducible first | assumption | apply ok_ite_snd | apply State.couchRuns_ok hK

theorem execOperandCycle_ok (hK : Closed K) (d : Die) (t : Tile) (s : State) (hs : Ok K s) :
    OkOut K (execOperandCycle d t s) := by
  unfold execOperandCycle
  repeat' first
    | with_reducible first | assumption | apply okOut_ite | apply ok_next | apply ok_ite | apply State.setBwd_ok hK
    | with_reducible first | apply State.p_ok hK | apply State.couchWindow_ok hK | apply State.brk_ok hK
    | with_reducible first | apply State.cnt_ok hK
    | (extract_lets +onlyGivenNames v; (fail_if_success (have : ∀ z, v z = v z := fun _ => rfl)); clear_value v)
    | (extract_lets +onlyGivenNames v; subst v; dsimp -zeta only)
    | split

theorem State.bwdBad_ok (hK : Closed K) (s : State) (d : Nat) (t : Nat) (o : OpRec) (block : Nat) (first : Bool)
    (hs : Ok K s) :
    Ok K (State.bwdBad s d t o block first) := by
  unfold State.bwdBad
  repeat' first
    | with_reducible first | assumption | apply ok_ite | apply State.wr_ok hK | apply State.raise_ok hK
    | with_reducible first | apply State.p_ok hK | apply State.brk_ok hK

theorem execDrainBegin_ok (hK : Closed K) (d : Die) (t : Tile) (s : State) (hs : Ok K s) :
    OkOut K (execDrainBegin d t s) := by
  unfold execDrainBegin
  repeat' first
    | with_reducible first | assumption | apply okOut_ite | apply ok_next | apply ok_ite | apply ok_ite_snd
    | with_reducible first | apply State.readSpan_ok hK | apply State.setBwd_ok hK | apply State.bwdBad_ok hK
    | with_reducible first | apply State.raise_ok hK | apply State.brk_ok hK
    | (extract_lets +onlyGivenNames v; (fail_if_success (have : ∀ z, v z = v z := fun _ => rfl)); clear_value v)
    | split

theorem State.derivCodes_ok (hK : Closed K) (s : State) (d : Die) (t : Tile) (x : Desc) (rho : Nat) (col : Nat)
    (i : Info) (hs : Ok K s) :
    Ok K (State.derivCodes s d t x rho col i).2 := by
  unfold State.derivCodes
  repeat' first
    | with_reducible first | assumption | apply State.readReam_ok hK | apply State.quireEvents_ok hK
    | (extract_lets +onlyGivenNames v; have hv : Ok K v := ?_; clear_value v; pick_goal 2; subst v)
    | (extract_lets +onlyGivenNames v; (fail_if_success (have : ∀ z, v z = v z := fun _ => rfl)); clear_value v)
    | split
    | with_reducible refine ok_snd (by assumption) ?_

theorem State.drainWrote_ok (hK : Closed K) (d t issue : Nat) (w : Option (AccErr × Nat) × State) (hs : Ok K w.2) :
    Ok K (State.drainWrote d t issue w) := by
  unfold State.drainWrote
  split
  · exact State.withhold_ok hK _ _ _ _ _ _ _ hs
  · exact hs

theorem State.drainMem_ok (hK : Closed K) (s : State) (d : Die) (t : Tile) (o : OpRec) (p : BwdOp) (dr : BwdDrain)
    (hs : Ok K s) :
    Ok K (State.drainMem s d t o p dr).2 := by
  unfold State.drainMem
  repeat' first
    | with_reducible first | assumption | apply ok_ite | apply ok_ite_snd | apply ok_ite_snd3
    | with_reducible first | apply State.derivCodes_ok hK | apply State.draw16_ok hK | apply State.drainWrote_ok hK
    | with_reducible first | apply State.writeSpan_ok hK | apply State.p_ok hK | apply State.brk_ok hK
    | with_reducible first | apply State.genDrawn_ok hK
    | (extract_lets +onlyGivenNames v; have hv : Ok K v := ?_; clear_value v; pick_goal 2; subst v)
    | (extract_lets +onlyGivenNames v; (fail_if_success (have : ∀ z, v z = v z := fun _ => rfl)); clear_value v)
    | split
    | with_reducible first | refine ok_snd (by assumption) ?_ | refine ok_snd3 (by assumption) ?_

theorem State.writeCol_ok (hK : Closed K) (s : State) (r : Requester) (a : Nat) (ps0 : List Nat) (hs : Ok K s) :
    Ok K (State.writeCol s r a ps0).2 := by
  fun_induction State.writeCol s r a ps0
  all_goals
    repeat' first
      | with_reducible first | assumption | apply State.writeSpan_ok hK | refine ok_snd (by assumption) ?_
      | with_reducible first | apply_assumption

theorem State.drainOut_ok (hK : Closed K) (s : State) (d : Die) (t : Tile) (r : Requester) (o : OpRec) (p : BwdOp)
    (dr : BwdDrain) (slot : Nat) (hs : Ok K s) :
    Ok K (State.drainOut s d t r o p dr slot).2 := by
  unfold State.drainOut
  repeat' first
    | with_reducible first | assumption | apply ok_ite_snd | apply State.drainMem_ok hK
    | with_reducible first | apply State.drainWrote_ok hK | apply State.writeSpan_ok hK | apply State.writeCol_ok hK

theorem execDrainRow_ok (hK : Closed K) (d : Die) (t : Tile) (s : State) (hs : Ok K s) :
    OkOut K (execDrainRow d t s) := by
  unfold execDrainRow
  repeat' first
    | with_reducible first | assumption | apply okOut_ite | apply ok_next | apply ok_ite | apply State.setBwd_ok hK
    | with_reducible first | apply State.drainWrote_ok hK | apply State.writeSpan_ok hK | apply State.drainOut_ok hK | apply State.cnt_ok hK
    | (extract_lets +onlyGivenNames v; (fail_if_success (have : ∀ z, v z = v z := fun _ => rfl)); clear_value v)
    | split

theorem execBwdComplete_ok (hK : Closed K) (d : Die) (t : Tile) (s : State) (hs : Ok K s) :
    OkOut K (execBwdComplete d t s) := by
  unfold execBwdComplete
  repeat' first
    | with_reducible first | assumption | apply okOut_ite | apply ok_next | apply ok_ite | apply State.largest_ok hK | apply ok_ite | apply State.opDone_ok hK
    | with_reducible first | apply State.setBwd_ok hK | apply State.observeDx_ok hK
    | (extract_lets +onlyGivenNames v; (fail_if_success (have : ∀ z, v z = v z := fun _ => rfl)); clear_value v)
    | split

end Sys2Proof.Machine
end

