-- ==== Sys2Proof/Laws/OkPitch.lean ====
section
/-! SUPPORT. Every operation of Machine/Pitch.lean keeps a predicate closed under the primitive updates. -/

set_option linter.unusedTactic false
set_option linter.unreachableTactic false

namespace Sys2Proof.Machine

variable {K : State → Prop}

theorem State.pitchIn_ok (hK : Closed K) (s : State) (e : Nat) (m : PitchMsg) (typ : Nat)
    (act : State → Nat × List Byte × State) (hs : Ok K s) (hact : ∀ z0, Ok K z0 → Ok K (act z0).2.2) :
    Ok K (State.pitchIn s e m typ act) := by
  unfold State.pitchIn
  repeat' first
    | with_reducible first | assumption | apply ok_ite | apply State.pitchSend_ok hK | apply State.ethTx_ok hK
    | with_reducible first | apply State.wr_ok hK | apply State.setPitch_ok hK | apply State.mbrk_ok hK
    | with_reducible first | apply State.emit_ok hK | apply hact

theorem execStatusReq_ok (hK : Closed K) (e : Fin 8) (m : PitchMsg) (s : State) (hs : Ok K s) :
    OkOut K (execStatusReq e m s) := by
  unfold execStatusReq
  repeat' first
    | with_reducible assumption
    | intro _
    | with_reducible first | apply ok_next | apply State.pitchIn_ok hK

theorem State.mrOpen_ok (hK : Closed K) (s : State) (i : Nat) (ps0 : List (Nat × Nat × Bool × Bool)) (hs : Ok K s) :
    Ok K (State.mrOpen s i ps0).2 := by
  fun_induction State.mrOpen s i ps0
  all_goals
    repeat' first
      | with_reducible first | assumption | apply State.draw_ok hK | apply State.wr_ok hK | apply State.p_ok hK
      | with_reducible first | refine ok_snd (by assumption) ?_ | apply_assumption

theorem State.qpOpen_ok (hK : Closed K) (s : State) (c : Conn) (hs : Ok K s) :
    Ok K (State.qpOpen s c).2 := by
  unfold State.qpOpen
  repeat' first
    | with_reducible first | assumption | apply State.setEth_ok hK | apply State.wr_ok hK | apply State.p_ok hK

theorem State.qpsOpen_ok (hK : Closed K) (s : State) (ps0 : List Conn) (hs : Ok K s) :
    Ok K (State.qpsOpen s ps0).2 := by
  fun_induction State.qpsOpen s ps0
  all_goals
    repeat' first
      | with_reducible first | assumption | apply State.qpOpen_ok hK | refine ok_snd (by assumption) ?_
      | with_reducible first | apply_assumption

theorem State.tollOpen_ok (hK : Closed K) (s : State) (hs : Ok K s) :
    Ok K (State.tollOpen s) := by
  unfold State.tollOpen
  repeat' first
    | with_reducible assumption
    | intro _
    | with_reducible first | apply State.wr_ok hK | apply ok_foldl

theorem State.offerAccept_ok (hK : Closed K) (s : State) (e : Nat) (m : PitchMsg) (o : OfferBody) (hs : Ok K s) :
    Ok K (State.offerAccept s e m o).2.2 := by
  unfold State.offerAccept
  repeat' first
    | with_reducible first | assumption | apply ok_ite | apply State.tollOpen_ok hK | apply State.pitchTo_ok hK
    | with_reducible first | apply State.mrOpen_ok hK | apply State.warmExit_ok hK | apply State.qpsOpen_ok hK
    | with_reducible first | apply State.p_ok hK | apply State.setPitch_ok hK | apply State.setBoot_ok hK

theorem State.offerTake_ok (hK : Closed K) (s : State) (e : Nat) (m : PitchMsg) (hs : Ok K s) :
    Ok K (State.offerTake s e m).2.2 := by
  unfold State.offerTake
  repeat' first
    | with_reducible first | assumption | apply ok_ite | apply ok_ite_snd3 | apply State.offerAccept_ok hK
    | with_reducible first | apply State.secRaise_ok hK | apply State.flowLowEvent_ok hK
    | split

theorem execOffer_ok (hK : Closed K) (e : Fin 8) (m : PitchMsg) (s : State) (hs : Ok K s) :
    OkOut K (execOffer e m s) := by
  unfold execOffer
  repeat' first
    | with_reducible assumption
    | intro _
    | with_reducible first | apply ok_next | apply State.pitchIn_ok hK | apply State.offerTake_ok hK

theorem State.startTake_ok (hK : Closed K) (s : State) (hs : Ok K s) :
    Ok K (State.startTake s).2.2 := by
  unfold State.startTake
  repeat' first
    | with_reducible first | assumption | apply ok_ite | apply ok_ite_snd3 | apply State.showState_ok hK
    | with_reducible first | apply State.setHolds_ok hK | apply State.pitchTo_ok hK | apply State.startSeqs_ok hK
    | with_reducible first | apply State.setMod_ok hK | apply State.setGen_ok hK

theorem execStartMsg_ok (hK : Closed K) (e : Fin 8) (m : PitchMsg) (s : State) (hs : Ok K s) :
    OkOut K (execStartMsg e m s) := by
  unfold execStartMsg
  repeat' first
    | with_reducible assumption
    | intro _
    | with_reducible first | apply ok_next | apply State.startTake_ok hK | apply State.pitchIn_ok hK

theorem State.endTake_ok (hK : Closed K) (s : State) (cause : Nat) (hs : Ok K s) :
    Ok K (State.endTake s cause).2.2 := by
  unfold State.endTake
  repeat' first
    | with_reducible first | assumption | apply ok_ite | apply ok_ite_snd3 | apply State.endRunning_ok hK
    | with_reducible first | apply State.setPitch_ok hK | apply State.drain_ok hK

theorem execPitchEnd_ok (hK : Closed K) (e : Fin 8) (m : PitchMsg) (s : State) (hs : Ok K s) :
    OkOut K (execPitchEnd e m s) := by
  unfold execPitchEnd
  repeat' first
    | with_reducible assumption
    | intro _
    | with_reducible first | apply ok_next | apply State.pitchIn_ok hK | apply State.endTake_ok hK

theorem execTollGet_ok (hK : Closed K) (e : Fin 8) (m : PitchMsg) (s : State) (hs : Ok K s) :
    OkOut K (execTollGet e m s) := by
  unfold execTollGet
  repeat' first
    | with_reducible assumption
    | intro _
    | with_reducible first | apply ok_next | apply State.pitchIn_ok hK
    | split

theorem execNotAfter_ok (hK : Closed K) (s : State) (hs : Ok K s) :
    OkOut K (execNotAfter s) := by
  unfold execNotAfter
  repeat' first
    | with_reducible first | assumption | apply okOut_ite | apply ok_next | apply State.drain_ok hK

theorem execPitchNormStop_ok (hK : Closed K) (s : State) (hs : Ok K s) :
    OkOut K (execPitchNormStop s) := by
  unfold execPitchNormStop
  repeat' first
    | with_reducible first | assumption | apply okOut_ite | apply ok_next | apply State.drain_ok hK

theorem execCheckpointDone_ok (hK : Closed K) (s : State) (hs : Ok K s) :
    OkOut K (execCheckpointDone s) := by
  unfold execCheckpointDone
  repeat' first
    | with_reducible first | assumption | apply okOut_ite | apply ok_next | apply State.pitchTo_ok hK

theorem State.scrubChip_ok (hK : Closed K) (s : State) (hs : Ok K s) :
    Ok K (State.scrubChip s) := by
  unfold State.scrubChip
  repeat' first
    | with_reducible first | assumption | apply State.invalidate_ok hK

theorem State.scrubOwn_ok (hK : Closed K) (s : State) (hs : Ok K s) :
    Ok K (State.scrubOwn s) := by
  unfold State.scrubOwn
  repeat' first
    | with_reducible assumption
    | intro _
    | with_reducible first | apply State.writeRoutes_ok hK | apply State.wr_ok hK | apply State.each_ok hK
    | with_reducible first | apply State.p_ok hK | apply ok_foldl

theorem State.scrubHist_ok (hK : Closed K) (s : State) (hs : Ok K s) :
    Ok K (State.scrubHist s) := by
  unfold State.scrubHist
  repeat' first
    | with_reducible assumption
    | intro _
    | with_reducible first | apply State.histClear_ok hK | apply State.each_ok hK

theorem execScrub_ok (hK : Closed K) (s : State) (hs : Ok K s) :
    OkOut K (execScrub s) := by
  unfold execScrub
  repeat' first
    | with_reducible first | assumption | apply okOut_ite | apply ok_next | apply State.scrubOwn_ok hK
    | with_reducible first | apply State.scrubChip_ok hK | apply State.haltSeqs_ok hK | apply State.zeroExt_ok hK
    | with_reducible first | apply State.scrubHist_ok hK | apply State.tallyClear_ok hK | apply State.ethDestroy_ok hK
    | with_reducible first | apply State.setFault_ok hK

theorem State.reopen_ok (hK : Closed K) (s : State) (hs : Ok K s) :
    Ok K (State.reopen s) := by
  unfold State.reopen
  repeat' first
    | with_reducible assumption
    | intro _
    | with_reducible first | apply State.each_ok hK | apply State.portEnable_ok hK

theorem State.pitchOver_ok (hK : Closed K) (s : State) (hs : Ok K s) :
    Ok K (State.pitchOver s) := by
  unfold State.pitchOver
  repeat' first
    | with_reducible first | assumption | apply ok_ite | apply State.showState_ok hK | apply State.pitchTo_ok hK
    | with_reducible first | apply State.setM_ok hK | apply State.toStandby_ok hK | apply State.wr_ok hK
    | with_reducible first | apply State.setMod_ok hK | apply State.reopen_ok hK | apply State.setGen_ok hK

theorem execScrubEnd_ok (hK : Closed K) (s : State) (hs : Ok K s) :
    OkOut K (execScrubEnd s) := by
  unfold execScrubEnd
  repeat' first
    | with_reducible first | assumption | apply okOut_ite | apply ok_next | apply ok_ite | apply State.pitchSend_ok hK
    | with_reducible first | apply State.pitchOver_ok hK | apply State.tollSign_ok hK

theorem execTollCkpt_ok (hK : Closed K) (s : State) (hs : Ok K s) :
    OkOut K (execTollCkpt s) := by
  unfold execTollCkpt
  repeat' first
    | with_reducible first | assumption | apply okOut_ite | apply ok_next | apply State.tollWrite_ok hK

end Sys2Proof.Machine
end

