-- ==== Sys2Proof/Laws/OkSensors.lean ====
section
/-! SUPPORT. Every operation of Machine/Sensors.lean keeps a predicate closed under the primitive updates. -/

set_option linter.unusedTactic false
set_option linter.unreachableTactic false

namespace Sys2Proof.Machine

variable {K : State → Prop}

theorem State.setSens_ok (hK : Closed K) (s : State) (x : SensS) (hs : Ok K s) :
    Ok K (State.setSens s x) := by
  unfold State.setSens
  repeat' first
    | with_reducible first | assumption | apply State.setM_ok hK

theorem State.sensRaise_ok (hK : Closed K) (s : State) (bit : Nat) (hs : Ok K s) :
    Ok K (State.sensRaise s bit) := by
  unfold State.sensRaise
  repeat' first
    | with_reducible first | assumption | apply State.raise_ok hK

theorem State.coolSample_ok (hK : Closed K) (s : State) (k : Nat) (x : Int) (hs : Ok K s) :
    Ok K (State.coolSample s k x) := by
  unfold State.coolSample
  repeat' first
    | with_reducible first | assumption | apply ok_ite | apply State.sensRaise_ok hK | apply State.p_ok hK
    | with_reducible first | apply State.setSens_ok hK

theorem State.dieSample_ok (hK : Closed K) (s : State) (d : Nat) (l : List (Option Int)) (hs : Ok K s) :
    Ok K (State.dieSample s d l) := by
  unfold State.dieSample
  repeat' first
    | with_reducible first | assumption | apply State.p_ok hK
    | (extract_lets +onlyGivenNames v; have hv : Ok K v := ?_; clear_value v; pick_goal 2; subst v)
    | (extract_lets +onlyGivenNames v; (fail_if_success (have : ∀ z, v z = v z := fun _ => rfl)); clear_value v)
    | split

theorem State.coolJudge_ok (hK : Closed K) (s : State) (hs : Ok K s) :
    Ok K (State.coolJudge s) := by
  unfold State.coolJudge
  repeat' first
    | with_reducible first | assumption | apply ok_ite | apply State.p_ok hK | apply State.setSens_ok hK

theorem execSensorSample_ok (hK : Closed K) (x : SensorSet) (s : State) (hs : Ok K s) :
    OkOut K (execSensorSample x s) := by
  unfold execSensorSample
  repeat' first
    | with_reducible assumption
    | intro _
    | with_reducible first | apply okOut_ite | apply ok_next | apply State.coolJudge_ok hK | apply State.each_ok hK
    | with_reducible first | apply State.coolSample_ok hK | apply State.p_ok hK | apply State.dieSample_ok hK

theorem execSensFlowLow_ok (hK : Closed K) (s : State) (hs : Ok K s) :
    OkOut K (execSensFlowLow s) := by
  unfold execSensFlowLow
  repeat' first
    | with_reducible first | assumption | apply okOut_ite | apply ok_next | apply State.sensRaise_ok hK
    | with_reducible first | apply State.p_ok hK

theorem execSensCoolantHot_ok (hK : Closed K) (outlet : Bool) (s : State) (hs : Ok K s) :
    OkOut K (execSensCoolantHot outlet s) := by
  unfold execSensCoolantHot
  repeat' first
    | with_reducible first | assumption | apply okOut_ite | apply ok_next | apply State.sensRaise_ok hK
    | with_reducible first | apply State.p_ok hK

theorem execDieBlind_ok (hK : Closed K) (d : Die) (s : State) (hs : Ok K s) :
    OkOut K (execDieBlind d s) := by
  unfold execDieBlind
  repeat' first
    | with_reducible first | assumption | apply okOut_ite | apply ok_next | apply State.p_ok hK
    | with_reducible first | apply State.overtemp_ok hK

theorem State.connSeat_ok (hK : Closed K) (s : State) (c : ConnId) (present : Bool) (hs : Ok K s) :
    Ok K (State.connSeat s c present) := by
  unfold State.connSeat
  repeat' first
    | with_reducible first | assumption | apply ok_ite | apply State.p_ok hK | apply State.setSens_ok hK

theorem execCablePresent_ok (hK : Closed K) (p : Port) (present : Bool) (s : State) (hs : Ok K s) :
    OkOut K (execCablePresent p present s) := by
  unfold execCablePresent
  repeat' first
    | with_reducible first | assumption | apply okOut_ite | apply ok_next | apply State.connSeat_ok hK

theorem execCagePresent_ok (hK : Closed K) (e : Fin 8) (present : Bool) (highPower : Bool) (s : State) (hs : Ok K s) :
    OkOut K (execCagePresent e present highPower s) := by
  unfold execCagePresent
  repeat' first
    | with_reducible first | assumption | apply okOut_ite | apply ok_next | apply ok_ite | apply State.setEth_ok hK
    | with_reducible first | apply State.ethRaise_ok hK | apply State.connSeat_ok hK | apply State.ethDown_ok hK

theorem execSensConnPower_ok (hK : Closed K) (c : ConnId) (s : State) (hs : Ok K s) :
    OkOut K (execSensConnPower c s) := by
  unfold execSensConnPower
  repeat' first
    | with_reducible first | assumption | apply okOut_ite | apply ok_next | apply ok_ite | apply State.portDown_ok hK
    | with_reducible first | apply State.ethRaise_ok hK | apply State.sensRaise_ok hK | apply State.ethDown_ok hK
    | with_reducible first | apply State.p_ok hK
    | (extract_lets +onlyGivenNames v; have hv : Ok K v := ?_; clear_value v; pick_goal 2; subst v)
    | split

theorem execI2cRead_ok (hK : Closed K) (off : Byte) (n : Nat) (s : State) (hs : Ok K s) :
    OkOut K (execI2cRead off n s) := by
  unfold execI2cRead
  repeat' first
    | with_reducible first | assumption | apply ok_next | apply State.emit_ok hK

end Sys2Proof.Machine
end

