-- ==== Sys2Proof/Laws/OkTick.lean ====
section
/-! SUPPORT. Every operation of Machine/Tick.lean keeps a predicate closed under the primitive updates. -/

set_option linter.unusedTactic false
set_option linter.unreachableTactic false

namespace Sys2Proof.Machine

variable {K : State → Prop}

theorem State.tick_ok (hK : Closed K) (s : State) (hs : Ok K s) :
    Ok K (State.tick s) := by
  unfold State.tick
  repeat' first
    | with_reducible first | assumption | apply ok_ite | apply State.inc64_ok hK | apply State.clkoutTake_ok hK
    | with_reducible first | apply State.setSlew_ok hK | apply State.p_ok hK | apply State.setTime_ok hK

end Sys2Proof.Machine
end

