-- ==== Sys2Proof/Laws/OkExec.lean ====
section
/-! SUPPORT. Every command answers a next state and keeps a predicate closed under the primitive updates. -/

namespace Sys2Proof.Machine

variable {K : State → Prop}

theorem exec_ok (hK : Closed K) (c : Instr) (s : State) (hs : Ok K s) : OkOut K (exec c s) := by
  cases c with
  | registerWrite => exact execRegisterWrite_ok hK _ _ _ _ _ hs
  | memoryAccess => exact execMemoryAccess_ok hK _ _ _ _ hs
  | rcFill => exact execRcFill_ok hK _ _ _ _ hs
  | bankWake => exact execBankWake_ok hK _ _ _ _ hs
  | xorLineWrite => exact execXorLineWrite_ok hK _ _ _ _ hs
  | patrolRead => exact execPatrolRead_ok hK _ _ _ _ _ hs
  | memInitDone => exact execMemInitDone_ok hK _ _ hs
  | seqStart => exact execSeqStart_ok hK _ _ _ _ hs
  | seqHalt => rw [exec]; exact execSeqHalt_ok hK _ _ _ _ hs
  | descFetch => exact execDescFetch_ok hK _ _ _ hs
  | fetchReturn => exact execFetchReturn_ok hK _ _ _ hs
  | nopOp => exact execNopOp_ok hK _ _ _ hs
  | fwd => exact execFwd_ok hK _ _ _ hs
  | bwd => exact execBwd_ok hK _ _ _ hs
  | cnv => exact execCnv_ok hK _ _ _ hs
  | cpy0 => exact execCpy0_ok hK _ _ _ hs
  | cpy1 => exact execCpy1_ok hK _ _ _ hs
  | upd => exact execUpd_ok hK _ _ _ hs
  | dcp => exact execDcp_ok hK _ _ _ hs
  | prt => exact execPrt_ok hK _ _ _ hs
  | clr => exact execClr_ok hK _ _ _ hs
  | tadd => exact execTadd_ok hK _ _ _ hs
  | tarm => exact execTarm_ok hK _ _ _ hs
  | loopOp => exact execLoopOp_ok hK _ _ _ hs
  | jumpOp => exact execJumpOp_ok hK _ _ _ hs
  | passOp => exact execPassOp_ok hK _ _ _ hs
  | endOp => exact execEndOp_ok hK _ _ _ hs
  | waitMetReport => exact execWaitMetReport_ok hK _ _ _ hs
  | tileGate => exact execTileGate_ok hK _ _ _ hs
  | tileUngate => exact execTileUngate_ok hK _ _ _ hs
  | tlyAdd => exact execTlyAdd_ok hK _ _ _ _ _ hs
  | tallyBankOp => exact execTallyBankOp_ok hK _ _ _ hs
  | tlyClearAll => exact execTlyClearAll_ok hK _ _ _ hs
  | fwdFirstPlane => exact execFwdFirstPlane_ok hK _ _ _ hs
  | laneVectorStart => exact execLaneVectorStart_ok hK _ _ _ _ hs
  | sideStallRound => exact execSideStallRound_ok hK _ _ _ hs
  | fwdCombine => exact execFwdCombine_ok hK _ _ _ hs
  | fwdDeliver => exact execFwdDeliver_ok hK _ _ _ hs
  | fwdComplete => exact execFwdComplete_ok hK _ _ _ hs
  | bwdFirstOperand => exact execBwdFirstOperand_ok hK _ _ _ hs
  | operandCycle => exact execOperandCycle_ok hK _ _ _ hs
  | drainBegin => exact execDrainBegin_ok hK _ _ _ hs
  | drainRow => exact execDrainRow_ok hK _ _ _ hs
  | bwdComplete => exact execBwdComplete_ok hK _ _ _ hs
  | cnvVector => exact execCnvVector_ok hK _ _ _ hs
  | cnvComplete => exact execCnvComplete_ok hK _ _ _ hs
  | histInvalidate => exact execHistInvalidate_ok hK _ _ _ _ hs
  | chanClear => exact execChanClear_ok hK _ _ _ _ hs
  | genStateWrite => exact execGenStateWrite_ok hK _ _ _ _ _ _ _ hs
  | updSubmit => exact execUpdSubmit_ok hK _ _ _ _ hs
  | updQueueClear => exact execUpdQueueClear_ok hK _ _ _ hs
  | updBegin => exact execUpdBegin_ok hK _ _ hs
  | updPrepass => exact execUpdPrepass_ok hK _ _ hs
  | updFirstLane => exact execUpdFirstLane_ok hK _ _ hs
  | updBlockWritten => exact execUpdBlockWritten_ok hK _ _ hs
  | updHeaderWrite => exact execUpdHeaderWrite_ok hK _ _ hs
  | updComplete => exact execUpdComplete_ok hK _ _ hs
  | mirrorStart => exact execMirrorStart_ok hK _ _ hs
  | mirrorRemoteAdd => exact execMirrorRemoteAdd_ok hK _ _ hs
  | dcpSubmit => exact execDcpSubmit_ok hK _ _ _ _ hs
  | cpyCopy => exact execCpyCopy_ok hK _ _ hs
  | cpyFill => exact execCpyFill_ok hK _ _ hs
  | cpyCompare => exact execCpyCompare_ok hK _ _ hs
  | copyBurst => exact execCopyBurst_ok hK _ _ hs
  | paceResume => exact execPaceResume_ok hK _ _ hs
  | cpyRequest => exact execCpyRequest_ok hK _ _ hs
  | swreq => exact execSwreq_ok hK _ _ _ _ hs
  | copyRetry => exact execCopyRetry_ok hK _ _ hs
  | chResume => exact execChResume_ok hK _ _ _ hs
  | chAbort => exact execChAbort_ok hK _ _ _ hs
  | copyComplete => exact execCopyComplete_ok hK _ _ hs
  | prtSubmit => exact execPrtSubmit_ok hK _ _ _ _ hs
  | prtQueueClear => exact execPrtQueueClear_ok hK _ _ _ hs
  | prtGather => exact execPrtGather_ok hK _ _ hs
  | prtScatter => exact execPrtScatter_ok hK _ _ hs
  | prtParityPush => exact execPrtParityPush_ok hK _ _ hs
  | prtShip => exact execPrtShip_ok hK _ _ hs
  | prtBag => exact execPrtBag_ok hK _ _ hs
  | scatterContribution => exact execScatterContribution_ok hK _ _ hs
  | prtRetry => exact execPrtRetry_ok hK _ _ hs
  | prtResume => exact execPrtResume_ok hK _ _ _ hs
  | prtAbort => exact execPrtAbort_ok hK _ _ _ hs
  | prtComplete => exact execPrtComplete_ok hK _ _ hs
  | bankHandNow => exact execBankHandNow_ok hK _ _ _ _ _ _ hs
  | bankHandOnTally => exact execBankHandOnTally_ok hK _ _ _ _ _ _ hs
  | bankHandCancel => exact execBankHandCancel_ok hK _ _ _ _ _ hs
  | handover => exact execHandover_ok hK _ _ _ _ hs
  | memInvalidate => exact execMemInvalidate_ok hK _ _ _ _ _ hs
  | invalidateDone => exact execInvalidateDone_ok hK _ _ _ _ hs
  | mapRegionWrite => exact execMapRegionWrite_ok hK _ _ _ _ _ _ hs
  | mapRepairPop => exact execMapRepairPop_ok hK _ _ _ hs
  | mapRcCfgWrite => exact execMapRcCfgWrite_ok hK _ _ _ _ hs
  | rcInvalidateDone => exact execRcInvalidateDone_ok hK _ _ hs
  | portRetrain => exact execPortRetrain_ok hK _ _ _ hs
  | trainingPhaseEnd => exact execTrainingPhaseEnd_ok hK _ _ _ hs
  | portDownRetry => exact execPortDownRetry_ok hK _ _ hs
  | portIdentity => exact execPortIdentity_ok hK _ _ _ hs
  | retrainTrigger => exact execRetrainTrigger_ok hK _ _ _ hs
  | laneErrors => exact execLaneErrors_ok hK _ _ _ _ hs
  | frameReceive => exact execFrameReceive_ok hK _ _ _ hs
  | packetRoute => exact execPacketRoute_ok hK _ _ _ hs
  | writePkt => exact execWritePkt_ok hK _ _ hs
  | xorWrite => exact execXorWrite_ok hK _ _ hs
  | tallyAdd => exact execTallyAdd_ok hK _ _ hs
  | wghPush => exact execWghPush_ok hK _ _ hs
  | ackPkt => exact execAckPkt_ok hK _ _ hs
  | ackTimeout => exact execAckTimeout_ok hK _ _ _ hs
  | combineF32 => exact execCombineF32_ok hK _ _ _ hs
  | combineXor => exact execCombineXor_ok hK _ _ _ hs
  | combineFlush => exact execCombineFlush_ok hK _ _ _ hs
  | combStoreFree => exact execCombStoreFree_ok hK _ _ hs
  | lnkCombWrite => exact execLnkCombWrite_ok hK _ _ _ _ _ hs
  | scTxGo => exact execScTxGo_ok hK _ _ _ hs
  | scRxPop => exact execScRxPop_ok hK _ _ _ hs
  | sideChannelReceive => exact execSideChannelReceive_ok hK _ _ _ hs
  | heartbeatSend => exact execHeartbeatSend_ok hK _ _ hs
  | heartbeat => exact execHeartbeat_ok hK _ _ _ hs
  | lnkHbSilent => exact execLnkHbSilent_ok hK _ _ hs
  | lnkWatchdog => exact execLnkWatchdog_ok hK _ _ hs
  | hbKick => exact execHbKick_ok hK _ _ _ hs
  | clrSubmit => exact execClrSubmit_ok hK _ _ _ _ hs
  | clrQueueClear => exact execClrQueueClear_ok hK _ _ _ hs
  | reduce => exact execReduce_ok hK _ _ hs
  | positionSend => exact execPositionSend_ok hK _ _ _ _ hs
  | directSlotSend => exact execDirectSlotSend_ok hK _ _ _ _ hs
  | slotHeaderWrite => exact execSlotHeaderWrite_ok hK _ _ _ _ hs
  | arrivalCheck => exact execArrivalCheck_ok hK _ _ _ _ hs
  | nodeRound => exact execNodeRound_ok hK _ _ _ hs
  | clrDeadline => exact execClrDeadline_ok hK _ _ _ _ hs
  | clrStallLate => exact execClrStallLate_ok hK _ _ _ _ hs
  | creditAbandon => exact execCreditAbandon_ok hK _ _ _ _ hs
  | gather => exact execGather_ok hK _ _ hs
  | gatherArrivalAdd => exact execGatherArrivalAdd_ok hK _ _ _ _ hs
  | place => exact execPlace_ok hK _ _ hs
  | permute => exact execPermute_ok hK _ _ hs
  | permuteFenceEnd => exact execPermuteFenceEnd_ok hK _ _ _ hs
  | permuteArriveEnd => exact execPermuteArriveEnd_ok hK _ _ _ hs
  | clrRetry => exact execClrRetry_ok hK _ _ hs
  | clrResume => exact execClrResume_ok hK _ _ _ hs
  | clrAbort => exact execClrAbort_ok hK _ _ _ hs
  | fltSelfFail => exact execFltSelfFail_ok hK _ _ hs
  | suspectSend => exact execSuspectSend_ok hK _ _ hs
  | suspectMsg => exact execSuspectMsg_ok hK _ _ _ hs
  | failMsg => exact execFailMsg_ok hK _ _ _ hs
  | declareMsg => exact execDeclareMsg_ok hK _ _ _ hs
  | declareSettle => exact execDeclareSettle_ok hK _ hs
  | readyMsg => exact execReadyMsg_ok hK _ _ _ hs
  | restoreMsg => exact execRestoreMsg_ok hK _ _ _ hs
  | rebuildDone => exact execRebuildDone_ok hK _ hs
  | doneMsg => exact execDoneMsg_ok hK _ _ _ hs
  | resumeMsg => exact execResumeMsg_ok hK _ _ _ hs
  | stopMsg => exact execStopMsg_ok hK _ _ _ hs
  | recoverTimeout => exact execRecoverTimeout_ok hK _ hs
  | reserveLost => exact execReserveLost_ok hK _ hs
  | fenced => exact execFenced_ok hK _ hs
  | joinMsg => exact execJoinMsg_ok hK _ _ _ hs
  | joinAnswer => exact execJoinAnswer_ok hK _ _ _ hs
  | ethLinkUp => exact execEthLinkUp_ok hK _ _ _ hs
  | ethPortDown => exact execEthPortDown_ok hK _ _ hs
  | ethFrameReceive => exact execEthFrameReceive_ok hK _ _ _ hs
  | neighbourAnswer => exact execNeighbourAnswer_ok hK _ _ _ _ hs
  | ptpEvent => exact execPtpEvent_ok hK _ _ _ hs
  | roceSend => exact execRoceSend_ok hK _ _ _ hs
  | roceWrite => exact execRoceWrite_ok hK _ _ _ hs
  | roceRead => exact execRoceRead_ok hK _ _ _ hs
  | nakInvalidRequest => exact execNakInvalidRequest_ok hK _ _ _ hs
  | roceRetransmit => exact execRoceRetransmit_ok hK _ _ _ hs
  | cnpReceive => exact execCnpReceive_ok hK _ _ _ hs
  | rateRegain => exact execRateRegain_ok hK _ _ _ hs
  | sqBell => exact execSqBell_ok hK _ _ _ _ hs
  | sqEntryComplete => exact execSqEntryComplete_ok hK _ _ _ _ hs
  | statusReq => exact execStatusReq_ok hK _ _ _ hs
  | offer => exact execOffer_ok hK _ _ _ hs
  | startMsg => exact execStartMsg_ok hK _ _ _ hs
  | pitchEnd => exact execPitchEnd_ok hK _ _ _ hs
  | tollGet => exact execTollGet_ok hK _ _ _ hs
  | notAfter => exact execNotAfter_ok hK _ hs
  | pitchNormStop => exact execPitchNormStop_ok hK _ hs
  | checkpointDone => exact execCheckpointDone_ok hK _ hs
  | scrub => exact execScrub_ok hK _ hs
  | scrubEnd => exact execScrubEnd_ok hK _ hs
  | tollCkpt => exact execTollCkpt_ok hK _ hs
  | coldStart => rw [exec]; exact execColdStart_ok hK _ _ _ hs
  | readyRequest => exact execReadyRequest_ok hK _ _ hs
  | wardenLoadDone => exact execWardenLoadDone_ok hK _ hs
  | warmReserveEnter => exact execWarmReserveEnter_ok hK _ hs
  | coldRestart => exact execColdRestart_ok hK _ _ _ hs
  | warmRestart => exact execWarmRestart_ok hK _ _ _ hs
  | trialCommit => exact execTrialCommit_ok hK _ hs
  | flashRead => exact execFlashRead_ok hK _ _ _ hs
  | flashProgram => exact execFlashProgram_ok hK _ _ _ hs
  | flashErase => exact execFlashErase_ok hK _ _ _ hs
  | flashCmdDone => exact execFlashCmdDone_ok hK _ _ hs
  | feedLost => exact execFeedLost_ok hK _ _ hs
  | feedRestored => exact execFeedRestored_ok hK _ _ hs
  | feedReverse => exact execFeedReverse_ok hK _ _ hs
  | surge => exact execSurge_ok hK _ hs
  | overvoltage => exact execOvervoltage_ok hK _ hs
  | brownout => exact execBrownout_ok hK _ hs
  | brownoutRecover => exact execBrownoutRecover_ok hK _ hs
  | feedFault => exact execFeedFault_ok hK _ _ hs
  | feedReclose => exact execFeedReclose_ok hK _ _ hs
  | railFault => exact execRailFault_ok hK _ _ hs
  | senseOpen => exact execSenseOpen_ok hK _ _ hs
  | shellWatchdog => exact execShellWatchdog_ok hK _ hs
  | managerStep => exact execManagerStep_ok hK _ hs
  | limitFloor => exact execLimitFloor_ok hK _ hs
  | overcurrentTrip => exact execOvercurrentTrip_ok hK _ hs
  | droop => exact execDroop_ok hK _ _ hs
  | droopRelease => exact execDroopRelease_ok hK _ _ hs
  | overtemp => exact execOvertemp_ok hK _ _ hs
  | shutdown => exact execShutdown_ok hK _ hs
  | shutdownRelease => exact execShutdownRelease_ok hK _ hs
  | telemetrySample => exact execTelemetrySample_ok hK _ _ hs
  | pwrTileOnWrite => exact execPwrTileOnWrite_ok hK _ _ _ _ hs
  | freqWindow => exact execFreqWindow_ok hK _ _ hs
  | oscWindow => exact execOscWindow_ok hK _ _ hs
  | pllLock => exact execPllLock_ok hK _ _ _ hs
  | pllUnlock => exact execPllUnlock_ok hK _ _ _ hs
  | pllSleep => exact execPllSleep_ok hK _ _ hs
  | arrStop => exact execArrStop_ok hK _ _ _ hs
  | clkFreqWrite => exact execClkFreqWrite_ok hK _ _ _ _ hs
  | clkoutWrite => exact execClkoutWrite_ok hK _ _ _ hs
  | timeStep => exact execTimeStep_ok hK _ _ _ hs
  | timeSlew => exact execTimeSlew_ok hK _ _ _ hs
  | timeReqSend => exact execTimeReqSend_ok hK _ hs
  | timeReq => exact execTimeReq_ok hK _ _ _ hs
  | timeResp => exact execTimeResp_ok hK _ _ _ hs
  | timeUnsync => exact execTimeUnsync_ok hK _ hs
  | pcSample => exact execPcSample_ok hK _ _ _ hs
  | clear64 => exact execClear64_ok hK _ _ _ hs
  | clear32 => exact execClear32_ok hK _ _ _ hs
  | opcClear => exact execOpcClear_ok hK _ _ _ _ hs
  | opcCfgWrite => exact execOpcCfgWrite_ok hK _ _ _ _ _ hs
  | sampleGo => exact execSampleGo_ok hK _ _ _ _ hs
  | snapGo => exact execSnapGo_ok hK _ _ _ hs
  | dobRaise => exact execDobRaise_ok hK _ _ _ _ hs
  | stageBegin => exact execStageBegin_ok hK _ _ _ hs
  | stageBlock => exact execStageBlock_ok hK _ _ _ hs
  | stageFinish => exact execStageFinish_ok hK _ _ _ hs
  | stageActivate => exact execStageActivate_ok hK _ _ _ hs
  | stageAbort => exact execStageAbort_ok hK _ _ _ hs
  | stageOpEnd => exact execStageOpEnd_ok hK _ _ hs
  | fwStart => exact execFwStart_ok hK _ _ _ hs
  | fwData => exact execFwData_ok hK _ _ _ hs
  | fwAck => exact execFwAck_ok hK _ _ _ hs
  | fwDone => exact execFwDone_ok hK _ _ _ hs
  | hello => exact execHello_ok hK _ hs
  | recoveryBlock => exact execRecoveryBlock_ok hK _ _ hs
  | activate => exact execActivate_ok hK _ _ hs
  | dbgNewChal => exact execDbgNewChal_ok hK _ _ hs
  | dbgCheck => exact execDbgCheck_ok hK _ _ hs
  | dbgPwWrite => exact execDbgPwWrite_ok hK _ _ hs
  | sensorSample => exact execSensorSample_ok hK _ _ hs
  | sensFlowLow => exact execSensFlowLow_ok hK _ hs
  | sensCoolantHot => exact execSensCoolantHot_ok hK _ _ hs
  | dieBlind => exact execDieBlind_ok hK _ _ hs
  | cablePresent => exact execCablePresent_ok hK _ _ _ hs
  | cagePresent => exact execCagePresent_ok hK _ _ _ _ hs
  | sensConnPower => exact execSensConnPower_ok hK _ _ hs
  | uartRequest => exact execUartRequest_ok hK _ _ hs
  | i2cRead => exact execI2cRead_ok hK _ _ _ hs
  | alwaysOnOff => exact execAlwaysOnOff_ok hK _ hs
  | jtagInstruction => exact execJtagInstruction_ok hK _ _ hs
  | scMessageSent => exact execScMessageSent_ok hK _ _ hs

end Sys2Proof.Machine
end

