-- ==== Sys2Proof/Laws/Raise.lean ====
section
/-! SUPPORT. What raising an event of a die or of a module block can do, said once. -/

namespace Sys2Proof.Machine

/-- Nothing happened. -/
theorem Logged.refl (s : State) (d : Nat) (ev : List Nat) : Logged s s d ev :=
  ⟨fun _ _ _ => rfl, rfl, fun _ _ h => h, fun _ _ => rfl, fun _ => ⟨_, rfl⟩, ⟨_, rfl⟩, rfl, rfl, rfl, rfl, rfl, rfl, rfl,
    rfl, rfl⟩

/-- One after the other. -/
theorem Logged.trans {s t u : State} {d : Nat} {ev : List Nat} (h : Logged s t d ev) (k : Logged t u d ev) :
    Logged s u d ev := by
  have e : ∀ a, inLogRing t d a ↔ inLogRing s d a := by
    intro a; unfold inLogRing State.g; rw [h.ctl]
  refine ⟨?_, ?_, ?_, ?_, ?_, ?_, ?_, ?_, ?_, ?_, ?_, ?_, ?_, ?_, ?_⟩
  · intro a h1 h2; rw [k.rd a h1 h2, h.rd a h1 h2]
  · rw [k.ctl, h.ctl]
  · intro i hi h1; exact k.evs i hi (h.evs i hi h1)
  · intro a ha; rw [k.byte a (mt (e a).1 ha), h.byte a ha]
  · intro n
    obtain ⟨b, hb⟩ := h.dies n
    obtain ⟨c, hc⟩ := k.dies n
    exact ⟨c, by rw [hc, hb]⟩
  · obtain ⟨b, hb⟩ := h.mod
    obtain ⟨c, hc⟩ := k.mod
    exact ⟨c, by rw [hc, hb]⟩
  · rw [k.tiles, h.tiles]
  · rw [k.ports, h.ports]
  · rw [k.flaws, h.flaws]
  · rw [k.loose, h.loose]
  · rw [k.waiting, h.waiting]
  · rw [k.out, h.out]
  · rw [k.free, h.free]
  · rw [k.reply, h.reply]
  · rw [k.pending, h.pending]

/-- A register word written: of the registers named, or of the die's log. -/
theorem Logged.wr (s : State) (d : Nat) (ev : List Nat) (a : Nat) (w : Word)
    (h : a ∈ ev ∨ logReg d a) (hc : a ≠ Reg.dobLogCtl d)
    (he : a = Reg.dobEvents d → ∀ i, i < 64 → (s.rd a).getLsbD i = true → w.getLsbD i = true) :
    Logged s (s.wr a w) d ev := by
  refine ⟨?_, ?_, ?_, ?_, ?_, ?_, rfl, rfl, rfl, rfl, rfl, rfl, rfl, rfl, rfl⟩
  · intro b h1 h2
    rw [State.rd_wr, if_neg]
    rintro rfl
    rcases h with h | h
    · exact h1 h
    · exact h2 h
  · rw [State.rd_wr, if_neg (Ne.symm hc)]
  · intro i hi h1
    rw [State.rd_wr]
    split
    · rename_i e; exact he e.symm i hi (e ▸ h1)
    · exact h1
  · intro b _; rfl
  · intro k; exact ⟨_, rfl⟩
  · exact ⟨_, rfl⟩

theorem dob_events (d : Nat) : logReg d (Reg.dobEvents d) := .inl rfl

/-- A bit of a register set. -/
theorem Logged.setBit (s : State) (d : Nat) (ev : List Nat) (a i : Nat)
    (h : a ∈ ev ∨ logReg d a) (hc : a ≠ Reg.dobLogCtl d) : Logged s (s.setBit a i) d ev := by
  refine Logged.wr s d ev a _ h hc ?_
  intro _ j hj h1
  rw [setFld_bit _ _ _ _ _ hj]
  split
  · rename_i hb
    have hb' : i ≤ j ∧ j < i + 1 := hb
    have : j - i = 0 := by omega
    simp only [this]; decide
  · exact h1

/-- Consecutive words of the DOB block other than DOB_EVENTS and DOB_LOG_CTL. -/
theorem Logged.wrWords (d : Nat) (ev : List Nat) : ∀ (ws : List Word) (s : State) (a : Nat),
    dieBlk d 0x1A00200 ≤ a → a + 8 * ws.length ≤ dieBlk d 0x1A00240 → Logged s (s.wrWords a ws) d ev
  | [], s, _, _, _ => Logged.refl s d ev
  | w :: ws, s, a, h1, h2 => by
    have e1 : dieBlk d 0x1A00200 = dieBlk d 0 + 0x1A00200 := by unfold dieBlk; omega
    have e2 : dieBlk d 0x1A00240 = dieBlk d 0 + 0x1A00240 := by unfold dieBlk; omega
    have l : (w :: ws).length = ws.length + 1 := rfl
    rw [l] at h2
    refine (Logged.wr s d ev a w (.inr (.inr (.inr (.inl ?_)))) ?_ ?_).trans (Logged.wrWords d ev ws _ _ (by omega) (by omega))
    · unfold Reg.dobLogLast dieBlk at *; omega
    · unfold Reg.dobLogCtl dieBlk at *; omega
    · intro e; unfold Reg.dobEvents dieBlk at *; omega

theorem padTo_length {α : Type} (x : α) : ∀ (n : Nat) (l : List α), (padTo x n l).length = n
  | 0, _ => rfl
  | n + 1, [] => by rw [padTo, List.length_cons, padTo_length x n []]
  | n + 1, _ :: xs => by rw [padTo, List.length_cons, padTo_length x n xs]

theorem leBytes_length : ∀ n v : Nat, (leBytes n v).length = n
  | 0, _ => rfl
  | n + 1, v => by rw [leBytes, List.length_cons, leBytes_length n]

theorem logWords_length (s : State) (e : Ev) (at' : EvAt) (i : Info) (b : Bool) : (logWords s e at' i b).length = 8 := by
  unfold logWords
  rw [List.length_append, padTo_length]; rfl

theorem wordsBytes_length : ∀ ws : List Word, (wordsBytes ws).length = 8 * ws.length
  | [] => rfl
  | w :: ws => by
    have h := wordsBytes_length ws
    unfold wordsBytes at h ⊢
    rw [List.flatMap_cons, List.length_append, leBytes_length, h, List.length_cons]; omega

/-- DOB_LOG_LAST takes a record. -/
theorem Logged.logLast (s : State) (d : Nat) (ev : List Nat) (ws : List Word) (h : ws.length = 8) :
    Logged s (s.wrWords (Reg.dobLogLast d 0) ws) d ev := by
  refine Logged.wrWords d ev ws s _ ?_ ?_
  · unfold Reg.dobLogLast dieBlk; omega
  · rw [h]; unfold Reg.dobLogLast dieBlk; omega

/-- The die notes whether a record was dropped. -/
theorem Logged.dropped (s : State) (d : Nat) (ev : List Nat) (b : Bool) (x : DieS) (hx : s.die d = x) :
    Logged s (s.setDie d { x with logDropped := b }) d ev := by
  refine ⟨fun _ _ _ => rfl, rfl, fun _ _ h => h, fun _ _ => rfl, ?_, ⟨_, rfl⟩, rfl, rfl, rfl, rfl, rfl, rfl, rfl, rfl, rfl⟩
  intro k
  rw [State.die_setDie]
  split
  · rename_i e; subst e; rw [hx]; exact ⟨b, rfl⟩
  · exact ⟨_, rfl⟩

/-- A choice between two states that both only logged. -/
theorem Logged.ite {s u v : State} {d : Nat} {ev : List Nat} (c : Prop) [Decidable c] (h1 : Logged s u d ev)
    (h2 : Logged s v d ev) : Logged s (if c then u else v) d ev := by
  by_cases h : c
  · rw [if_pos h]; exact h1
  · rw [if_neg h]; exact h2

theorem setBytes_rest : ∀ (bs : List Byte) (s : State) (a : Nat),
    ∃ m, s.setBytes a bs = { s with mem := m }
  | [], s, _ => ⟨s.mem, rfl⟩
  | b :: bs, s, a => by
    obtain ⟨m, h⟩ := setBytes_rest bs (s.setByte a b) (a + 1)
    exact ⟨m, by rw [State.setBytes, h]; rfl⟩

theorem rawWrite_rest (s : State) (a : Nat) (bs : List Byte) :
    ∃ m v, s.rawWrite a bs = { s with mem := m, valid := v } ∧ (s.rawWrite a bs).mem = (s.setBytes a bs).mem := by
  obtain ⟨m, h⟩ := setBytes_rest bs s a
  unfold State.rawWrite
  rw [h]
  dsimp only
  split <;> exact ⟨m, _, rfl, rfl⟩

/-- A record in the ring. -/
theorem Logged.ring (s : State) (d : Nat) (ev : List Nat) (slot : Nat) (bs : List Byte) (hl : bs.length = 64)
    (hs : slot < 256) :
    Logged s (s.rawWrite (s.g (Reg.dobLogCtl d) Reg.dobLogCtl_base + 64 * slot) bs) d ev := by
  obtain ⟨m, v, h, hm⟩ := rawWrite_rest s (s.g (Reg.dobLogCtl d) Reg.dobLogCtl_base + 64 * slot) bs
  refine ⟨?_, ?_, ?_, ?_, ?_, ?_, ?_, ?_, ?_, ?_, ?_, ?_, ?_, ?_, ?_⟩
  · intro a _ _; rw [h]; rfl
  · rw [h]; rfl
  · intro i _ h1; rw [h]; exact h1
  · intro a ha
    unfold inLogRing at ha
    have e : (s.rawWrite (s.g (Reg.dobLogCtl d) Reg.dobLogCtl_base + 64 * slot) bs).byte a =
        (s.setBytes (s.g (Reg.dobLogCtl d) Reg.dobLogCtl_base + 64 * slot) bs).byte a := by
      unfold State.byte; rw [hm]
    rw [e, State.byte_setBytes, dif_neg (by omega)]
  · intro k; rw [h]; exact ⟨_, rfl⟩
  · rw [h]; exact ⟨_, rfl⟩
  all_goals rw [h]

theorem Logged.dobWr (s : State) (d : Nat) (ev : List Nat) (a : Nat) (w : Word) (h : logReg d a)
    (hc : a ≠ Reg.dobLogCtl d) (he : a ≠ Reg.dobEvents d) : Logged s (s.wr a w) d ev :=
  Logged.wr s d ev a w (.inr h) hc (fun e => absurd e he)

theorem Logged.dropCount (s : State) (d : Nat) (ev : List Nat) : Logged s (s.inc32 (Reg.dobCnt32 d 119) 1) d ev := by
  refine Logged.dobWr s d ev _ _ ?_ ?_ ?_
  · exact .inr (.inr (.inr (.inl rfl)))
  · unfold Reg.dobCnt32 Reg.dobLogCtl dieBlk; omega
  · unfold Reg.dobCnt32 Reg.dobEvents dieBlk; omega

theorem Logged.eventBit (s : State) (d : Nat) (ev : List Nat) (j : Nat) :
    Logged s (s.setBit (Reg.dobEvents d) j) d ev := by
  refine Logged.setBit s d ev _ _ (.inr (dob_events d)) ?_
  unfold Reg.dobEvents Reg.dobLogCtl dieBlk; omega

theorem Logged.logStat (s : State) (d : Nat) (ev : List Nat) (w : Word) : Logged s (s.wr (Reg.dobLogStat d) w) d ev := by
  refine Logged.dobWr s d ev _ _ ?_ ?_ ?_
  · exact .inr (.inl rfl)
  · unfold Reg.dobLogStat Reg.dobLogCtl dieBlk; omega
  · unfold Reg.dobLogStat Reg.dobEvents dieBlk; omega

theorem Logged.line (s : State) (d : Nat) (ev : List Nat) : Logged s (s.lineRaw true d 0 0).2 d ev := by
  unfold State.lineRaw
  simp only [if_true]
  split
  · exact Logged.refl _ _ _
  · refine Logged.wr s d ev _ _ (.inr (.inr (.inr (.inr (.inr rfl))))) ?_ ?_
    · unfold Reg.dcpReq Reg.dobLogCtl dieBlk; omega
    · intro e; unfold Reg.dcpReq Reg.dobEvents dieBlk at e; omega

theorem die_wr (s : State) (a : Nat) (w : Word) (d : Nat) : (s.wr a w).die d = s.die d := rfl

/-- A dropped record is counted and noted. -/
theorem Logged.drop (s : State) (d : Nat) (ev : List Nat) :
    Logged s ((s.inc32 (Reg.dobCnt32 d 119) 1).setDie d { s.die d with logDropped := true }) d ev := by
  refine (Logged.dropCount s d ev).trans (Logged.dropped _ d ev true (s.die d) ?_)
  unfold State.inc32
  exact die_wr _ _ _ _

/-- The saturation of CNT_LOG_DROP and its own record. -/
theorem Logged.dropSat (s : State) (d : Nat) (ev : List Nat) (i : Info) (b : Bool) (e : Ev) (at' : EvAt) :
    Logged s ((s.setBit (Reg.dobEvents d) 5).wrWords (Reg.dobLogLast d 0) (logWords s e at' i b)) d ev :=
  (Logged.eventBit s d ev 5).trans (Logged.logLast _ d ev _ (logWords_length s e at' i b))

/-- A record is kept at a slot. -/
theorem Logged.keep (s : State) (d : Nat) (ev : List Nat) (slot : Nat) (ws : List Word) (hl : ws.length = 8)
    (hs : slot < 256) (u : State) (hu : u = (s.rawWrite (s.g (Reg.dobLogCtl d) Reg.dobLogCtl_base + 64 * slot)
      (wordsBytes ws)).setDie d { s.die d with logDropped := false }) : Logged s u d ev := by
  obtain ⟨m, v, hr, -⟩ := rawWrite_rest s (s.g (Reg.dobLogCtl d) Reg.dobLogCtl_base + 64 * slot) (wordsBytes ws)
  have k2 := Logged.ring s d ev slot (wordsBytes ws) (by rw [wordsBytes_length, hl]) hs
  have hd : (s.rawWrite (s.g (Reg.dobLogCtl d) Reg.dobLogCtl_base + 64 * slot) (wordsBytes ws)).die d = s.die d := by
    rw [hr]; rfl
  rw [hu]
  exact k2.trans (Logged.dropped _ d ev false _ hd)

/-- A die's log takes a record, or drops it. -/
theorem Logged.logPut (d : Nat) (ev : List Nat) : ∀ (fuel : Nat) (s : State) (e : Ev) (at' : EvAt) (i : Info),
    Logged s (s.logPut d e at' i fuel) d ev
  | 0, s, e, at', i => Logged.logLast s d ev _ (logWords_length _ _ _ _ _)
  | fuel + 1, s, e, at', i => by
    have hl := logWords_length s e at' i (s.die d).logDropped
    have k1 := Logged.logLast s d ev (logWords s e at' i (s.die d).logDropped) hl
    unfold State.logPut
    dsimp only
    generalize logWords s e at' i (s.die d).logDropped = ws at hl k1 ⊢
    generalize s.wrWords (Reg.dobLogLast d 0) ws = s1 at k1 ⊢
    have hslot : s.g (Reg.dobLogStat d) Reg.dobLogStat_slot < 256 := by
      unfold State.g fld; exact BitVec.isLt _
    have hb : s.g (Reg.dobLogCtl d) Reg.dobLogCtl_base = s1.g (Reg.dobLogCtl d) Reg.dobLogCtl_base := by
      unfold State.g; rw [k1.ctl]
    rw [hb]
    generalize s.g (Reg.dobLogStat d) Reg.dobLogStat_slot = slot at hslot ⊢
    refine Logged.ite _ (Logged.ite _ ?_ ?_) k1
    · have k2 := k1.trans (Logged.drop s1 d ev)
      generalize ((s1.inc32 (Reg.dobCnt32 d 119) 1).setDie d { s1.die d with logDropped := true }) = s2 at k2 ⊢
      have k3 := k2.trans (Logged.dropSat s2 d ev { detail := [BitVec.ofNat 64 (0x1A + 256 * 119)] } true ⟨0x1A, 0, 5⟩ (.die d))
      generalize (s2.setBit (Reg.dobEvents d) 5).wrWords (Reg.dobLogLast d 0)
        (logWords s2 ⟨0x1A, 0, 5⟩ (.die d) { detail := [BitVec.ofNat 64 (0x1A + 256 * 119)] } true) = s3 at k3 ⊢
      have k4 : Logged s (if s1.satRises (Reg.dobCnt32 d 119) 1 = true then s3 else s2) d ev := Logged.ite _ k3 k2
      generalize (if s1.satRises (Reg.dobCnt32 d 119) 1 = true then s3 else s2) = s4 at k4 ⊢
      have k5 : Logged s4 (s4.p (Reg.dobEvents d) Reg.dobEvents_log_lost 1) d ev := Logged.eventBit s4 d ev _
      exact Logged.ite _ k4 ((k4.trans k5).trans (Logged.logPut d ev fuel _ _ _ _))
    · have k2 := k1.trans (Logged.keep s1 d ev slot ws hl hslot _ rfl)
      generalize (s1.rawWrite (s1.g (Reg.dobLogCtl d) Reg.dobLogCtl_base + 64 * slot) (wordsBytes ws)).setDie d
        { s1.die d with logDropped := false } = s2 at k2 ⊢
      have k4 : Logged s (s2.p (Reg.dobLogStat d) Reg.dobLogStat_slot ((slot + 1) % 256)) d ev :=
        k2.trans (Logged.logStat s2 d ev _)
      generalize s2.p (Reg.dobLogStat d) Reg.dobLogStat_slot ((slot + 1) % 256) = s3 at k4 ⊢
      have k5 : Logged s3 (s3.setBit (Reg.dobLogStat d) (8 + slot / 64)) d ev := Logged.logStat s3 d ev _
      exact Logged.ite _ ((k4.trans k5).trans (Logged.line _ d ev)) k4

theorem Logged.ofFlash (s : State) (d : Nat) (ev : List Nat) (l : List (List Word)) :
    Logged s (s.setM { s.m with flashLog := l }) d ev :=
  ⟨fun _ _ _ => rfl, rfl, fun _ _ h => h, fun _ _ => rfl, fun _ => ⟨_, rfl⟩, ⟨l, rfl⟩, rfl, rfl, rfl, rfl, rfl, rfl, rfl,
    rfl, rfl⟩

/-- A record kept by the steward's flash ring. -/
theorem Logged.flashPut (s : State) (d : Nat) (ev : List Nat) (e : Ev) (at' : EvAt) (i : Info) :
    Logged s (s.flashPut e at' i) d ev := by
  unfold State.flashPut
  exact Logged.ite _ (Logged.ofFlash _ _ _ _) (Logged.refl _ _ _)

theorem Logged.logRec (s : State) (ev : List Nat) (e : Ev) (at' : EvAt) (i : Info) :
    Logged s (s.logRec e at' i) at'.dieNo ev := by
  unfold State.logRec
  refine Logged.trans ?_ (Logged.flashPut _ _ _ _ _ _)
  split
  · exact Logged.logPut _ _ _ _ _ _ _
  · exact Logged.refl _ _ _

/-- Raising an event of a die, of a module block or of one of its parts sets its bit and keeps its record; no unit, no
other register and no byte outside the log's ring changes. -/
theorem State.raise_logged (s : State) (e : Ev) (at' : EvAt) (i : Info) (ht : ∀ d t, at' ≠ .tile d t)
    (hc : ∀ a, evReg e at' = some a → a ≠ Reg.dobLogCtl at'.dieNo) :
    Logged s (s.raise e at' i) at'.dieNo (evReg e at').toList := by
  unfold State.raise
  dsimp only
  cases at' with
  | tile d t => exact absurd rfl (ht d t)
  | _ =>
    dsimp only
    refine Logged.trans ?_ (Logged.logRec _ _ _ _ _)
    cases h : evReg e _ with
    | none => exact Logged.refl _ _ _
    | some a => exact Logged.setBit _ _ _ _ _ (.inl (List.mem_singleton.2 rfl)) (hc a h)

/-- An event's bit is 1 after it is raised. -/
theorem State.raise_bit (s : State) (e : Ev) (at' : EvAt) (i : Info) (a : Nat) (ht : ∀ d t, at' ≠ .tile d t)
    (h : evReg e at' = some a) (hb : e.bit < 64)
    (ha : a = Reg.dobEvents at'.dieNo ∨ ¬ logReg at'.dieNo a) :
    ((s.raise e at' i).rd a).getLsbD e.bit = true := by
  have k : ∀ (u : State) (j : Info), (u.rd a).getLsbD e.bit = true → ((u.logRec e at' j).rd a).getLsbD e.bit = true := by
    intro u j hu
    have l := Logged.logRec u [] e at' j
    rcases ha with rfl | h1
    · exact l.evs _ hb hu
    · rw [l.rd a (by simp) h1]; exact hu
  have h0 : ((s.setBit a e.bit).rd a).getLsbD e.bit = true := by
    unfold State.setBit
    rw [State.rd_p, if_pos rfl, setFld_bit _ _ _ _ _ hb]
    simp
  unfold State.raise
  dsimp only
  cases at' with
  | tile d t => exact absurd rfl (ht d t)
  | _ => rw [h]; exact k _ _ h0

end Sys2Proof.Machine
end

