-- ==== Sys2Proof/Laws/Quiet.lean ====
section
/-! SUPPORT. What the shared operations of the module's own part leave alone, said once per operation. -/

namespace Sys2Proof.Machine

/-- Nothing happened. -/
theorem Quiet.refl (s : State) : Quiet s s := ⟨fun _ _ _ => rfl, fun _ _ => rfl, fun _ => ⟨_, rfl⟩, rfl, rfl, rfl, rfl, rfl⟩
theorem dobLogCtl_low : Reg.dobLogCtl 0 < 0x7F0000000000 ∧ ¬ logReg 0 (Reg.dobLogCtl 0) := by
  refine ⟨by decide, ?_⟩; unfold logReg; decide
/-- One after the other. -/
theorem Quiet.trans {s t u : State} (h : Quiet s t) (k : Quiet t u) : Quiet s u := by
  have e : ∀ a, inLogRing t 0 a ↔ inLogRing s 0 a := by
    intro a; unfold inLogRing State.g; rw [h.rd _ dobLogCtl_low.1 dobLogCtl_low.2]
  refine ⟨?_, ?_, ?_, ?_, ?_, ?_, ?_, ?_⟩
  · intro a h1 h2; rw [k.rd a h1 h2, h.rd a h1 h2]
  · intro a ha; rw [k.byte a (mt (e a).1 ha), h.byte a ha]
  · intro n
    obtain ⟨b, hb⟩ := h.dies n
    obtain ⟨c, hc⟩ := k.dies n
    exact ⟨c, by rw [hc, hb]⟩
  · rw [k.tiles, h.tiles]
  · rw [k.ports, h.ports]
  · rw [k.flaws, h.flaws]
  · rw [k.loose, h.loose]
  · rw [k.waiting, h.waiting]
/-- A module register written. -/
theorem Quiet.wr {s t : State} (a : Nat) (w : Word) (ha : 0x7F0000000000 ≤ a) (h : Quiet s t) : Quiet s (t.wr a w) := by
  refine h.trans ⟨?_, fun _ _ => rfl, fun _ => ⟨_, rfl⟩, rfl, rfl, rfl, rfl, rfl⟩
  intro b h1 _; rw [State.rd_wr, if_neg (by omega)]
/-- A field of a module register written. -/
theorem Quiet.p {s t : State} (a : Nat) (f : RF) (v : Nat) (ha : 0x7F0000000000 ≤ a) (h : Quiet s t) : Quiet s (t.p a f v) := Quiet.wr _ _ ha h
/-- An update of other parts. -/
theorem Quiet.same {s t u : State} (h1 : u.regs = t.regs) (h2 : u.mem = t.mem) (h3 : u.dies = t.dies) (h4 : u.tiles = t.tiles)
    (h5 : u.ports = t.ports) (h6 : u.flaws = t.flaws) (h7 : u.loose = t.loose) (h8 : u.waiting = t.waiting) (h : Quiet s t) : Quiet s u := by
  refine h.trans ⟨?_, ?_, ?_, h4, h5, h6, h7, h8⟩
  · intro a _ _; unfold State.rd; rw [h1]
  · intro a _; unfold State.byte; rw [h2]
  · intro k; unfold State.die; rw [h3]; exact ⟨_, rfl⟩
theorem Quiet.setM {s t : State} (m : ModS) (h : Quiet s t) : Quiet s (t.setM m) := Quiet.same (t := t) rfl rfl rfl rfl rfl rfl rfl rfl h
theorem Quiet.answer {s t : State} (m : Reply) (h : Quiet s t) : Quiet s (t.answer m) := Quiet.same (t := t) rfl rfl rfl rfl rfl rfl rfl rfl h
theorem Quiet.emit {s t : State} (m : Emit) (h : Quiet s t) : Quiet s (t.emit m) := Quiet.same (t := t) rfl rfl rfl rfl rfl rfl rfl rfl h
theorem Quiet.draw {s t : State} (h : Quiet s t) : Quiet s t.draw.2 := Quiet.same (t := t) rfl rfl rfl rfl rfl rfl rfl rfl h
/-- A choice between two quiet outcomes. -/
theorem Quiet.ite {s u v : State} (c : Prop) [Decidable c] (h1 : Quiet s u) (h2 : Quiet s v) : Quiet s (if c then u else v) := by
  by_cases h : c
  · rw [if_pos h]; exact h1
  · rw [if_neg h]; exact h2
/-- Quiet steps over a list. -/
theorem Quiet.each {α : Type} {s : State} (f : State → α → State) (hf : ∀ t x, Quiet s t → Quiet s (f t x)) (l : List α) : ∀ t, Quiet s t → Quiet s (t.each f l) := by
  induction l with
  | nil => intro t h; exact h
  | cons x l ih => intro t h; exact ih _ (hf _ _ h)
/-- An event of die A or of a module block raised. -/
theorem Quiet.raise {s t : State} (e : Ev) (at' : EvAt) (i : Info) (hd : at'.dieNo = 0) (ht : ∀ d t, at' ≠ .tile d t)
    (ha : ∀ a, evReg e at' = some a → 0x7F0000000000 ≤ a ∨ a = Reg.dobEvents 0) (h : Quiet s t) : Quiet s (t.raise e at' i) := by
  have hc : ∀ a, evReg e at' = some a → a ≠ Reg.dobLogCtl at'.dieNo := by
    intro a hx; rw [hd]; rcases ha a hx with h | h
    · intro e; rw [e] at h; revert h; decide
    · rw [h]; decide
  have l := State.raise_logged t e at' i ht hc
  rw [hd] at l
  refine h.trans ⟨?_, l.byte, l.dies, l.tiles, l.ports, l.flaws, l.loose, l.waiting⟩
  intro a h1 h2
  refine l.rd a ?_ h2
  intro hx
  cases he : evReg e at' with
  | none => rw [he] at hx; simp at hx
  | some b =>
    rw [he] at hx; have : a = b := by simpa using hx
    rcases ha b he with h | h
    · omega
    · exact h2 (.inl (this.trans h))
/-- An event of a module block raised. -/
theorem Quiet.raiseModule {s t : State} (e : Ev) (i : Info) (hb : e.blk = 0x20 ∨ e.blk = 0x22 ∨ e.blk = 0x23 ∨ e.blk = 0x24 ∨ e.blk = 0x25) (h : Quiet s t) : Quiet s (t.raise e .module i) := by
  refine Quiet.raise e .module i rfl (by intro _ _ h; cases h) ?_ h
  intro a ha
  left
  unfold evReg at ha
  have k : ∀ x, some x = some a → 0x7F0000000000 ≤ x → 0x7F0000000000 ≤ a := by
    intro x h1 h2; cases h1; exact h2
  split at ha
  · cases ha
  · rcases hb with h | h | h | h | h <;> rw [h] at ha <;> dsimp only at ha
    · exact k _ ha (by decide)
    · exact k _ ha (by decide)
    · by_cases h0 : e.idx = 0
      · rw [if_pos h0] at ha; exact k _ ha (by decide)
      · rw [if_neg h0] at ha; exact k _ ha (by decide)
    · exact k _ ha (by decide)
    · exact k _ ha (by decide)
/-- A counter of a module block counts. -/
theorem Quiet.mbrk {s t : State} (a b j n : Nat) (ha : 0x7F0000000000 ≤ a) (h : Quiet s t) : Quiet s (t.mbrk a b j n) := by
  unfold State.mbrk
  refine Quiet.ite _ h (Quiet.ite _ ?_ (Quiet.wr _ _ ha h))
  unfold State.satEvent; dsimp only
  refine Quiet.raise _ _ _ rfl (by intro _ _ h; cases h) ?_ (Quiet.wr _ _ ha h)
  intro a ha; right; unfold evReg at ha; cases ha; rfl
/-- An event of die A raised. -/
theorem Quiet.raiseDie {s t : State} (b : Nat) (i : Info) (h : Quiet s t) : Quiet s (t.raise ⟨0x1A, 0, b⟩ (.die 0) i) := by
  refine Quiet.raise _ _ _ rfl (by intro _ _ h; cases h) ?_ h
  intro a ha; right; unfold evReg at ha; cases ha; rfl
/-- A write of a module register whose effect is quiet. -/
theorem Quiet.regWr (s : State) (r : Requester) (a : Nat) (l : RegLoc) (hl : rgnOf a = .reg l) (hm : l.blk.isModule = true) (f : State → State)
    (hf : ∀ t, Quiet s t → Quiet s (f t)) : Quiet s (s.regWr r a f) := by
  unfold State.regWr
  have hb : l.blk.isTile = false := by revert hm; cases l.blk <;> decide
  have hn : ∀ b, l.blk = b → b.isModule = true := by intro b h; rw [← h]; exact hm
  cases h : checkAccess s r true a with
  | some e =>
    dsimp only
    refine Quiet.answer _ ?_
    have he : e = .denied ∨ e = .notOwner := by
      unfold checkAccess at h; rw [hl] at h; simp only [reduceCtorEq, if_false] at h
      split at h
      · cases h; exact .inl rfl
      · unfold unreachable at h; simp only [hm, if_true] at h
        split at h
        · rename_i hx; simp at hx
        · split at h <;> cases h; exact .inr rfl
    unfold State.refuse errDie; rw [hl]; simp only [Rgn.die, hm, if_true, Option.getD]
    rcases he with rfl | rfl
    · exact Quiet.raiseDie _ _ (Quiet.refl s)
    · dsimp only [Rgn.bank]; exact Quiet.refl s
  | none =>
    dsimp only
    refine Quiet.ite _ (Quiet.answer _ (Quiet.refl s)) (hf _ ?_)
    refine Quiet.answer _ ?_
    unfold State.touch; rw [hl]; dsimp only; rw [hb]; exact Quiet.refl s

end Sys2Proof.Machine
end

