-- ==== Sys2Proof/Laws/Seq.lean ====
section
/-! SUPPORT. What the operations common to many commands do once their checks pass: a register write, and the issue of a
head descriptor. -/

namespace Sys2Proof.Machine

theorem regWr_of_accepted {s u : State} {r : Requester} {a : Nat} (h : Accepted s r a u) (f : State → State) :
    s.regWr r a f = f u := by
  obtain ⟨h1, h2, rfl⟩ := h
  unfold State.regWr
  rw [h1, h2]
  rfl

theorem issue_of_valid {s : State} {d t op : Nat} {x : Desc} (h : HeadValid s d t op x) (act : Desc → State → State)
    (he : engineOp op = true) : s.issue d t op act = act x s := by
  obtain ⟨h1, h2, rfl, h4, h5⟩ := h
  simp only [State.issue, h1]
  simp [h2, h4, h5, he]

theorem issue_of_issues {s : State} {d t op : Nat} {x : Desc} (h : HeadIssues s d t op x) (act : Desc → State → State)
    (he : engineOp op = false) : s.issue d t op act = act x s := by
  obtain ⟨⟨h1, h2, rfl, h4, h5⟩, h6, h7, h8⟩ := h
  have hw : (x.waitEn && !(s.tile d t).waitMet) = false := by cases hh : x.waitEn <;> simp_all
  simp only [State.issue, h1]
  simp [h2, h4, h5, he, h6, h8]
  intro hh; simp [hh] at hw; simp [hw]

theorem fltReceive_of_heard {s u : State} {p : Nat} {m : List Byte} {typ : Nat} (h : Heard s p m typ u)
    (act : State → State) : s.fltReceive p m typ act = act u := by
  obtain ⟨h1, h2, h0, ⟨h3, h4, rfl⟩ | ⟨h3, h4, h5, rfl⟩⟩ := h
  · unfold State.fltReceive
    have : ¬ (fltDst m ≠ servedStation u ∧ fltDst m ≠ ownHome u) := by tauto
    rw [if_neg (by simp [h1, h2, h0]), if_neg h3, if_neg this]
  · unfold State.fltReceive
    rw [if_neg (by simp [h1, h2, h0]), if_pos h3]
    simp only [h4, h5]
    rfl

theorem pitchIn_of_taken {s u : State} {e : Nat} {m : PitchMsg} {typ : Nat} (h : PitchTaken s e m typ u)
    (act : State → Nat × List Byte × State) :
    s.pitchIn e m typ act = (act u).2.2.replied e m (act u).1 (act u).2.1 := by
  obtain ⟨h1, h2, h3, h4, h5, h6, rfl⟩ := h
  unfold State.pitchIn
  rw [if_neg (by simp [h1, h2, h3]), if_neg (by simp [h4]), if_neg (by simp [h5]), if_neg (by simp [h6])]
  rfl

theorem deliver_of_reaches {s : State} {k : Packet} {t d : Nat} (h : Reaches s k t d)
    (act : State → Option AccErr × State) : s.deliver k t d act = (act s).2.ackIt d k (act s).1 := by
  obtain ⟨h1, h2, h3⟩ := h
  unfold State.deliver
  rw [if_neg (by simp [h1, h2]), if_neg (by simp [h3])]

theorem combine_of_reaches {s : State} {k : Packet} {t d : Nat} (h : Reaches s k t d) (act : State → State) :
    s.combine d k t act = act s := by
  obtain ⟨h1, h2, h3⟩ := h
  unfold State.combine
  rw [if_neg (by simp [h1]), if_neg (by simp [h3]), if_neg (by simp [h2])]

end Sys2Proof.Machine
end

