-- ==== Sys2Proof/Tests/Slice0.lean ====
section
/-! SUPPORT. Tests: the checks of WellFormed refuse ill-formed commands, worked examples of the manual come out, and a
concrete state and operands meet the hypotheses of every statement. -/

namespace Sys2Proof.Tests

open Sys2Proof Sys2Proof.Machine

set_option Elab.async false

/-! ## States and operands -/

/-- A die that is up: its clocks run and its memories are initialised. -/
def upDie : DieS := { DieS.reset with power := true, pllRun := 31, arrRoot := true, initDone := true }

/-- A module in Running with both dies, every tile and every clock on. -/
def up : State :=
  (((({ State.reset with dies := [(0, upDie), (1, upDie)], m := { ModS.reset with st := .running } }).wr
    (Reg.pwrTileOn 0) (-1)).wr (Reg.pwrTileOn 1) (-1)).wr (Reg.clkStatus 0) 0x3F).wr (Reg.clkStatus 1) 0x3F

/-- Warden 0 of die A. -/
def w0 : Requester := .warden 0 0

/-- `n` bytes, zero but for the values `(offset, length, value)`, little-endian. -/
def bytes (n : Nat) (l : List (Nat × Nat × Nat)) : List Byte :=
  l.foldl (fun x p => overlay x p.1 (leBytes p.2.1 p.2.2)) (List.replicate n 0)

/-- A descriptor. -/
def desc (l : List (Nat × Nat × Nat)) : Desc := bytes 64 l

/-- A read of `n` bytes, and a write. -/
def rdOf (a n : Nat) : Access := ⟨false, BitVec.ofNat 48 a, n, [], [], 0⟩
def wrOf (a : Nat) (bs : List Byte) : Access := ⟨true, BitVec.ofNat 48 a, 0, bs, [], 0⟩

/-- A packet of 0 to 4096 payload bytes. -/
def pkt (typ dst src addr tag : Nat) (payload : List Byte) : Packet :=
  { typ := BitVec.ofNat 8 typ, vc := 0, ttl := 5, dst := BitVec.ofNat 16 dst, src := BitVec.ofNat 16 src, unit := 0, rsv := 0,
    addr := BitVec.ofNat 48 addr, len := BitVec.ofNat 16 payload.length, tag := BitVec.ofNat 32 tag, ext := 0,
    payload := payload }

/-- A state with its die A, tile 0 of die A, a port or the module's part changed. -/
def dieA (s : State) (f : DieS → DieS) : State := s.setDie 0 (f (s.die 0))
def tile0 (s : State) (f : TileS → TileS) : State := s.setTile 0 0 (f (s.tile 0 0))
def portP (s : State) (p : Nat) (f : PortS → PortS) : State := s.setPort p (f (s.port p))
def modM (s : State) (f : ModS → ModS) : State := s.setM (f s.m)

/-- A register write that the checks let pass. -/
theorem accepted {s : State} {r : Requester} {a : Nat} (h : checkAccess s r true a = none ∧ notFurnished s a = false) :
    Accepted s r a (s.acked a) := ⟨h.1, h.2, rfl⟩

/-! ## Ill-formed commands are refused -/

/-- A side-channel message of 63 bytes. -/
def short : List Byte := List.replicate 63 0

theorem test_wf_access : (Instr.registerWrite w0 0 9 0).wf = false ∧ (Instr.registerWrite w0 0 0 0).wf = false ∧
    (Instr.memoryAccess w0 (rdOf 0 0) none).wf = false ∧ (Instr.memoryAccess w0 (wrOf 0 []) none).wf = false ∧
    (Instr.memoryAccess w0 (rdOf 0xFFFFFFFFFFFF 2) none).wf = false ∧
    (Instr.memoryAccess w0 { rdOf 0 1 with upset := [⟨0, false, [1]⟩] } none).wf = false ∧
    (Instr.memoryAccess w0 (rdOf 0 1) (some (w0, rdOf 0 0))).wf = false ∧ (Instr.memoryAccess w0 (rdOf 0 1) none).wf = true ∧
    (Instr.rcFill 0 1 .demand).wf = false ∧ (Instr.rcFill 0 0 (.runAhead (2 ^ 27))).wf = false ∧
    (Instr.xorLineWrite w0 0 [0]).wf = false ∧ (Instr.xorLineWrite w0 1 (List.replicate 64 0)).wf = false ∧
    (Instr.patrolRead 0 (.hbm 0) [⟨0, true, []⟩] false).wf = false := by decide +kernel

theorem test_wf_links : (Instr.trainingPhaseEnd 0 ⟨[], 0⟩).wf = false ∧ (Instr.portIdentity 0 []).wf = false ∧
    (Instr.laneErrors 0 0 (2 ^ 32)).wf = false ∧ (Instr.frameReceive 0 ⟨true, 0, []⟩).wf = false ∧
    (Instr.frameReceive 0 ⟨true, 16, List.replicate 642 0⟩).wf = false ∧
    (∀ c ∈ [Instr.packetRoute 0, .writePkt, .xorWrite, .tallyAdd, .wghPush, .ackPkt, .combineF32 0, .combineXor 0,
      .combineFlush 0, .nodeRound 0], (c { pkt 1 0 0 0 0 [0] with len := 2 }).wf = false) ∧
    (Instr.ackTimeout 0 (2 ^ 32)).wf = false := by decide +kernel

theorem test_wf_messages : (∀ c ∈ [Instr.sideChannelReceive 0, .heartbeat 0, .suspectMsg 0, .failMsg 0, .declareMsg 0,
      .readyMsg 0, .restoreMsg 0, .doneMsg 0, .resumeMsg 0, .stopMsg 0, .joinMsg 0, .joinAnswer 0, .timeReq 0, .timeResp 0,
      .fwStart 0, .fwData 0, .fwAck 0, .fwDone 0], (c short).wf = false ∧ (c (0 :: short)).wf = true) ∧
    (∀ c ∈ [Instr.positionSend 0 0, .directSlotSend 0 0, .slotHeaderWrite 0 0, .arrivalCheck 0 0, .clrDeadline 0 0,
      .clrStallLate 0 0, .creditAbandon 0 0, .gatherArrivalAdd 0 0, .suspectSend], (c 65536).wf = false) ∧
    (Instr.fltSelfFail (.engine 0 64)).wf = false := by decide +kernel

theorem test_wf_module : (Instr.ethFrameReceive 0 ⟨65536, 0, .own⟩).wf = false ∧
    (Instr.neighbourAnswer 0 [1] .resolve).wf = false ∧ (Instr.neighbourAnswer 0 [1, 2, 3, 4] (.answer [])).wf = false ∧
    (Instr.ptpEvent 0 (.followUp (2 ^ 64))).wf = false ∧
    (∀ c ∈ [Instr.roceSend 0, .roceWrite 0, .roceRead 0, .nakInvalidRequest 0], (c ⟨0, 1, 0, 0, 2, [0], 0⟩).wf = false) ∧
    (Instr.sqEntryComplete 0 0 (List.replicate 3 0)).wf = true ∧
    (∀ c ∈ [Instr.statusReq 0, .offer 0, .startMsg 0, .pitchEnd 0, .tollGet 0],
      (c ⟨[1, 2, 3, 4], short⟩).wf = false ∧ (c ⟨[1], 0 :: short⟩).wf = false) ∧
    (Instr.readyRequest []).wf = false ∧ (Instr.telemetrySample ⟨0, 0, 0, 0, []⟩).wf = false ∧
    (Instr.freqWindow (2 ^ 32)).wf = false ∧ (Instr.oscWindow (2 ^ 32)).wf = false ∧
    (Instr.sensorSample ⟨0, 0, 0, [], [], [], []⟩).wf = false ∧ (Instr.uartRequest (List.replicate 18 0)).wf = false ∧
    (Instr.i2cRead 0 0).wf = false := by decide +kernel

/-! ## Witnesses: a state and operands that meet the hypotheses of each statement -/

/-- The registers of die A and of the module whose writes the statements speak of. -/
def written : List Nat :=
  [Reg.seqCtl 0 0, Reg.tlyAdd 0 7, Reg.tlyCtl 0, Reg.wghCtl 0 0, Reg.genStateLo 0 0 3, Reg.genStateHi 0 0 3,
    Reg.updGenStateLo 0 3, Reg.updGenStateHi 0 3, Reg.updSubmit 0, Reg.prtSubmit 0, Reg.clrSubmit 0, Reg.dcpSubmit 0,
    Reg.updCtl 0, Reg.cpySwreq 0 0, Reg.dcpSwreq 0, Reg.prtCtl 0, Reg.memBankHand 0 0 24, Reg.memInvalidate 0 0,
    Reg.mapRegionRange 0 255, Reg.mapRegionAttr 0 255, Reg.mapRepairStat 0, Reg.mapRcCfg 0, Reg.lnkPortCtl 0 7,
    Reg.lnkComb 0 1023, Reg.lnkScCtl 0 7, Reg.lnkHbKick 0, Reg.clrCtl 0, Reg.ethSqBell 7, Reg.mgtCtl, Reg.mgtFlashCmd,
    Reg.pwrTileOn 0, Reg.clkCtl 0, Reg.clkFreq 0, Reg.mckClkout, Reg.timeStep, Reg.timeSlew, Reg.obsCtl 0 0,
    Reg.dobCtl 0, Reg.obsOpcCfg 0 0, Reg.obsSample 0 0, Reg.dobRaise 0, Reg.secStageCmd, Reg.secDbgCtl]

/-- Every register write of the statements is accepted of a warden of a running module. -/
theorem witness_accepted : ∀ a ∈ written, Accepted up w0 a (up.acked a) :=
  fun a h => accepted (by revert a h; decide +kernel)

theorem witness_queue : ({ up with pending := [.surge] } : State).pending = .surge :: [] ∧ State.reset.pending = [] ∧
    State.reset.canon = true ∧ up.canon = true ∧ (∃ t, exec .overvoltage up = .next t) :=
  ⟨rfl, rfl, by decide +kernel, by decide +kernel, _, rfl⟩

/-! ### Accesses -/

/-- A carve of 1 GiB on die A, and a cached page of tier 2 whose first line is being filled for warden 0. -/
def filling : State :=
  { (((up.p (Reg.mapRcCfg 0) Reg.mapRcCfg_rc_gib 1).wr (Reg.mapRegionRange 0 0) (setFld (setFld 0 0 27 0x80000) 32 20 1)).wr
      (Reg.mapRegionAttr 0 0) 0x4F) with
    waiting := [⟨w0, rdOf 0x10000000000 8, .fill 0 (rcLine 0)⟩] }

/-- Phase 6 of start-up has ended, memory initialisation has not. -/
def starting : State :=
  (modM { up with dies := [(0, { upDie with initDone := false }), (1, { upDie with initDone := false })] }
    (fun m => { m with st := .standby, boot := { m.boot with up := true } })).p Reg.mgtStatus Reg.mgtStatus_phase 6

theorem witness_access :
    (rgnOf (Reg.seqCtl 0 0) = .reg ⟨.seq, 0, 0, Reg.seqCtl 0 0 % 4096⟩ ∧ checkAccess up w0 true (Reg.seqCtl 0 0) = none) ∧
    (rgnOf 0x400040000000 = .pool 0 0 ∧ firstErr up w0 false 0x400040000000 8 1 = none ∧
      mustWait up (rdOf 0x400040000000 8) = none) ∧
    (rgnOf 0x10000000000 = .tr2 0 0 ∧ carveGib filling 0 ≠ 0 ∧ (pageAttr filling 0 0x10000000000).cache = true ∧
      filling.waiting.any (fun w => w.why == .fill 0 (rcLine 0)) = true) ∧
    ((tile0 up (fun x => { x with waking := [0, 24] })).tile 0 0).waking.contains 24 = true ∧
    (0 % 64 = 0 ∧ (List.replicate 64 (0 : Byte)).length = 64) ∧
    ((up.p (Reg.mapCtl 0) Reg.mapCtl_scrub_en 1).on (Reg.mapCtl 0) Reg.mapCtl_scrub_en = true ∧ up.dieOn 0 = true ∧
      (up.die 0).initDone = true) ∧
    (phase6 starting = true ∧ (starting.die 0).initDone = false ∧ (starting.die (1 - 0)).initDone = false) := by
  and_intros <;> decide +kernel

theorem witness_refused :
    (rgnOf 0x7FFFFFFFFFFF = .unmapped ∧ errDie w0 .unmapped = 0) ∧
    (rgnOf (Reg.seqCtl 0 0) ≠ .unmapped ∧ reaches up (.porter 0) (rgnOf (Reg.seqCtl 0 0)) = false) ∧
    (reaches State.reset w0 (rgnOf 0x400040000000) = true ∧ (rgnOf 0x400040000000).die = some 0 ∧
      State.reset.dieOn 0 = false) ∧
    (checkAccess up w0 false (Reg.seqCtl 0 0) = none ∧ Reg.seqCtl 0 0 % 8 = 0) := by
  and_intros <;> decide +kernel

/-- A line of the die pool of die A that warden 0 owns, its lines valid. -/
def owned : State :=
  { (up.p (Reg.memBankOwn 0 0 24) Reg.memBankOwn_kind 4) with valid := [(0x400040000000 / 64, true)] }

theorem witness_on_chip :
    (∀ n ∈ [1, 64], fullCheck owned w0 true 0x400040000000 n = none ∧ fullCheck owned w0 false 0x400040000000 n = none) ∧
    mustWait owned (rdOf 0x400040000000 64) = none ∧ mustWait owned (wrOf 0x400040000000 [1]) = none ∧
    rgnOf 0x400040000000 = .pool 0 0 ∧ (rgnOf 0x400040000000).tile = none ∧
    owned.lineValid (0x400040000000 / 64) = true := by
  and_intros <;> decide +kernel

/-! ### Sequencers and the tally file -/

/-- Tile 0 of die A runs, with `x` at its sequencer's head, at address 4096 of the die pool. -/
def head (x : Desc) : State :=
  (tile0 up (fun t => { t with run := .running, fetched := [⟨some x, true⟩] })).p (Reg.seqPc 0 0) Reg.seqPc_pc 0x400040001000

/-- Valid descriptors of every opcode of the table. -/
def dNop : Desc := desc []
def dFwd : Desc := desc [(0, 1, 1), (22, 2, 9), (24, 2, 1), (32, 1, 3), (34, 1, 1), (35, 1, 1)]
def dBwd : Desc := desc [(0, 1, 2), (38, 2, 1), (40, 2, 1), (42, 2, 1), (44, 2, 4), (46, 1, 0x27), (47, 1, 0x27), (48, 1, 7)]
def dCnv : Desc := desc [(0, 1, 3), (22, 2, 9), (24, 2, 1), (42, 2, 64), (46, 1, 3)]
def dCpy (op : Nat) : Desc := desc [(0, 1, op), (16, 6, 0x1000), (22, 6, 0x2000), (28, 4, 64), (32, 2, 1)]
def dTadd : Desc := desc [(0, 1, 0x10), (16, 4, 7), (20, 4, 1), (40, 1, 1)]
def dTarm : Desc := desc [(0, 1, 0x11), (16, 2, 7), (20, 4, 1)]
def dLoop : Desc := desc [(0, 1, 0x18), (16, 4, 2), (22, 2, 1)]
def dJump : Desc := desc [(0, 1, 0x19), (16, 6, 0x2000)]
def dPass : Desc := desc [(0, 1, 0x1A), (16, 6, 5)]
def dEnd : Desc := desc [(0, 1, 0x1F)]

/-- What HeadIssues asks, as a check. -/
def issuesB (s : State) (op : Nat) (x : Desc) : Bool :=
  (headDesc s 0 0 == some x) && seqActive s 0 0 && x.opcode == op && !anyBad (headChecks s 0 0 x) &&
    x.gen == s.g (Reg.seqGen 0 0) Reg.seqGen_gen && pastFence s 0 0 x && (!x.waitEn || (s.tile 0 0).waitMet) &&
    resourcesFree s 0 0 x

theorem issues {s : State} {op : Nat} {x : Desc} (h : issuesB s op x = true) : HeadIssues s 0 0 op x := by
  simp only [issuesB, Bool.and_eq_true, Bool.or_eq_true, beq_iff_eq, Bool.not_eq_true'] at h
  obtain ⟨⟨⟨⟨⟨⟨⟨a, b⟩, c⟩, e⟩, f⟩, g⟩, w⟩, r⟩ := h
  exact ⟨⟨a, b, c, e, f⟩, g, fun q => by simpa [q] using w, r⟩

/-- A descriptor of every opcode issues at the head of a running sequencer. -/
theorem witness_issues : ∀ x ∈ [(0, dNop), (1, dFwd), (2, dBwd), (3, dCnv), (4, dCpy 4), (5, dCpy 5), (6, desc [(0, 1, 6)]),
    (7, dCpy 7), (8, desc [(0, 1, 8)]), (9, desc [(0, 1, 9)]), (0x10, dTadd), (0x11, dTarm), (0x18, dLoop), (0x19, dJump),
    (0x1A, dPass), (0x1F, dEnd)], HeadIssues (head x.2) 0 0 x.1 x.2 :=
  fun x h => issues (by revert x h; decide +kernel)

theorem witness_loop_pass : (loopCtr (head dLoop) 0 0 (dLoop.b 20) + 1) % 2 ^ 32 < dLoop.le 16 4 ∧
    ((head dLoop).issueMark 0 0 dLoop).rd (Reg.seqLoop 0 0 (dLoop.b 20 / 2)) = (head dLoop).rd (Reg.seqLoop 0 0 (dLoop.b 20 / 2)) ∧
    nbit (dPass.b 22) 0 = false := by
  and_intros <;> decide +kernel

/-- A die-engine queue with room, and the full queue of the update unit. -/
theorem witness_queue_room : (∀ u ∈ [64, 65, 66, 67, 82], ((up.die 0).queue u).length < queueCap u) ∧
    queueCap 64 ≤ (((dieA up (fun x => { x with updQ := List.replicate 32 ⟨dNop, 0, 0, 0⟩ })).die 0).queue 64).length ∧
    HeadValid (head (desc [(0, 1, 6)])) 0 0 6 (desc [(0, 1, 6)]) :=
  ⟨by decide +kernel, by decide +kernel, (witness_issues (6, desc [(0, 1, 6)]) (by decide +kernel)).1⟩

/-- The head waits for tally 7: registered; judged met; gated meanwhile. -/
def waits (judged gated : Bool) : State :=
  tile0 (head dNop) (fun t => { t with waitReg := some 7, waitJudged := judged, gated := gated })

theorem witness_sequencer :
    (checkAccess up w0 true (Reg.seqCtl 0 0) = none ∧ notFurnished up (Reg.seqCtl 0 0) = false) ∧
    mayFetch (head dNop) 0 0 = true ∧
    (((waits true false).tile 0 0).waitJudged = true ∧ (waits true false).arrClk 0 = true ∧
      ((waits true false).die 0).arrRoot = true ∧ ((waits true false).tile 0 0).gated = false) ∧
    (seqActive (waits false false) 0 0 = true ∧ ((waits false false).tile 0 0).waitReg.isSome = true ∧
      ((waits false false).tile 0 0).ops = []) ∧
    (((waits true true).tile 0 0).gated = true ∧ ((waits true true).tile 0 0).waitJudged = true ∧
      ((waits true true).arrayWake 0).arrClk 0 = true) := by
  and_intros <;> decide +kernel

/-- Bank 7 of the tally file with an add queued. -/
theorem witness_tally : (((dieA up (fun x => { x with banks := x.banks.set 7 [.add 7 1] })).die 0).banks.getD 7 [] =
      .add 7 1 :: []) ∧
    ((tVal up 0 16383 : Int) + (-1) < 0 ∧ (0xFFFFFFFF : Int) < (tVal up 0 16383 : Int) + 2 ^ 32 ∧
      (0 : Int) ≤ (tVal up 0 16383 : Int) + 0xFFFFFFFF ∧ (tVal up 0 16383 : Int) + 0xFFFFFFFF ≤ 0xFFFFFFFF) := by
  and_intros <;> decide +kernel

/-! ### The tile's units -/

/-- Tile 0 of die A with an operation of a descriptor in flight. -/
def inFlight (op : Nat) (x : Desc) (f : TileS → TileS) : State :=
  tile0 up (fun t => f { t with run := .running, ops := [⟨op, 0, 0, x, false⟩] })

/-- A forward operation of one vector, past its first plane cycle. -/
def fwdS : FwdS :=
  { issue := 0, mode := 1, top := 0, bottom := 0, planes := 1, starts := List.replicate 8 0, oldest := 0, vecs := [],
    sideVec := 0, sideRound := 0, out := [], delivered := 0, drew := [] }

def fwdVec : FwdVec :=
  { v := 0, xs := List.replicate 512 0, kept := List.replicate 8 1, clips := List.replicate 8 0, lanes := List.range 8,
    bad := false, outl := false, live := false, top := 0, bottom := 0, sideBad := false, sideDone := true, side := [] }

def sums : ColSums := ⟨List.replicate 64 0, 0, 0, false⟩

/-- The forward array in the state `f`. -/
def fwdAt (x : Desc) (f : Option FwdS) (q : List ColSums) : State := inFlight 1 x (fun t => { t with fwd := f, cnvQ := q })

/-- A forward descriptor with a side list. -/
def dSide : Desc := desc [(0, 1, 1), (22, 2, 9), (24, 2, 1), (32, 1, 3), (34, 1, 9), (35, 1, 1)]
def dAdapt : Desc := desc [(0, 1, 1), (22, 2, 9), (24, 2, 1), (32, 1, 3), (34, 1, 2), (35, 1, 0x11)]

/-- Before the first plane cycle, at a lane's start, at a side-stall round, at a combine, a delivery and the end. -/
def fwd0 : State := fwdAt dFwd none []
def fwd1 : State := fwdAt dFwd (some fwdS) []
def fwd2 : State := fwdAt dSide (some fwdS) []
def fwd3 : State := fwdAt dFwd (some { fwdS with vecs := [fwdVec] }) []
def fwd4 : State := fwdAt dFwd (some { fwdS with out := [sums] }) [sums, sums, sums]
def fwd5 : State := fwdAt dFwd (some { fwdS with delivered := 1 }) []

theorem witness_forward :
    (∀ s ∈ [(fwd0, dFwd), (fwd1, dFwd), (fwd2, dSide), (fwd3, dFwd), (fwd4, dFwd), (fwd5, dFwd), (fwdAt dAdapt none [], dAdapt)],
      fwdOp s.1 0 0 = some ⟨1, 0, 0, s.2, false⟩ ∧ s.1.tileClk 0 0 = true) ∧
    ((fwd0.tile 0 0).fwd = none ∧ nfld (dFwd.b 34) 0 2 ≠ 2) ∧
    (((fwdAt dAdapt none []).tile 0 0).fwd = none ∧ nfld (dAdapt.b 34) 0 2 = 2 ∧
      (fwdAt dAdapt none []).on (Reg.wghSlot 0 0 (nfld (dAdapt.b 41) 0 6)) Reg.wghSlot_valid = false) ∧
    ((fwd1.tile 0 0).fwd = some fwdS ∧ fwdS.starts.getD 7 0 < dFwd.le 24 2 ∧ fwdS.starts.getD 7 0 ≤ fwdS.oldest + 3) ∧
    ((fwd2.tile 0 0).fwd = some fwdS ∧ nbit (dSide.b 34) 3 = true ∧ fwdS.sideVec < dSide.le 24 2 ∧
      fwdS.sideVec ≤ fwdS.oldest + 3) ∧
    ((fwd3.tile 0 0).fwd = some { fwdS with vecs := [fwdVec] } ∧ [fwdVec].find? (fun z => z.v == fwdS.oldest) = some fwdVec ∧
      8 ≤ fwdVec.lanes.length ∧ fwdVec.sideDone = true ∧ fwdS.out.length < 2) ∧
    ((fwd4.tile 0 0).fwd = some { fwdS with out := sums :: [] } ∧ (fwd4.tile 0 0).cnvQ.length < 4) ∧
    ((fwd5.tile 0 0).fwd = some { fwdS with delivered := 1 } ∧ 1 = dFwd.le 24 2) := by
  and_intros <;> decide +kernel

/-- A set of the backward array after `n` operand cycles. -/
def bwdSet (n : Nat) : BwdSet := { BwdSet.fresh 0 0 with cycles := n }
def bwdOp (n : Nat) : BwdOp := ⟨0, n, false, false, false, 0, [], []⟩
def drain (row : Nat) : BwdDrain := ⟨bwdSet 1, row, false, true, (bwdSet 1).acc, none⟩

/-- The backward array in the state `f`. -/
def bwdAt (f : BwdS → BwdS) : State := inFlight 2 dBwd (fun t => { t with bwd := f t.bwd })

/-- No operation begun; the set `c` computing; a set finished; a row draining; every block drained. -/
def bwd0 : State := bwdAt id
def bwd1 (n : Nat) : State := bwdAt (fun b => { b with ops := [bwdOp 0], cur := some (bwdSet n) })
def bwd2 : State := bwdAt (fun b => { b with ops := [bwdOp 0], full := [bwdSet 1] })
def bwd3 (row : Nat) : State := bwdAt (fun b => { b with ops := [bwdOp 0], drain := some (drain row) })
def bwd4 : State := bwdAt (fun b => { b with ops := [bwdOp 1] })

theorem witness_backward :
    (∀ s ∈ [bwd0, bwd1 0, bwd1 16, bwd2, bwd3 62, bwd3 63, bwd4], s.tileClk 0 0 = true ∧
      opRec s 0 0 0 = some ⟨2, 0, 0, dBwd, false⟩) ∧
    ((bwdOps bwd0 0 0).find? (fun o => !((bwd0.tile 0 0).bwd.ops.any (fun p => p.issue == o.issue))) =
      some ⟨2, 0, 0, dBwd, false⟩ ∧ (bwd0.tile 0 0).bwd.cur = none ∧ (bwd0.tile 0 0).bwd.full.length < 2) ∧
    (∀ n ∈ [0, 17], ((bwd1 n).tile 0 0).bwd.full.length < 2) ∧
    (4 * (bwdSet 17).cycles % 64 ≠ 0 ∧ ¬ (bwdSet 0).cycles + 1 < bwdCycles dBwd ∧ ¬ 0 + 1 < bwdM dBwd * bwdN dBwd) ∧
    ((bwd2.tile 0 0).bwd.ops.find? (fun q => q.issue == (bwdSet 1).issue) = some (bwdOp 0) ∧ bwdDest dBwd = false) ∧
    (∀ n ∈ [62, 63], (drain n).set.issue = 0 ∧
      ((bwd3 n).tile 0 0).bwd.ops.find? (fun q => q.issue == (drain n).set.issue) = some (bwdOp 0)) ∧
    ((bwd4.tile 0 0).bwd.ops = bwdOp 1 :: [] ∧ (bwdOp 1).issue = 0 ∧ bwdM dBwd * bwdN dBwd ≤ (bwdOp 1).drained) := by
  and_intros <;> decide +kernel

/-- The set that computes, the set that is finished and the row that drains, in the states above. -/
theorem witness_backward_sets : (∀ n, ((bwd1 n).tile 0 0).bwd.cur = some (bwdSet n)) ∧
    ((bwd2.tile 0 0).bwd.drain = none ∧ (bwd2.tile 0 0).bwd.full = bwdSet 1 :: []) ∧
    ∀ n, ((bwd3 n).tile 0 0).bwd.drain = some (drain n) := ⟨fun _ => rfl, ⟨rfl, rfl⟩, fun _ => rfl⟩

/-- A convert operation of a memory source, and one of the input queue. -/
def dCnvMem : Desc := desc [(0, 1, 3), (22, 2, 9), (24, 2, 1), (40, 2, 2), (42, 2, 64), (46, 1, 3), (47, 1, 0x20), (48, 1, 9)]

/-- A convert operation that reads memory; one that takes a waiting vector; one whose vectors are all converted. -/
def cnv0 : State := inFlight 3 dCnvMem id
def cnv1 : State := inFlight 3 dCnv (fun t => { t with cnvQ := [sums] })
def cnv2 : State := inFlight 3 dCnv (fun t => { t with cnv := some { CnvS.fresh 0 with next := 1 } })

theorem witness_converter :
    (∀ s ∈ [(cnv0, dCnvMem), (cnv1, dCnv), (cnv2, dCnv)], cnvOp s.1 0 0 = some ⟨3, 0, 0, s.2, false⟩ ∧
      s.1.tileClk 0 0 = true) ∧
    (((cnv0.tile 0 0).cnv.getD (CnvS.fresh 0)).next < dCnvMem.le 24 2 ∧ cnvSrc dCnvMem = true) ∧
    (((cnv1.tile 0 0).cnv.getD (CnvS.fresh 0)).next < dCnv.le 24 2 ∧ cnvSrc dCnv = false ∧
      (cnv1.tile 0 0).cnvQ = sums :: []) ∧
    ((cnv2.tile 0 0).cnv = some { CnvS.fresh 0 with next := 1 } ∧ dCnv.le 24 2 ≤ 1 ∧ nbit (dCnv.b 48) 4 = false ∧
      ownerBusy cnv2 0 (· == .cnv 0 0) = false) ∧
    shakerHeld (up.acked (Reg.genStateLo 0 0 3)) 0 0 3 = false ∧ updShakerHeld (up.acked (Reg.updGenStateHi 0 3)) 0 = false := by
  and_intros <;> decide +kernel

/-! ### The update unit -/

def qd (x : Desc) : QDesc := ⟨x, 0, 0x1000, 255⟩

/-- A narrow block descriptor of one unit with layer 1, its parameter block; a mirrored one. -/
def dUpd : Desc := desc [(0, 1, 6), (34, 2, 1), (48, 2, 1)]
def parm : List Byte := bytes 128 [(0x20, 6, 0x2000), (0x28, 6, 0x3000), (0x30, 6, 0x4000)]

def updOp : UpdS :=
  { q := qd dUpd, num := 0, parm := parm, hdr := List.replicate 64 0, kappa := 0, lrExp := some 0, lanes := true, next := 0,
    gmax := 0, counted := false, nonf := false, scaleBad := false, refused := false, logged := false, left := [] }

def mirror (ended : Bool) : MirrorS :=
  { num := 0, q := qd dUpd, parm := parm, written := 1, sent := 0, started := false, hdrDone := false, last := ended,
    bad := false, logged := false, ended := ended }

/-- Die A with its update unit changed, and one descriptor queued there. -/
def updAt (f : UpdUnitS → UpdUnitS) : State := dieA up (fun x => { x with updQ := [qd dUpd], u := f x.u })

/-- The parameter block read; not read yet; a descriptor begun; one that waits for its end; mirrors. -/
def upd0 : State := updAt (fun u => { u with parm := some (some parm) })
def upd1 : State := updAt id
def upd2 (c : UpdS) : State := updAt (fun u => { u with cur := some c })
def upd3 (m : MirrorS) : State := updAt (fun u => { u with fin := [(qd dUpd, true)], mirrors := [m] })

theorem witness_update :
    (∀ s ∈ [upd0, upd1], (s.die 0).updQ = qd dUpd :: [] ∧ engReady s 0 64 (qd dUpd) = true ∧ s.arrClk 0 = true ∧
      s.on (Reg.updCtl 0) Reg.updCtl_hold = false ∧ (s.die 0).u.cur = none ∧ updDescBad dUpd = false ∧
      updMirror dUpd = false) ∧
    ((upd0.die 0).u.parm = some (some parm) ∧ updParmBad dUpd parm = false ∧
      (((upd0.die 0).u.mirrors.filter (mirrorLive upd0 0)).any (fun m => parmA m.parm 0x20 == parmA parm 0x20)) = false) ∧
    ((upd1.die 0).u.parm = none ∧ whole (upd1.readSpan (updReq 0) (dUpd.le 16 6) 128).1 = some (List.replicate 128 0) ∧
      updParmBad dUpd (List.replicate 128 0) = false ∧
      ((upd1.readSpan (updReq 0) (dUpd.le 16 6) 128).2.die 0).u.mirrors = []) ∧
    (∀ c ∈ [{ updOp with lrExp := none }, updOp, { updOp with next := 1 }], ((upd2 c).die 0).u.cur = some c ∧
      (upd2 c).arrClk 0 = true ∧ c.lanes = true) ∧
    (updOp.lrExp = some 0 ∧ updOp.next < updN updOp.q.desc ∧ updN updOp.q.desc ≤ 1) ∧
    ((upd3 (mirror false)).die 0).u.fin = (qd dUpd, true) :: [] ∧
    (((upd3 (mirror false)).die 0).u.mirrors.find? (fun m => !m.started) = some (mirror false) ∧ (mirror false).written ≠ 0) ∧
    ((upd3 (mirror true)).die 0).u.mirrors.find? (fun m => m.ended && !m.bad) = some (mirror true) := by
  and_intros <;> decide +kernel

theorem witness_submit :
    (0 : Word).toNat % 2 ^ 48 % 64 = 0 ∧
    (∀ x ∈ [(64, Reg.updSubmit 0), (65, Reg.prtSubmit 0), (66, Reg.clrSubmit 0), (67, Reg.dcpSubmit 0)],
      ((up.acked x.2).readLine (engReq 0 x.1) 0).1 = some (List.replicate 64 0) ∧
      ((((up.acked x.2).readLine (engReq 0 x.1) 0).2.die 0).queue x.1).length < queueCap x.1) := by
  and_intros <;> decide +kernel

/-! ### Copy channels and the porter -/

/-- Copy descriptors of the three kinds and the three pacings. -/
def dKind (kind pace : Nat) : Desc :=
  desc [(0, 1, 7), (16, 6, if kind = 1 then 0 else 0x1000), (22, 6, 0x2000), (28, 4, 64), (32, 2, 2), (34, 4, 64), (38, 4, 64),
    (42, 1, kind + 4 * pace), (43, 1, if pace = 1 then 9 else 0), (48, 2, 7), (50, 1, 2), (51, 1, 1)]

def chFail : ChFail := ⟨.read, 0x1000, 2, [], 1⟩

def chS (x : Desc) : ChS :=
  { q := qd x, begun := 0, pos := 0, buf := [], paused := false, fails := [], halted := false, stop := false, diff := false,
    abort := false }

/-- Die copy channel 3 of die A in the state `x`, with request line 9 pending and tally 7 at `level`. -/
def chAt (x : Option ChS) (level : Nat) : State :=
  ((dieA up (fun y => { y with cp := { y.cp with chs := y.cp.chs.set 3 x }, chQ := y.chQ.set 3 [qd (dKind 0 0)] })).p
    (Reg.dcpReq 0 1) ⟨8, 8⟩ 1).p (Reg.tlyState 0 7) Reg.tlyState_value level

/-- A channel free for the queue's head; one that begins a burst in each pacing; one paused; one whose access fails; one
that is done. -/
def ch0 : State := chAt none 0
def ch1 (pace level : Nat) : State := chAt (some (chS (dKind 0 pace))) level
def chPaused : ChS := { chS (dKind 0 2) with paused := true }
def chFails : ChS := { chS (dKind 0 0) with fails := [chFail] }
def chOver : ChS := { chS (dKind 0 0) with begun := 2, pos := 64 }

theorem witness_copy :
    (∀ n ∈ [0, 1, 2], cpKind (dKind n 0) = n ∧ anyBad (cpyChecks (dKind n 0) 7) = false) ∧
    (chan ch0 (.die 0 3) = none ∧ chanClk ch0 (.die 0 3) = true ∧ (ch0.die 0).queue (67 + 3) = qd (dKind 0 0) :: [] ∧
      engReady ch0 0 (67 + 3) (qd (dKind 0 0)) = true) ∧
    (chan (inFlight 4 (dCpy 4) id) (.tile 0 0 0) = none ∧ chanClk (inFlight 4 (dCpy 4) id) (.tile 0 0 0) = true ∧
      ((inFlight 4 (dCpy 4) id).tile 0 0).ops.find? (fun o => o.opcode == 4 + 0) = some ⟨4, 0, 0, dCpy 4, false⟩ ∧
      cpKind (dCpy 4) = 0) ∧
    (∀ p ∈ [0, 1, 2], chan (ch1 p 1) (.die 0 3) = some (chS (dKind 0 p)) ∧ chanClk (ch1 p 1) (.die 0 3) = true ∧
      (chS (dKind 0 p)).ready = true ∧ cpPace (dKind 0 p) = p) ∧
    (linePending (ch1 1 0) (.die 0 3) (cpLine (dKind 0 1)) ≠ 0 ∧ lineTurn (ch1 1 0) (.die 0 3) (cpLine (dKind 0 1)) = true) ∧
    ((dKind 0 2).b 51 < chLevel (ch1 2 2) (.die 0 3) (cpTally (dKind 0 2)) ∧
      chLevel (ch1 2 1) (.die 0 3) (cpTally (dKind 0 2)) ≤ (dKind 0 2).b 51 ∧
      chLevel (ch1 2 1) (.die 0 3) (cpTally (dKind 0 2)) < (chS (dKind 0 2)).rest) ∧
    (chan (chAt (some chPaused) 2) (.die 0 3) = some chPaused ∧
      min ((dKind 0 2).b 50) chPaused.rest ≤ chLevel (chAt (some chPaused) 2) (.die 0 3) (cpTally (dKind 0 2))) ∧
    (chan (chAt (some chFails) 0) (.die 0 3) = some chFails ∧ chFails.fails = chFail :: []) ∧
    (chDone (chAt (some chOver) 0) (.die 0 3) chOver = true ∧ chBusy (chAt (some { chOver with abort := true }) 0) (.die 0 3) = false) ∧
    (up.g (Reg.cpyReq 0 0 ((1 : Nat) / 8)) ⟨8 * (1 % 8), 8⟩ ≠ 255 ∧ up.g (Reg.dcpReq 0 (9 / 8)) ⟨8 * (9 % 8), 8⟩ ≠ 255) := by
  and_intros <;> decide +kernel

/-- A halted channel with a failing access, and the acceptance of a resume and an abort there. -/
theorem witness_copy_halted : ∀ x : ChS, x = { chS (dKind 0 0) with fails := [chFail], halted := true } →
    Accepted (chAt (some x) 0) w0 (ChanId.die 0 3).ctl ((chAt (some x) 0).acked (ChanId.die 0 3).ctl) ∧
    chan ((chAt (some x) 0).acked (ChanId.die 0 3).ctl) (.die 0 3) = some x ∧
    chDone ((chAt (some x) 0).acked (ChanId.die 0 3).ctl) (.die 0 3) x = false := by
  intro x h; subst h
  exact ⟨accepted (by decide +kernel), by decide +kernel, by decide +kernel⟩

/-- Porter descriptors of the four kinds on table 0. -/
def dPrt (kind : Nat) : Desc :=
  desc [(0, 1, 8), (34, 4, 1), (38, 2, 1), (44, 1, 64 * kind), (45, 1, 9), (48, 1, 1), (49, 1, 9)]

def prtS (kind : Nat) : PrtS :=
  { q := qd (dPrt kind), next := 0, bag := 0, opened := false, acc := [], n := 0, g := [], outs := [], fails := [],
    halted := false, abort := false, accNoted := false, invNoted := false, fullNoted := false }

def engFail : EngFail := ⟨true, 0x1000, 2, 1, none⟩

/-- Die A with table 0 valid, one row of 16 values, and the porter's queue and descriptor. -/
def prtAt (q : List QDesc) (p : Option PrtS) : State :=
  ((dieA up (fun x => { x with prtQ := q, prt := p })).wr (Reg.prtTable0 0 0) (setFld (setFld 0 Reg.prtTable0_valid.lo 1 1)
    Reg.prtTable0_par_en.lo 1 1)).p (Reg.prtTable2 0 0) Reg.prtTable2_nrows 1

theorem witness_porter :
    (∀ n ∈ [0, 1, 2, 3], ((prtAt [qd (dPrt n)] none).die 0).prtQ = qd (dPrt n) :: [] ∧
      ((prtAt [qd (dPrt n)] none).die 0).prt = none ∧ (prtAt [qd (dPrt n)] none).fabClk 0 = true ∧
      engReady (prtAt [qd (dPrt n)] none) 0 65 (qd (dPrt n)) = true ∧ prtKind (dPrt n) = n ∧
      prtBad (dPrt n) (tableE (prtAt [] none) 0 (prtTable (dPrt n))) = false ∧ ledgerHeld (prtAt [] none) 0 (dPrt n) = false) ∧
    (∀ n ∈ [0, 1], ((prtAt [] (some (prtS n))).die 0).prt = some (prtS n) ∧ (prtAt [] (some (prtS n))).fabClk 0 = true ∧
      (prtS n).next < prtN (dPrt n) ∧ prtKind (dPrt n) = n) ∧
    (∀ p ∈ [{ prtS 0 with abort := true }, { prtS 0 with next := 1 }], ((prtAt [] (some p)).die 0).prt = some p ∧
      prtBusy (prtAt [] (some p)) 0 = false) ∧
    (prtOver { prtS 0 with next := 1 } = true ∧ prtOver (prtS 0) = false) := by
  and_intros <;> decide +kernel

theorem witness_porter_halted : ∀ p : PrtS, p = { prtS 0 with fails := [engFail], halted := true } →
    Accepted (prtAt [] (some p)) w0 (Reg.prtCtl 0) ((prtAt [] (some p)).acked (Reg.prtCtl 0)) ∧
    (((prtAt [] (some p)).acked (Reg.prtCtl 0)).die 0).prt = some p ∧ p.halted = true ∧ prtOver p = false := by
  intro p h; subst h
  exact ⟨accepted (by decide +kernel), by decide +kernel, by decide +kernel, by decide +kernel⟩

/-! ### Banks, the address map, ports, packets -/

/-- A handover of bank 24 of MEM block 0 of die A pending; triggered. -/
def handing : State := (dieA up (fun x => { x with trig := [(0, 24)] })).p (Reg.memBankHand 0 0 24) Reg.memBankHand_pending 1

theorem witness_banks :
    (up.acked (Reg.memBankHand 0 0 24)).on (Reg.memBankHand 0 0 24) Reg.memBankHand_pending = false ∧
    (handing.acked (Reg.memBankHand 0 0 24)).on (Reg.memBankHand 0 0 24) Reg.memBankHand_pending = true ∧
    (handing.die 0).trig.contains (0, 24) = true ∧
    ((tile0 up (fun t => { t with inval := 1 })).tile 0 0).inval &&& (1 : Word).toNat ≠ 0 ∧
    (∀ n ∈ [0, 255], regionBad 0 (((up.wr (Reg.mapRegionRange 0 n) (setFld 0 32 20 1)).acked (Reg.mapRegionAttr 0 n)).g
        (Reg.mapRegionRange 0 n) Reg.mapRegionRange_base_page)
      (((up.wr (Reg.mapRegionRange 0 n) (setFld 0 32 20 1)).acked (Reg.mapRegionAttr 0 n)).g (Reg.mapRegionRange 0 n)
        Reg.mapRegionRange_npages) (fld 1 6 1 == 1) = false) ∧
    ((dieA up (fun x => { x with rcInvalid := true })).die 0).rcInvalid = true := by
  and_intros <;> decide +kernel

/-- Port 7 of die A in a training state, enabled, expecting port 3 of station 5. -/
def portAt (v : Nat) : State :=
  (((up.p (Reg.lnkPortStatus 0 7) Reg.lnkPortStatus_state v).p (Reg.lnkPortCtl 0 7) Reg.lnkPortCtl_enable 1).p
    (Reg.lnkPortExpect 0 7) Reg.lnkPortExpect_valid 1).wr (Reg.lnkPortExpect 0 7) (setFld (setFld (setFld 0
      Reg.lnkPortExpect_valid.lo 1 1) Reg.lnkPortExpect_expect_station.lo 16 5) Reg.lnkPortExpect_expect_port.lo
        Reg.lnkPortExpect_expect_port.w 3)

/-- A later time. -/
def late (s : State) : State := s.wr Reg.timeNow 0x1000000000000

theorem witness_training :
    ((portAt 5).acked (Reg.lnkPortCtl 0 7)).on (Reg.lnkPortCtl 0 7) Reg.lnkPortCtl_enable = true ∧
    (∀ v ∈ [0, 1, 2, 3, 4, 5], (portAt v).portState 7 = v) ∧ lnkClk (portAt 1) 0 = true ∧
    ((late (portAt 0)).port 7).link.downAt + 1000000000 ≤ (late (portAt 0)).now ∧
    ((portAt 4).on (Reg.lnkPortExpect 0 7) Reg.lnkPortExpect_valid = true ∧
      (portAt 4).g (Reg.lnkPortExpect 0 7) Reg.lnkPortExpect_expect_station = leAt (bytes 32 [(0, 2, 5), (2, 1, 3)]) 0 2 ∧
      (portAt 4).g (Reg.lnkPortExpect 0 7) Reg.lnkPortExpect_expect_port = byteAt (bytes 32 [(0, 2, 5), (2, 1, 3)]) 2 ∧
      (portAt 4).g (Reg.lnkPortExpect 0 7) Reg.lnkPortExpect_expect_station ≠ leAt (bytes 32 [(0, 2, 6)]) 0 2) ∧
    (portAt 5).g (Reg.lnkPortErrCfg 0 7) Reg.lnkPortErrCfg_lane_err_max < 0xFFFFFFFF ∧
    ((late (portAt 5)).port 7).link.lastRx + 20000 ≤ (late (portAt 5)).now ∧
    (portAt 5).g (Reg.lnkPortErrCfg 0 7) Reg.lnkPortErrCfg_replay_max ≤
      ((portP (portAt 5) 7 (fun x => { x with replays := 255 })).port 7).replays := by
  and_intros <;> decide +kernel

/-! ### The link -/

/-- An ACK and packets for station 0, the station of a module without identity. -/
def ack (tag : Nat) : Packet := { pkt 2 0 1 0 tag [] with vc := 2 }
def track (t : Nat) : Track := ⟨t, .warden, 0, pkt 1 1 0 0 t [0]⟩

theorem witness_packets :
    ((portAt 5).portState 7 = 5 ∧ (portAt 6).portState 7 = 6) ∧
    (∀ x ∈ [(1, pkt 1 0 1 0x1000 0 [7]), (3, pkt 3 0 1 0x1000 0 (List.replicate 64 7)), (4, pkt 4 0 1 7 0 []),
      (5, pkt 5 0 1 63 0 (List.replicate 8 0)), (0x12, pkt 0x12 0 1 0 0 [])], Reaches up x.2 x.1 0) ∧
    (up.writeSpan (.link 0) 0x1000 [7]).1 = none ∧ (up.xorLines 0 0x1000 1 [List.replicate 64 7]).1 = none ∧
    ((pkt 1 9 0 0 0 [0]).bad = false ∧ isOwn up 0 (pkt 1 9 0 0 0 [0]).dst.toNat = false ∧
      (up.forward 0 (pkt 1 9 0 0 0 [0])).1.isSome = true ∧
      ((up.wr (Reg.lnkRoute 0 2) (setFld 0 16 16 0x001)).forward 0 { pkt 4 9 0 0 0 [] with vc := 0 }).1.isSome = true) ∧
    (addrDie 0x1000 = 0 ∧ up.tileOn 0 63 = true) ∧
    ((ack 3).typ = 2 ∧ isOwn up 0 (ack 3).dst.toNat = true ∧ (ack 3).bad = false ∧
      tracked (dieA up (fun x => { x with track := [track 3] })) 0 3 = some (track 3)) ∧
    ((track 3).sent + 1000 * (late up).g (Reg.lnkCfg 0) Reg.lnkCfg_ack_timeout_us ≤ (late up).now) := by
  unfold Reaches
  and_intros <;> decide +kernel

theorem crc32With_lt {p : Nat} (hp : p < 2 ^ 32) (bs : List Byte) : crc32With p bs < 2 ^ 32 := by
  have bit : ∀ c, c < 2 ^ 32 → crcBit p c < 2 ^ 32 := by
    intro c hc; unfold crcBit; split
    · exact Nat.xor_lt_two_pow (by omega) hp
    · omega
  have bits : ∀ (l : List Nat) c, c < 2 ^ 32 → l.foldl (fun c _ => crcBit p c) c < 2 ^ 32 := by
    intro l; induction l with
    | nil => exact fun c hc => hc
    | cons _ l ih => exact fun c hc => ih _ (bit c hc)
  have all : ∀ (l : List Byte) c, c < 2 ^ 32 → l.foldl (fun c b => crcByte p c b.toNat) c < 2 ^ 32 := by
    intro l; induction l with
    | nil => exact fun c hc => hc
    | cons b l ih => exact fun c hc => ih _ (bits _ _ (Nat.xor_lt_two_pow hc (by have := b.isLt; omega)))
  exact Nat.xor_lt_two_pow (all bs _ (by decide)) (by decide)

/-- Every 638 bytes, with their CRC behind them, are a whole frame whose CRC is good. -/
theorem witness_frame (b : List Byte) (h : b.length = 638) : (b ++ leBytes 4 (crc32c b)).length = 642 ∧
    crc32c ((b ++ leBytes 4 (crc32c b)).take 638) = leAt (b ++ leBytes 4 (crc32c b)) 638 4 := by
  have lt : crc32c b < 2 ^ 32 := crc32With_lt (by decide) b
  have le : ∀ n, n < 2 ^ 32 → leNat ((leBytes 4 n).take 4) = n := by
    intro n hn; simp [leBytes, leNat]; omega
  refine ⟨by simp [leBytes, h], ?_⟩
  rw [List.take_append_of_le_length (by omega), List.take_of_length_le (by omega), leAt, List.drop_append_of_le_length (by omega),
    List.drop_of_length_le (by omega), List.nil_append, le _ lt]

/-- Entry 1023 of die A combines two inputs for tag 1023. -/
def comb (held : List (Nat × Packet)) (ks : List Packet) : State :=
  (dieA up (fun x => { x with comb := ⟨held, ks⟩ })).wr (Reg.lnkComb 0 1023) (setFld (setFld 0 22 1 1) 23 3 1)

def combPkt0 (typ : Nat) : Packet := pkt typ 0 1 0 1023 (List.replicate 64 0)

theorem witness_combine :
    (∀ t ∈ [0x10, 0x11], Reaches (comb [] []) (combPkt0 t) t 0) ∧ Reaches (comb [(1023, combPkt0 0x10)] []) (pkt 0x12 0 1 0 1023 []) 0x12 0 ∧
    (combE (comb [] []) 0 1023).valid = true ∧ (combE (comb [] []) 0 1023).tag = 1023 / 1024 ∧
    (combRound (comb [] []) 0 1023).any (fun m => m.index == (combPkt0 0x10).index) = false ∧ combPieces (comb [] []) 0 < 2048 ∧
    combRound (comb [(1023, combPkt0 0x10)] []) 0 1023 ≠ [] ∧
    ((comb [] [combPkt0 0x10]).die 0).comb.waits = combPkt0 0x10 :: [] ∧
    combRound (up.acked (Reg.lnkComb 0 1023)) 0 1023 = [] := by
  unfold Reaches
  and_intros <;> decide +kernel

/-- A heartbeat message of an alive peer; a message of type 3. -/
def hb : List Byte := bytes 64 [(0, 1, 0x10), (7, 1, 1)]

/-- Alive, with no silent port, long after the last heartbeat and the last kick. -/
def heardLong : State := late ((up.wr (Reg.lnkFltStatus 0) 0).p (Reg.lnkFltStatus 0) Reg.lnkFltStatus_alive 1)

theorem witness_side_channel :
    (up.acked (Reg.lnkScCtl 0 7)).on (Reg.lnkScCtl 0 7) Reg.lnkScCtl_tx_busy = false ∧
    (∀ v ∈ [5, 6], scUp (portAt v) 7 = true ∧ ((portAt v).port 7).scRx.length < 16) ∧
    (byteAt (bytes 64 [(0, 1, 3)]) 0 ∉ [1, 2, 0x10] ∧ ¬ (0x11 ≤ byteAt (bytes 64 [(0, 1, 3)]) 0 ∧ byteAt (bytes 64 [(0, 1, 3)]) 0 ≤ 0x1A)) ∧
    ((late (portAt 5)).port 7).link.hbSent + 1000 * (late (portAt 5)).g (Reg.lnkHbCfg (portDie 7)) Reg.lnkHbCfg_hb_us ≤
      (late (portAt 5)).now ∧
    (byteAt hb 0 = 0x10 ∧ nfld (byteAt hb 7) 0 1 = 1 ∧ leAt hb 8 4 = up.g (Reg.lnkStateGen 0) Reg.lnkStateGen_gen) ∧
    (heardLong.dieOn (portDie 7) = true ∧ (heardLong.port 7).link.hbAt + 1000 * (heardLong.g (Reg.lnkHbCfg (portDie 7))
      Reg.lnkHbCfg_miss * heardLong.g (Reg.lnkHbCfg (portDie 7)) Reg.lnkHbCfg_hb_us) ≤ heardLong.now ∧
      (heardLong.rd (Reg.lnkFltStatus (portDie 7))).getLsbD (portLoc 7) = false) ∧
    (heardLong.on (Reg.lnkFltStatus 0) Reg.lnkFltStatus_alive = true ∧
      (heardLong.die 0).kickAt + 1000000 * heardLong.g (Reg.lnkHbCfg 0) Reg.lnkHbCfg_wd_ms ≤ heardLong.now) ∧
    ((up.port 7).scq = []) := by
  and_intros <;> decide +kernel

/-! ### The clearing engine -/

/-- Clearing descriptors of the four kinds. -/
def dClr (kind : Nat) : Desc :=
  desc ([(0, 1, 9), (34, 4, 1), (48, 1, kind)] ++
    (if kind = 0 then [(40, 2, 1), (42, 2, 1)] else if kind = 1 then [(38, 2, 1), (40, 2, 1)]
     else if kind = 3 then [(40, 2, 1), (54, 2, 1)] else []))

/-- A route record of one block. -/
def routeRec : List Byte := bytes 128 [(12, 4, 1)]

def node : ClrNode :=
  { r := 0, rec' := routeRec, laps := [0], own := 0, up := 0, waits := [], owed := 0, elig := 0, late := [], judged := false,
    oldestAt := 0, waitAt := none, ended := false, stale := [], got := [], written := 0 }

def slot (n : Nat) : ClrSlot := ⟨0, routeRec, false, n, 0⟩

def clrOp0 (kind phase : Nat) : ClrOp :=
  { num := 0, q := qd (dClr kind), began := 0, nodes := [node], slots := [slot 0], targets := [slot 0], next := 1,
    phase := phase, since := 0, marks := [], forced := false, noted := [], added := false, abort := false, gmax := 0 }

def clrAt' (q : List QDesc) (ops : List ClrOp) : State :=
  late (dieA up (fun x => { x with clrQ := q, clr := { x.clr with ops := ops } }))

theorem witness_clearing :
    (∀ n ∈ [0, 1, 2, 3], ((clrAt' [qd (dClr n)] []).die 0).clrQ = qd (dClr n) :: [] ∧ clrFree (clrAt' [] []) 0 = true ∧
      (clrAt' [] []).on (Reg.clrCtl 0) Reg.clrCtl_hold = false ∧ ((clrAt' [] []).die 0).clr.ops.length < 4 ∧
      engReady (clrAt' [qd (dClr n)] []) 0 66 (qd (dClr n)) = true ∧ clrKind (dClr n) = n ∧
      clrBad (clrAt' [] []) 0 (dClr n) = false ∧ epochLag (clrAt' [] []) 0 (clrEp (dClr n)) = 0 ∧ clrThinned (dClr n) = false) ∧
    (∀ i ∈ [0, 3], Machine.clrAt (clrAt' [] (List.replicate 4 (clrOp0 0 0))) 0 i = some (clrOp0 0 0)) ∧
    ((clrOp0 0 0).node 0 = some node ∧ node.ended = false) ∧
    (mayUp (clrAt' [] []) (dClr 0) node 1 = false ∧
      0 + 1000 * (clrAt' [] []).g (Reg.clrCfg 0) Reg.clrCfg_stall_us ≤ (clrAt' [] []).now) ∧
    ((clrOp0 0 0).slots.find? (fun z => z.r == 0) = some (slot 0) ∧ (slot 0).phase = 0 ∧ (slot 0).next < Route.len routeRec ∧
      Route.len routeRec ≤ (slot 1).next ∧ clrBusyTo (clrAt' [] [clrOp0 0 0]) 0 0 0 = false) ∧
    ((clrOp0 0 0).targets.find? (fun z => z.r == 0) = some (slot 0) ∧ (slot 0).phase ≠ 2) ∧
    (clrKind (clrOp0 1 0).q.desc = 1 ∧ clrN (clrOp0 1 0).q.desc ≤ (clrOp0 1 0).next ∧ 0 < clrRankA (clrOp0 1 0).q.desc ∧
      (clrOp0 1 0).marks.contains 0 = false ∧
      (match ((clrAt' [] [clrOp0 1 0]).clrRead 0 (clrB (clrOp0 1 0).q.desc + 16 * 0) 16).1 with
        | .ok e => e == List.replicate 16 0 | .error _ => false) = true) ∧
    (clrKind (clrOp0 3 0).q.desc = 3 ∧ clrMin (clrOp0 3 0).q.desc ≤ tVal (clrAt' [] []) 0 0 ∧ (clrOp0 3 2).phase = 2 ∧
      clrRankA (clrOp0 3 2).q.desc ≤ tVal (clrAt' [] []) 0 0) ∧
    (clrNodeAt (clrAt' [] [clrOp0 0 0]) 0 0 0 = some (clrOp0 0 0, node) ∧ node.judged = false ∧
      clrDue (clrAt' [] []) 0 (clrOp0 0 0) node.rec' = true ∧
      node.oldestAt + 1000 * (clrAt' [] []).g (Reg.clrCfg 0) Reg.clrCfg_stall_us ≤ (clrAt' [] []).now) := by
  and_intros <;> decide +kernel

theorem witness_clearing_halted : ∀ s : State,
    s = dieA up (fun x => { x with clr := { x.clr with fails := [⟨0, .run, engFail⟩], halted := true } }) →
    Accepted s w0 (Reg.clrCtl 0) (s.acked (Reg.clrCtl 0)) ∧ ((s.acked (Reg.clrCtl 0)).die 0).clr.halted = true ∧
    ((s.acked (Reg.clrCtl 0)).die 0).clr.fails = ⟨0, .run, engFail⟩ :: [] ∧ s.fabClk 0 = true := by
  intro s h; subst h
  exact ⟨accepted (by decide +kernel), by decide +kernel, by decide +kernel, by decide +kernel⟩

/-! ### Failure and recovery -/

/-- A module in a state, served station and home `st`. -/
def station (s : State) (st : Nat) : State :=
  (s.wr (Reg.lnkStation 0) (BitVec.ofNat 64 (st + 65536 * st))).wr (Reg.lnkStation 1) (BitVec.ofNat 64 (st + 65536 * st))

/-- A fault message of a type to station `dst` from station `src`, with 16 bytes of body. -/
def flt (typ dst src : Nat) (body : List (Nat × Nat × Nat)) : List Byte :=
  bytes 64 ([(0, 1, typ), (1, 1, 30), (2, 2, dst), (4, 2, src)] ++ body)

def decl : Decl := ⟨5, 0, 0x8000, 0, false⟩

/-- Station 2 in a module state, with port 7 up, and the fault state `f`. -/
def member (st : ModState) (f : FaultS → FaultS) : State :=
  late (modM (station (portAt 5) 2) (fun m => { m with st := st, fault := f m.fault }))

/-- The reserve of stations 0 to 7, which has declared station 5. -/
def reserve (f : FaultS → FaultS) : State :=
  late (modM (station (portAt 5) 0x8000) (fun m => { m with st := .recovery, fault := f m.fault }))

/-- Port 7, the one port of a module with a neighbour, is silent. -/
def lonely (s : State) : State := s.wr (Reg.lnkFltStatus 0) 0xFF

theorem witness_failure :
    ((member .running id).m.st = .running ∧
      failHolds ((member .running id).p (Reg.lnkFltEvents 0) Reg.lnkFltEvents_watchdog 1) (.watchdog 0) = true) ∧
    (wardensRun (lonely (member .running id)) = true ∧ nbit 5 15 = false ∧ portsTo (lonely (member .running id)) 5 = [7] ∧
      [7].all (portLost (lonely (member .running id))) = true ∧ declared (lonely (member .running id)) 5 = false ∧
      (lonely (member .running id)).m.fault.sent.filter (·.1 == 5) = []) ∧
    ((member .recovery (fun f => { f with decls := [decl] })).m.fault.decls.find? (fun z => !z.settled) = some decl ∧
      (member .recovery (fun f => { f with decls := [decl] })).m.st = .recovery ∧
      decl.since + 1000 * (member .recovery id).g (Reg.lnkCfg 0) Reg.lnkCfg_ack_timeout_us ≤ (member .recovery id).now) ∧
    ((reserve (fun f => { f with rebuild := some (0, 0), serving := some 5 })).m.fault.rebuild = some (0, 0) ∧
      rebuildOver (reserve (fun f => { f with rebuild := some (0, 0), serving := some 5 })) = true ∧
      (((reserve (fun f => { f with serving := some 5 })).p (Reg.clrXor 0) Reg.clrXor_xor 0).p (Reg.clrXor 1)
        Reg.clrXor_xor 0).parityOff.m.fault.serving.isSome = true) ∧
    ((reserve (fun f => { f with declaredAt := some 0 })).m.fault.declaredAt = some 0 ∧
      0 + 1000000 * setting (reserve id) 22 ≤ (reserve id).now) ∧
    ((member .recovery (fun f => { f with decls := [decl] })).m.fault.declaredAt = none ∧
      (member .recovery (fun f => { f with decls := [decl] })).m.fault.decls.getLast? = some decl ∧
      (member .recovery (fun f => { f with decls := [decl] })).m.fault.step = none ∧
      (member .recovery (fun f => { f with decls := [decl] })).m.fault.resumes = [] ∧
      decl.since + 1000000 * setting (member .recovery (fun f => { f with decls := [decl] })) 22 ≤
        (member .recovery (fun f => { f with decls := [decl] })).now) ∧
    (isMember (lonely (member .running id)) = true ∧
      silentLong (lonely (member .running id)) (expectPorts (lonely (member .running id))) = true ∧
      expectPorts (lonely (member .running id)) = [7]) := by
  and_intros <;> decide +kernel

/-- Station 2, whose port 7 leads to its group's reserve and is silent. -/
def noReserve : State :=
  lonely ((member .running id).p (Reg.lnkPortExpect 0 7) Reg.lnkPortExpect_expect_station 0x8000)

theorem witness_reserve_lost : wardensRun noReserve = true ∧ nbit (ownHome noReserve) 15 = false ∧
    noReserve.m.fault.reserveLost = false ∧ portsTo noReserve (reserveOf (ownHome noReserve)) ≠ [] ∧
    silentLong noReserve (portsTo noReserve (reserveOf (ownHome noReserve))) = true ∧
    (portsTo noReserve (reserveOf (ownHome noReserve))).all (portSilent noReserve) = true := by
  and_intros <;> decide +kernel

/-- A message for the own station is heard. -/
theorem heard {s : State} {p : Nat} {m : List Byte} {typ : Nat} (h : byteAt m 0 = typ ∧ wardensRun s = true ∧
    scUp s p = true ∧ fltDst m ≠ 0xFFFF ∧ fltDst m = servedStation s) : Heard s p m typ s :=
  ⟨h.1, h.2.1, h.2.2.1, .inl ⟨h.2.2.2.1, .inl h.2.2.2.2, rfl⟩⟩

/-- Every fault message for the own station is heard by the reserve and by a member; so is a flood not seen before. -/
theorem witness_heard : (∀ t ∈ [0x11, 0x12, 0x14, 0x16], Heard (reserve id) 7 (flt t 0x8000 5 []) t (reserve id)) ∧
    (∀ t ∈ [0x13, 0x15, 0x17, 0x18, 0x19, 0x1A], Heard (member .recovery id) 7 (flt t 2 0x8000 []) t (member .recovery id)) ∧
    (fltDst (flt 0x13 0xFFFF 0x8000 []) = 0xFFFF ∧
      (member .running id).m.fault.seen.contains (0x13, 0x8000, 0) = false ∧
      fltPitch (flt 0x13 0xFFFF 0x8000 []) = pitchId (member .running id)) :=
  ⟨fun t h => heard (by revert t h; decide +kernel), fun t h => heard (by revert t h; decide +kernel), by decide +kernel⟩

/-- The fault states the recovery messages act on. -/
def coordF (f : FaultS) : FaultS := { f with decls := [decl], declaredAt := some 0, serving := some 5 }
def memberF (f : FaultS) : FaultS := { f with decls := [decl] }

theorem witness_recovery :
    (Heard (reserve id) 7 (flt 0x12 0x8000 5 []) 0x12 (reserve id) ∧ mayDeclare (reserve id) (fltSrc (flt 0x12 0x8000 5 [])) = true ∧
      fltGen (flt 0x12 0x8000 5 []) = ownGen (reserve id)) ∧
    (isMember (member .running id) = true ∧ leAt (flt 0x13 2 0x8000 [(16, 2, 2)]) 16 2 = servedStation (member .running id) ∧
      leAt (flt 0x13 2 0x8000 [(16, 2, 5)]) 16 2 ≠ servedStation (member .running id) ∧
      ownGen (member .running id) ≤ fltGen (flt 0x13 2 0x8000 [(16, 2, 5)]) ∧
      (member .running id).m.fault.decls.any (fun x => x.f == 5 && x.gen == 0) = false) ∧
    (Heard (reserve coordF) 7 (flt 0x14 0x8000 5 []) 0x14 (reserve coordF) ∧
      Heard (reserve coordF) 7 (flt 0x16 0x8000 5 []) 0x16 (reserve coordF) ∧
      (reserve coordF).m.fault.declaredAt.isSome = true ∧ fltGen (flt 0x14 0x8000 5 []) = ownGen (reserve coordF) ∧
      reserveOf (fltSrc (flt 0x14 0x8000 5 [])) = ownHome (reserve coordF) ∧
      declared (reserve coordF) (fltSrc (flt 0x14 0x8000 5 [])) = true) ∧
    (Heard (member .recovery memberF) 7 (flt 0x15 2 0x8000 []) 0x15 (member .recovery memberF) ∧
      Heard (member .recovery memberF) 7 (flt 0x17 2 0x8000 []) 0x17 (member .recovery memberF) ∧
      declOf (member .recovery memberF) (fltSrc (flt 0x15 2 0x8000 [])) = some decl ∧
      (member .recovery memberF).m.st = .recovery) ∧
    (Heard ((member .running id).p Reg.ethPitchStat Reg.ethPitchStat_pstate 2) 7 (flt 0x18 2 0x8000 []) 0x18
        ((member .running id).p Reg.ethPitchStat Reg.ethPitchStat_pstate 2) ∧
      pstate ((member .running id).p Reg.ethPitchStat Reg.ethPitchStat_pstate 2) = 2) ∧
    (Heard (member .running id) 7 (flt 0x19 2 5 [(32, 1, 1)]) 0x19 (member .running id) ∧
      joinResult (member .running id) (flt 0x19 2 5 [(32, 1, 1)]) = 0) ∧
    (Heard (member .running id) 7 (flt 0x1A 2 5 []) 0x1A (member .running id) ∧ byteAt (flt 0x1A 2 5 []) 16 = 0) := by
  and_intros <;> first | exact heard (by decide +kernel) | decide +kernel

/-! ### Ethernet and pitches -/

/-- A module with identity (station 0) whose Ethernet ports are enabled and up. -/
def eth : State :=
  late ((List.range 8).foldl (fun s e => (s.p (Reg.ethPortCfg e) Reg.ethPortCfg_enable 1).p (Reg.ethPortStatus e)
    Reg.ethPortStatus_up 1) (modM up (fun m => { m with furn := { m.furn with ident := List.replicate 512 0 } })))

/-- Queue pair 63 of port 7 is open. -/
def qp (out : List SqReq) : QpS :=
  ⟨⟨7, [1, 2, 3, 4], 1, 0, 0, 64, 1⟩, false, out, 0, 0, 100, 0⟩
def ethQp (x : QpS) : State := eth.setEth 7 { ethPort eth 7 with qps := [(63, x)] }

/-- Region 3 with key 3, all of the first 4 KiB of HBM, readable and writable. -/
def ethMr : State :=
  (((((ethQp (qp [])).p (Reg.ethMr 3) Reg.ethMr_valid 1).p (Reg.ethMr 3) Reg.ethMr_rd 1).p (Reg.ethMr 3) Reg.ethMr_wr 1).p
    (Reg.ethMrKey 3) Reg.ethMrKey_key 3).p (Reg.ethMrLen 3) Reg.ethMrLen_length 4096

def sqReq : SqReq := ⟨0, 7, 0x1000, 1, 0, 3, 1, [7]⟩

theorem witness_ethernet :
    (ethMay eth 7 = true ∧ eth.m.st ≠ .off ∧ (∀ e ∈ [0, 4, 7], ethUp eth e = true) ∧ eth.m.sec.recovery = false) ∧
    (({ eth with m := { eth.m with time := { eth.m.time with ptp := ⟨some 1, some 2, some 3⟩ } } } : State).m.time.ptp =
      ⟨some 1, some 2, some 3⟩ ∧ linkTime eth = false) ∧
    (∀ r ∈ [(⟨63, 1, 0, 3, 1, [7], 0⟩ : RoceReq), ⟨63, 2, 0, 3, 4096, [], 0⟩, ⟨63, 3, 0, 3, 0, [], 0⟩],
      roceMeets ethMr 7 r = true ∧ mrGrants ethMr r r.len false = true ∧ mrGrants ethMr r r.data.length true = true ∧
      ((ethMr.roceServed 7 r).writeSpan (.roce 7) r.va [7]).1 = none) ∧
    (whole ((ethMr.roceServed 7 ⟨63, 2, 0, 3, 64, [], 0⟩).readSpan (.roce 7) 0 64).1 = some (List.replicate 64 0)) ∧
    (qpOf (ethQp (qp [sqReq])) 7 63 = some (qp [sqReq]) ∧ (qp [sqReq]).err = false ∧ (qp [sqReq]).out = sqReq :: [] ∧
      sqReq.op ≠ 2 ∧ (qp []).sentAt + 1000 * (ethQp (qp [sqReq])).g (Reg.ethPortCfg 7) Reg.ethPortCfg_ack_us ≤
        (ethQp (qp [sqReq])).now ∧ (qp []).rate < lineRate ∧ (qp []).rateAt + 55000 ≤ (ethQp (qp [sqReq])).now) ∧
    ((fld (63 : Word) 32 16 + 65536 - (up.acked (Reg.ethSqBell 7)).g (Reg.ethSqCfg 7 (fld (63 : Word) 0 6)) Reg.ethSqCfg_head) % 65536 ≤
      (up.acked (Reg.ethSqBell 7)).g (Reg.ethSqCfg 7 (fld (63 : Word) 0 6)) Reg.ethSqCfg_entries) := by
  and_intros <;> decide +kernel

/-- A ring of one buffer of 64 bytes at address 4096 of HBM, for queue pair 63 of port 7. -/
def ringed : State :=
  (((ethQp (qp [])).p (Reg.ethRing 7 63) Reg.ethRing_base 0x1000).p (Reg.ethRingCfg 7 63) Reg.ethRingCfg_nbuf 1).p
    (Reg.ethRingCfg 7 63) Reg.ethRingCfg_buf_bytes 1

theorem witness_ring : roceMeets ringed 7 ⟨63, 0, 0, 0, 1, [7], 0⟩ = true ∧
    (1 : Nat) ≤ ringed.g (Reg.ethRingCfg 7 63) Reg.ethRingCfg_buf_bytes * 64 ∧
    ringed.g (Reg.dcpReq (addrDie (ringed.g (Reg.ethRing 7 63) Reg.ethRing_base)) (8 / 8)) ⟨8 * (8 % 8), 8⟩ <
      ringed.g (Reg.ethRingCfg 7 63) Reg.ethRingCfg_nbuf ∧
    ((ringed.roceServed 7 ⟨63, 0, 0, 0, 1, [7], 0⟩).writeSpan (.roce 7) 0x1000 [7]).1 = none := by
  and_intros <;> decide +kernel

theorem leAt_append {a b : List Byte} {i n : Nat} (h : i + n ≤ a.length) : leAt (a ++ b) i n = leAt a i n := by
  unfold leAt
  rw [List.drop_append_of_le_length (by omega), List.take_append_of_le_length (by rw [List.length_drop]; omega)]

theorem byteAt_append {a b : List Byte} {i : Nat} (h : i < a.length) : byteAt (a ++ b) i = byteAt a i := by
  unfold byteAt; rw [List.getD_append _ _ _ _ h]

theorem padTo_length (n : Nat) (x : Byte) (l : List Byte) : (padTo x n l).length = n := by
  induction n generalizing l with
  | zero => rfl
  | succ n ih => cases l <;> simp [padTo, ih]

/-- A pitch message: header and body, and the tag over them. -/
def pitchMsg (s : State) (h : List Byte) : PitchMsg := ⟨[10, 0, 0, 1], h ++ pitchTag s h⟩

/-- What a message leaves the module in when it is taken. -/
def takenOf (s : State) (m : PitchMsg) : State :=
  (s.wr Reg.ethPitchSeq (BitVec.ofNat 64 m.seq)).setPitch { s.m.pitch with tag := m.tag, reply := [] }

/-- A header and a body of `n` bytes in the right form, with a newer seq, inside the window, are accepted with their tag. -/
theorem pitch_taken {s : State} {e typ : Nat} (n : Nat) {h : List Byte} (up : ethUp s e = true ∧ s.m.sec.recovery = false ∧
      s.m.furn.ident ≠ [] ∧ s.m.pitch.reply = [])
    (f : h.length = 32 + n ∧ n ≤ 4000 ∧ leAt h 0 2 = 0x51DE ∧ byteAt h 2 = 1 ∧ leAt h 4 2 = homeWord s ∧ leAt h 6 2 = n ∧
      byteAt h 3 = typ)
    (q : s.g Reg.ethPitchSeq Reg.ethPitchSeq_last < leAt h 12 8 ∧ synced s = true ∧
      Machine.dist (leAt h 20 8) s.now ≤ 1000000 * s.g Reg.ethPitchCfg Reg.ethPitchCfg_window_ms) :
    PitchTaken s e (pitchMsg s h) typ (takenOf s (pitchMsg s h)) := by
  obtain ⟨l, n4, a, b, c, n', t⟩ := f
  have tl : (pitchTag s h).length = 32 := padTo_length ..
  have bl : (pitchMsg s h).bodyLen = n := by simp only [PitchMsg.bodyLen, pitchMsg]; rw [leAt_append (by omega), n']
  have ty : (pitchMsg s h).typ = typ := by simp only [PitchMsg.typ, pitchMsg]; rw [byteAt_append (by omega), t]
  have sq : (pitchMsg s h).seq = leAt h 12 8 := by simp only [PitchMsg.seq, pitchMsg]; rw [leAt_append (by omega)]
  have ti : (pitchMsg s h).time = leAt h 20 8 := by simp only [PitchMsg.time, pitchMsg]; rw [leAt_append (by omega)]
  have form : pitchForm s (pitchMsg s h) = true := by
    have tg : (pitchMsg s h).tag = pitchTag s h := by
      rw [PitchMsg.tag, bl]
      simp only [pitchMsg, slice]
      rw [List.drop_append_of_le_length (by omega), List.drop_of_length_le (by omega), List.nil_append,
        List.take_of_length_le (by omega)]
    rw [pitchForm, tg, bl]
    simp only [pitchMsg, Bool.and_eq_true, beq_iff_eq, decide_eq_true_eq, List.length_append, l, tl]
    rw [leAt_append (by omega), leAt_append (by omega), byteAt_append (by omega), List.take_append_of_le_length (by omega),
      List.take_of_length_le (by omega)]
    exact ⟨⟨⟨⟨⟨a, b⟩, c⟩, n4⟩, by omega⟩, rfl⟩
  refine ⟨up.1, up.2.1, up.2.2.1, ?_, ?_, ty, rfl⟩
  · simp [pitchRepeat, up.2.2.2]
  · simp [pitchOk, form, sq, q.1, q.2.1, inWindow, ti, q.2.2]

/-- A synchronised module with identity, in a pitch state and a module state. -/
def pitched (st : ModState) (ps : Nat) : State :=
  modM ((eth.p Reg.timeStatus Reg.timeStatus_sync 1).p Reg.ethPitchStat Reg.ethPitchStat_pstate ps)
    (fun m => { m with st := st, fault := { m.fault with scrubbed := true }, pitch := { m.pitch with loaded := true } })

/-- A header of a type, with a body of `n` bytes. -/
def header (typ n : Nat) : List Byte :=
  bytes (32 + n) [(0, 2, 0x51DE), (2, 1, 1), (3, 1, typ), (6, 2, n), (12, 8, 1), (20, 8, 0x1000000000000)]

/-- The states the messages are taken in, and the state each acts on. -/
def sent (st : ModState) (ps typ n : Nat) : State := takenOf (pitched st ps) (pitchMsg (pitched st ps) (header typ n))

/-- The five messages a scheduler sends are taken, OFFER with 14 bytes of body, END with one. -/
theorem witness_pitch_taken : ∀ x ∈ [(ModState.running, 2, 1, 0), (.running, 2, 5, 4), (.ready, 0, 2, 14), (.ready, 1, 3, 0),
    (.ready, 1, 4, 1), (.running, 2, 4, 1)],
    PitchTaken (pitched x.1 x.2.1) 0 (pitchMsg (pitched x.1 x.2.1) (header x.2.2.1 x.2.2.2)) x.2.2.1
      (sent x.1 x.2.1 x.2.2.1 x.2.2.2) :=
  fun x h => pitch_taken x.2.2.2 (by revert x h; decide +kernel) (by revert x h; decide +kernel)
    (by revert x h; decide +kernel)

theorem witness_pitch :
    (pstate (sent .ready 0 2 14) = 0 ∧ notReady (sent .ready 0 2 14) = false ∧ (sent .ready 0 2 14).m.st = .ready ∧
      offerOf (pitchMsg (pitched .ready 0) (header 2 14)).body = some ⟨0, 0, [], []⟩) ∧
    (pstate (sent .ready 1 3 0) = 1 ∧ (sent .ready 1 3 0).m.pitch.loaded = true ∧ planLoaded (sent .ready 1 3 0) = true ∧
      (sent .ready 1 3 0).m.st = .ready ∧ idleReserve (sent .ready 1 3 0) = false) ∧
    (pstate (sent .ready 1 4 1) = 1 ∧ pstate (sent .running 2 4 1) = 2 ∧ (sent .running 2 4 1).m.st ≠ .recovery) ∧
    (∀ x ∈ [(ModState.ready, 1), (.running, 2)], pstate (pitched x.1 x.2) = x.2 ∧ (pitched x.1 x.2).m.st ≠ .recovery ∧
      (pitched x.1 x.2).m.pitch.notAfter < (pitched x.1 x.2).now) ∧
    (pstate ((pitched .running 2).p (Reg.wghStatus 1 63) Reg.wghStatus_stop 1) = 2 ∧
      normStopped ((pitched .running 2).p (Reg.wghStatus 1 63) Reg.wghStatus_stop 1) = true) ∧
    (pstate (pitched .draining 3) = 3 ∧ pstate (pitched .draining 4) = 4 ∧ (pitched .draining 4).m.fault.scrubbed = true) ∧
    (pstate (pitched .running 2) ≠ 0 ∧ (pitched .running 2).m.pitch.wroteAt + 1000000000 *
      (pitched .running 2).g Reg.ethTollCfg Reg.ethTollCfg_ckpt_s ≤ (pitched .running 2).now) := by
  and_intros <;> decide +kernel

/-! ### Start-up, power, clocks, time -/

/-- A module with identity in Standby, before phase 6, in phase 4; the always-on registers it reads. -/
def standby : State :=
  (modM eth (fun m => { m with st := .standby, boot := { m.boot with want := true } })).p Reg.mgtStatus Reg.mgtStatus_phase 4

/-- A reserve without a station to serve, in Ready. -/
def idle : State :=
  modM eth (fun m => { m with st := .ready, furn := { m.furn with ident := (m.furn.ident.set 0x10 0).set 0x11 0x80 } })

theorem witness_startup :
    (State.reset.m.st = .off ∧ State.reset.m.pwr.low = false ∧ State.reset.m.pwr.shut = false) ∧
    (mayLeave standby = true ∧ standby.m.boot.want = true ∧ standby.m.boot.up = false ∧ flowBelow standby = false) ∧
    (phase6 starting = true ∧ starting.m.boot.loaded = false) ∧
    (idle.m.st = .ready ∧ nbit (identStation idle) 15 = true ∧ idle.m.fault.serving = none) ∧
    (fld (0xA500 : Word) 8 8 = 0xA5 ∧ (up.acked Reg.mgtCtl).on Reg.secStatus Reg.secStatus_busy = false ∧
      ((up.p Reg.secStatus Reg.secStatus_busy 1).acked Reg.mgtCtl).on Reg.secStatus Reg.secStatus_busy = true) ∧
    ((up.p Reg.secStatus Reg.secStatus_trial 1).on Reg.secStatus Reg.secStatus_trial = true ∧ up.now ≤ up.m.sec.phase5 + 1000000000) ∧
    ((standby.acked Reg.mgtFlashCmd).m.st = .standby ∧ 4 ≤ (standby.acked Reg.mgtFlashCmd).g Reg.mgtStatus Reg.mgtStatus_phase ∧
      (standby.acked Reg.mgtFlashCmd).on Reg.mgtFlashCmd Reg.mgtFlashCmd_busy = false ∧
      (∀ op ∈ [1, 2, 3], fld (setFld 0 0 2 op) 8 20 % (if op = 3 then 65536 else 256) = 0)) ∧
    (standby.p Reg.mgtFlashCmd Reg.mgtFlashCmd_busy 1).on Reg.mgtFlashCmd Reg.mgtFlashCmd_busy = true := by
  and_intros <;> decide +kernel

theorem witness_standby_flash : Accepted standby w0 Reg.mgtFlashCmd (standby.acked Reg.mgtFlashCmd) :=
  accepted (by decide +kernel)

/-- Feed 0 is open since time 0; low input; SHUTDOWN_N low; the module stretched since time 0. -/
def opened : State := modM eth (fun m => { m with pwr := { m.pwr with sw := [0], opens := [(0, 0)] } })
def lowIn : State := modM eth (fun m => { m with pwr := { m.pwr with low := true, shut := true } })
def stretched : State :=
  (modM eth (fun m => { m with pwr := { m.pwr with floorAt := some 0 } })).p Reg.pwrStretch Reg.pwrStretch_cause 1

theorem witness_power :
    (aonOn eth = true ∧ ∀ f ∈ [(0 : Nat), 1], eth.on (Reg.pwrFeed f) Reg.pwrFeed_lost = false ∧
      eth.on (Reg.pwrFeed (1 - f)) Reg.pwrFeed_lost = false ∧ eth.on (Reg.pwrFeed f) Reg.pwrFeed_reverse = false ∧
      eth.m.pwr.sw.contains f = false) ∧
    (((opened.m.pwr.opens.filter (fun y => y.1 == 0)).map (·.2)).getLast? = some 0 ∧ opened.m.pwr.sw.contains 0 = true ∧
      feedLatched opened.m.pwr 0 = false ∧ opened.on (Reg.pwrFeed 0) Reg.pwrFeed_reverse = false ∧ 0 + 100000000 ≤ opened.now) ∧
    (eth.m.st ≠ .off ∧ eth.m.pwr.low = false ∧ eth.m.pwr.shut = false ∧ lowIn.m.pwr.low = true ∧ lowIn.m.pwr.shut = true) ∧
    (∀ r ∈ [(2 : Nat), 11], (eth.rd Reg.pwrSense).getLsbD r = false) ∧
    eth.on Reg.pwrStatus Reg.pwrStatus_shell_hold = false ∧
    (overBound eth = 0 ∧ released eth = true ∧ overBound (eth.p Reg.pwrInput Reg.pwrInput_w_1ms 2761) ≠ 0 ∧
      (eth.p Reg.pwrStretch Reg.pwrStretch_k_m 15).g Reg.pwrStretch Reg.pwrStretch_k_m < 16) ∧
    (stretched.m.pwr.floorAt = some 0 ∧ 0 + 100000000 ≤ stretched.now ∧ stretched.g Reg.pwrStretch Reg.pwrStretch_cause ≠ 0 ∧
      stretched.on Reg.pwrStatus Reg.pwrStatus_floor = false) ∧
    (eth.dieOn 1 = true ∧ droop eth 1 ≠ 8) ∧ (∀ t < 64, tileBusy (up.acked (Reg.pwrTileOn 0)) 0 t = false) := by
  and_intros <;> decide +kernel

/-- The reference port in state 5, the oscillator good, one good window behind. -/
def clocked (good : Nat) : State :=
  (modM ((eth.p (Reg.lnkPortStatus 0 0) Reg.lnkPortStatus_state 5).p Reg.mckStatus Reg.mckStatus_osc_ok 1)
    (fun m => { m with clk := { m.clk with refGood := good, oscGood := 15 } })).p Reg.timeCfg Reg.timeCfg_time_source 1

/-- Every tile of die A gated, its array PLL asked to sleep. -/
def asleep : State :=
  ((List.range 64).foldl (fun s t => s.setTile 0 t { s.tile 0 t with gated := true }) eth).p (Reg.clkCtl 0)
    Reg.clkCtl_pll_sleep 1

theorem witness_clocks :
    (refUp (clocked 1) = true ∧ oscOk (clocked 1) = true ∧ (clocked 1).m.st ≠ .off ∧ 1 ≤ (clocked 1).m.clk.refGood ∧
      1000000 * ((2 ^ 20 + 52 : Nat) - 2 ^ 20 : Int).natAbs ≤ 2 ^ 20 * (clocked 1).g Reg.mckRefCfg Reg.mckRefCfg_ref_ppm ∧
      ¬ 1000000 * ((2 ^ 20 + 53 : Nat) - 2 ^ 20 : Int).natAbs ≤ 2 ^ 20 * (clocked 1).g Reg.mckRefCfg Reg.mckRefCfg_ref_ppm) ∧
    (aonOn (clocked 0) = true ∧ oscOk (clocked 0) = true ∧ oscOk ((clocked 0).p Reg.mckStatus Reg.mckStatus_osc_ok 0) = false ∧
      15 ≤ ((clocked 0).p Reg.mckStatus Reg.mckStatus_osc_ok 0).m.clk.oscGood) ∧
    ((eth.die 0).power = true ∧ (∀ p ∈ [(0 : Nat), 4], nbit (eth.die 0).pllRun p = true ∧ (eth.rd (Reg.clkStatus 0)).getLsbD p = true)) ∧
    ((asleep.die 0).power = true ∧ asleep.on (Reg.clkCtl 0) Reg.clkCtl_pll_sleep = true ∧ allGated asleep 0 = true ∧
      (asleep.die 0).u.cur.isSome = false ∧ (asleep.die 0).updQ = []) ∧
    (allGated (asleep.acked (Reg.clkCtl 0)) 0 = true ∧ ((asleep.acked (Reg.clkCtl 0)).die 0).u.cur.isNone = true) ∧
    (∀ n ∈ [0x01900190, 0x049703CF], mhzOk 1000 (fld (BitVec.ofNat 64 n) 0 16) = true ∧ mhzOk 1200 (fld (BitVec.ofNat 64 n) 16 16) = true ∧
      (up.acked (Reg.clkFreq 0)).g (Reg.clkFreq 0) Reg.clkFreq_arr_mhz ≠ fld (BitVec.ofNat 64 n) 0 16 ∧
      ((((up.acked (Reg.clkFreq 0)).p (Reg.clkFreq 0) Reg.clkFreq_arr_mhz (fld (BitVec.ofNat 64 n) 0 16)).setLock 0 0 false).arrShow 0).g
        (Reg.clkFreq 0) Reg.clkFreq_fab_mhz ≠ fld (BitVec.ofNat 64 n) 16 16) ∧
    fld (8 : Word) 1 3 ≤ 4 := by
  and_intros <;> decide +kernel

theorem witness_arr_stop : Accepted asleep w0 (Reg.clkCtl 0) (asleep.acked (Reg.clkCtl 0)) := accepted (by decide +kernel)

theorem witness_time :
    ((up.acked Reg.timeStep).on Reg.timeStatus Reg.timeStatus_sync_ever = false ∧
      ((up.p Reg.timeStatus Reg.timeStatus_sync_ever 1).acked Reg.timeStep).on Reg.timeStatus Reg.timeStatus_sync_ever = true) ∧
    (linkTime (clocked 0) = true ∧ (clocked 0).m.time.sentAt + 1000000 * (clocked 0).g Reg.timeCfg Reg.timeCfg_link_ms ≤
      (clocked 0).now) ∧
    ((portAt 5).portState 7 = 5 ∧ byteAt (bytes 64 [(0, 1, 1)]) 0 = 1 ∧ byteAt (bytes 64 [(0, 1, 2)]) 0 = 2) ∧
    ((pitched .running 2).m.time.accAt + 1000000000 * (pitched .running 2).g Reg.timeCfg Reg.timeCfg_holdover_s ≤
      (pitched .running 2).now ∧ synced (pitched .running 2) = true) := by
  and_intros <;> decide +kernel

theorem witness_time_step_refused : ∀ s : State, s = up.p Reg.timeStatus Reg.timeStatus_sync_ever 1 →
    Accepted s w0 Reg.timeStep (s.acked Reg.timeStep) := by
  intro s h; subst h; exact accepted (by decide +kernel)

/-! ### Observability, staging, debug, sensors -/

theorem witness_observability :
    (up.dieOn 0 = true ∧ (up.p (Reg.obsPcCfg 0 63) Reg.obsPcCfg_period_us 1).g (Reg.obsPcCfg 0 63) Reg.obsPcCfg_period_us ≠ 0 ∧
      (up.p (Reg.dobPcCfg 0) Reg.dobPcCfg_period_us 1).g (Reg.dobPcCfg 0) Reg.dobPcCfg_period_us ≠ 0) ∧
    (∀ n ∈ [0, 0x500000000], fld (BitVec.ofNat 64 n) 32 3 < 6) ∧ (∀ n ∈ [0, 7], fld (0x3000 + BitVec.ofNat 64 n) 0 16 = 0x3000 + n) ∧
    (∀ b ∈ [CntBlock.obs 0 0, .dob 0], b.ctl ∈ written) := by
  and_intros <;> decide +kernel

/-- A receiver of the image, and a module that receives block 0 of one from port 7. -/
def peer : FwPeer := ⟨7, true, 0, 0, false, false⟩
def fwIn : State :=
  modM (portAt 5) (fun m => { m with dist := { m.dist with src := some 7, peers := [peer] }, sec := { m.sec with op := some (1, 0) } })

/-- Recovery mode, port 0 up. -/
def recovering : State := modM eth (fun m => { m with sec := { m.sec with recovery := true } })

theorem witness_staging :
    (∀ op ∈ [1, 3, 5], stageRefused (up.acked Reg.secStageCmd) op 0 = false) ∧
    (stageRefused (modM up (fun m => { m with sec := { m.sec with last := some 0 } })) 2 1 = false ∧
      stageRefused (up.p Reg.secStatus Reg.secStatus_staged 1) 4 0 = false) ∧
    (fwIn.m.sec.op = some (1, 0) ∧ fwIn.m.boot.restart = none ∧
      (modM fwIn (fun m => { m with boot := { m.boot with restart := some true } })).m.boot.restart = some true ∧
      (((modM fwIn (fun m => { m with boot := { m.boot with restart := some true } })).stageEnd 5 0 true).2.fwStaged 0).on
        Reg.secStatus Reg.secStatus_busy = false) ∧
    (byteAt (bytes 64 [(0, 1, 0x20)]) 0 = 0x20 ∧ wardensRun (pitched .running 2) = true ∧ pstate (pitched .running 2) ≠ 0 ∧
      wardensRun up = true ∧ pstate up = 0 ∧ up.on Reg.secStatus Reg.secStatus_busy = false) ∧
    (byteAt (bytes 64 [(0, 1, 0x22)]) 0 = 0x22 ∧ fwIn.m.dist.src = some 7 ∧
      leAt (bytes 64 [(0, 1, 0x22)]) 2 2 = fwIn.m.dist.staged + (if fwIn.m.dist.op = some 1 then 1 else 0) ∧
      leAt (bytes 64 [(0, 1, 0x22)]) 4 2 = fwIn.m.dist.buf.length ∧ fwIn.m.dist.buf.length < 4096) ∧
    (wardensRun fwIn = true ∧ fwIn.m.dist.peers.find? (fun z => z.port == 7) = some peer ∧
      (∀ r ∈ [0, 2], byteAt (bytes 64 [(0, 1, 0x21), (4, 1, r)]) 0 = 0x21 ∧ byteAt (bytes 64 [(0, 1, 0x21), (4, 1, r)]) 4 = r ∧
        leAt (bytes 64 [(0, 1, 0x21), (4, 1, r)]) 2 2 ≠ 0xFFFF ∧ leAt (bytes 64 [(0, 1, 0x21), (4, 1, r)]) 2 2 = peer.acked)) ∧
    (byteAt (bytes 64 [(0, 1, 0x23)]) 0 = 0x23 ∧ stageRefused fwIn 3 0 = false) ∧
    (recovering.m.sec.recovery = true ∧ ethUp recovering 0 = true) := by
  and_intros <;> decide +kernel

/-- A digest no image carries: every image digest differs from one of two. -/
theorem witness_new_image (g : List Byte) : ∃ m : List Byte, m.length = 64 ∧ byteAt m 0 = 0x20 ∧ slice m 5 32 ≠ g := by
  by_cases h : g = List.replicate 32 0
  · exact ⟨bytes 64 [(0, 1, 0x20), (5, 1, 1)], by decide +kernel, by decide +kernel, by subst h; decide +kernel⟩
  · exact ⟨bytes 64 [(0, 1, 0x20)], by decide +kernel, by decide +kernel,
      fun e => h (e ▸ (by decide +kernel : slice (bytes 64 [(0, 1, 0x20)]) 5 32 = List.replicate 32 0))⟩

/-- Recovery messages for the own serial number. -/
theorem witness_recovery_messages : ∀ t ∈ [2, 4],
    recTakes recovering (leBytes 2 0x51DF ++ [BitVec.ofNat 8 t, 0] ++ serialBytes ++ [0, 0]) t = true := by
  intro t h
  have e : slice (leBytes 2 0x51DF ++ [BitVec.ofNat 8 t, 0] ++ serialBytes ++ [0, 0]) 4 16 = serialBytes := rfl
  simp only [recTakes, e, beq_self_eq_true, Bool.and_true]
  clear e; revert t h; decide +kernel

theorem witness_debug :
    ((up.p Reg.secDbgCtl Reg.secDbgCtl_method 1).acked Reg.secDbgCtl).on Reg.secDbgCtl Reg.secDbgCtl_method = true ∧
    (((up.p Reg.secDbgCtl Reg.secDbgCtl_method 1).p Reg.secStatus Reg.secStatus_dbg_open 1).acked Reg.secDbgCtl).jtagOpen = true ∧
    (up.acked Reg.secDbgCtl).m.sec.pwSet = false ∧ (up.acked Reg.secDbgCtl).on Reg.secStatus Reg.secStatus_dbg_open = false ∧
    ((modM up (fun m => { m with sec := { m.sec with pwSet := true } })).acked Reg.secDbgCtl).m.sec.pwSet = true := by
  and_intros <;> decide +kernel

/-- Flow and coolant beyond their limits for a second. -/
def hot : State := modM eth (fun m => { m with sens := { m.sens with flow := (1, 0), inlet := (1, 0), outlet := (1, 0) } })

theorem witness_sensors :
    (stood hot.now hot.m.sens.flow 1 = true ∧ hot.on Reg.mgtSensStatus Reg.mgtSensStatus_flow_low = false) ∧
    (stood hot.now hot.m.sens.inlet 1 = true ∧ hot.on Reg.mgtSensStatus Reg.mgtSensStatus_inlet_high = false) ∧
    (stood hot.now hot.m.sens.outlet 1 = true ∧ hot.on Reg.mgtSensStatus Reg.mgtSensStatus_outlet_high = false) ∧
    (hot.dieOn 1 = true ∧ (hot.p (Reg.mgtSensDie 1) Reg.mgtSensDie_valid 0).g (Reg.mgtSensDie 1) Reg.mgtSensDie_valid = 0) ∧
    (∀ c ∈ [ConnId.cable 15, .cage 7], (eth.p Reg.mgtConn c.present 1).on Reg.mgtConn c.present = true ∧
      (eth.p Reg.mgtConn c.present 1).on Reg.mgtConn c.off = false) ∧
    (byteAt (0x5A :: List.replicate 16 0) 0 = 0x5A ∧ (0x5A :: List.replicate 16 (0 : Byte)).length = 17) ∧
    (eth.port 15).scq = [] := by
  and_intros <;> decide +kernel

/-! ### Numbers and whole-machine rules -/

theorem witness_numbers :
    (f8e4.dec 0 ≠ .nan ∧ f32.dec 0x7F800000 ≠ .nan) ∧ (∀ f ∈ [f8e5, bf16, f16, f32], (2 ^ f.X - 1) * 2 ^ f.M < 2 ^ (f.sbit + 1) ∧
      (2 ^ f.X - 1) * 2 ^ f.M / 2 ^ f.M % 2 ^ f.X = 2 ^ f.X - 1) ∧
    (∀ b ∈ [1, 2, 4, 8, 16], ([0, 1, 1, 0, 1, 1, 0, 0] : List Nat).length * b % 8 = 0 ∧ ∀ e ∈ ([0, 1, 1, 0, 1, 1, 0, 0] : List Nat), e < 2 ^ b) ∧
    (1 : Byte) ≠ 0 := by
  and_intros <;> decide +kernel

/-- A counter at its end, and one below. -/
theorem witness_counters : (0xFFFFFFFF < fld ((up.wr (Reg.dobCnt32 0 118) 0xFFFFFFFF).rd (Reg.dobCnt32 0 118)) 0 32 + 1) ∧
    fld (up.rd (Reg.dobCnt32 0 118)) 32 1 = 0 ∧ ¬ 0xFFFFFFFF < fld (up.rd (Reg.dobCnt32 0 118)) 0 32 + 1 := by
  and_intros <;> decide +kernel

/-- The frame statements' writes are accepted and answer. -/
theorem witness_frames : (∀ a ∈ [Reg.obsCtl 0 0, Reg.dobCtl 0, Reg.obsSample 0 0, Reg.memInvalidate 0 0, Reg.mapRegionRange 0 255,
    Reg.mapRepairStat 0], a ∈ written) ∧ (∃ t, exec .surge up = .next t) ∧ (1 : Nat) ≠ 0 ∧ (1 : Nat) < 64 :=
  ⟨by decide +kernel, ⟨_, rfl⟩, by decide, by decide⟩

theorem witness_handover_pending : Accepted handing w0 (Reg.memBankHand 0 0 24) (handing.acked (Reg.memBankHand 0 0 24)) :=
  accepted (by decide +kernel)

/-! ## Worked examples of the manual -/

/-- Chapters 00 and 01: the register of die B, tile 9, block CNV; the die pool of die B and its bank 5. -/
theorem test_addresses : rgnOf 0x700100092000 = .reg ⟨.cnv, 1, 9, 0⟩ ∧ rgnOf 0x400140000000 = .pool 1 0 ∧
    rgnOf 0x400141FFFFFF = .pool 1 0x1FFFFFF ∧ (rgnOf 0x400140280000).bank = some (1, 5, 24) ∧
    rgnOf 0x400142000000 = .unmapped := by decide +kernel

/-- Chapter 02, narrowing examples: code, saturated, flushed. -/
theorem test_narrowing : bf16.round 0 0 true false (f32.dec 0x3F808000) = ⟨0x3F80, false, false⟩ ∧
    bf16.round 0 0 true false (f32.dec 0x3F818000) = ⟨0x3F82, false, false⟩ ∧
    bf16.round 1 0 true false (f32.dec 0x3F818000) = ⟨0x3F81, false, false⟩ ∧
    bf16.round 2 0x7FFF true false (f32.dec 0x3F818000) = ⟨0x3F82, false, false⟩ ∧
    bf16.round 2 0x8000 true false (f32.dec 0x3F818000) = ⟨0x3F81, false, false⟩ ∧
    f8e4.round 0 0 false false (f32.dec 0x43960000) = ⟨0x79, false, false⟩ ∧
    f8e4.round 0 0 false false (f32.dec 0x43FA0000) = ⟨0x7E, true, false⟩ ∧
    f8e5.round 0 0 false false (f32.dec 0x38400000) = ⟨0x03, false, false⟩ ∧
    f8e5.round 0 0 false true (f32.dec 0x38400000) = ⟨0x00, false, true⟩ ∧
    (f8e4.round 0 0 false false (f32.dec 0x7F800000)).bits = 0x7F ∧ r32 (f8e5.dec 0x03) = 0x38400000 ∧
    r32 (f16.dec 0x0200) = 0x38000000 := by decide +kernel

/-- Chapter 02, weight bytes: 0xB4 under W2 unsigned and signed, W2T, and signed W1. -/
theorem test_weight_byte : (unpack [0xB4] 2).map (reading 1 false) = [0, 1, 3, 2] ∧
    (unpack [0xB4] 2).map (reading 1 true) = [0, 1, -1, -2] ∧ (unpack [0xB4] 2).map (reading 2 true) = [0, 1, -1, 0] ∧
    (unpack [0xB4] 1).map (reading 0 true) = [-1, -1, 1, -1, 1, 1, -1, 1] := by decide +kernel

/-- Chapter 04: the operand cycle at output element (0, 0), and the same with 0 × ∞. -/
theorem test_cell : cellSum false 0x3FE00000 [(0x3F800000, 0x3F000000), (0xBF000000, 0x40000000), (0x40400000, 0xBF800000),
      (0x3E800000, 0x40800000)] = (0xBF400000, false, false) ∧
    (cellSum false 0x3FE00000 [(0x3F800000, 0x3F000000), (0, 0x7F800000), (0x40400000, 0xBF800000),
      (0x3E800000, 0x40800000)]).2.1 = true := by decide +kernel

/-- Chapter 05: the first four words of a shaker seeded with 1, and the limit 2^−3 × 1.27734375 of the norm example. -/
theorem test_shaker_limit : (shakerNext 1).1 = 1 ∧ (shakerNext (shakerNext 1).2).1 = 0x8000000000000000 ∧
    (shakerNext (shakerNext (shakerNext 1).2).2).1 = 0 ∧
    (shakerNext (shakerNext (shakerNext (shakerNext 1).2).2).2).1 = 0x6000000000000000 ∧
    (pow2q (-697)).isFrac 327 2048 = true ∧ lgOf (.fin false 1 2) = -256 := by decide +kernel

/-- Chapter 06: element (3, 7) under W2 unsigned and signed. -/
theorem test_narrow_weight : narrowCode 1 false 0 0 (.fin false 3 64) (.fin false 5 4) (.fin false 1 32) = (2, false) ∧
    narrowCode 1 true 0 0 (.fin false 3 64) (.fin false 5 4) (.fin false 1 32) = (1, true) := by decide +kernel

/-- Chapter 09: the tier-2 address 0x0100_4000_1A40 with a carve of 64 GiB, and the HBM address 0x0060_0000_0A00. -/
theorem test_external_decode : tr2Pkg 0x40001A40 = 6 ∧ tr2Gran 0x40001A40 = 372828 ∧ tr2Phys 0x40001A40 = 0x05B05C40 ∧
    tr2LineNo 0x40001A40 = 49 ∧ rcLine 0x40001A40 = 2097165 ∧ rcSets 64 = 8323072 ∧
    rcTagAddr 0 64 2097165 = 0x005008000340 ∧ rcWayAddr 0 64 2097165 3 = 0x00542001A600 ∧
    8 + hbmStack 0xA00 = 11 ∧ hbmStackAddr 0xA00 = 0x100 := by decide +kernel

/-- What a command leaves. -/
def after (o : Host.Outcome State Fault Refusal) (f : State → Bool) : Bool :=
  match o with
  | .next t => f t
  | _ => false

/-- Chapter 22, converter saturation: the source row in HBM of die A, the convert operation, one converted vector. -/
def dSat : Desc :=
  desc [(0, 1, 3), (16, 6, 0x2000), (22, 2, 9), (24, 2, 1), (32, 6, 0x1000), (40, 2, 1), (42, 2, 8), (46, 1, 0x14), (47, 1, 0x22),
    (48, 1, 11), (51, 1, 0x7F)]
def satAt : State :=
  { inFlight 3 dSat id with mem := (((List.range 20).zip ([0x43960000, 0xC3480000, 0x3FC00000, 0xBF000000, 0x40200000].flatMap
      (leBytes 4))).map (fun p => (0x1000 + p.1, p.2))).filter (fun c => c.2 != 0) }

theorem test_converter_saturation : after (exec (.cnvVector 0 0) satAt) (fun t =>
    (List.range 8).map (fun i => t.byte (0x2000 + i)) == leBytes 8 0x01FE000000007F14 &&
    (List.range 8).map (fun i => t.byte (0x2040 + i)) == [0x7F, 0x80, 0x02, 0x00, 0x02, 0x00, 0x00, 0x00] &&
    (List.range 8).map (fun i => t.byte (0x2008 + i)) == leBytes 8 0x00FF000000007F14) = true := by decide +kernel

/-- R5 and R17: a 4-byte write of a register and a write of an unmapped address write nothing and raise their events. -/
theorem test_refused_write :
    after (exec (.registerWrite w0 (BitVec.ofNat 48 (Reg.seqCtl 0 0)) 4 1) up) (fun t => t.reply == .error .regAccess &&
      (t.rd (Reg.dobEvents 0)).getLsbD 0 && t.rd (Reg.seqCtl 0 0) == up.rd (Reg.seqCtl 0 0)) = true ∧
    after (exec (.memoryAccess w0 (wrOf 0x7FFFFFFFFFFF [1]) none) up) (fun t => t.reply == .error .unmapped &&
      (t.rd (Reg.dobEvents 0)).getLsbD 2 && t.mem == up.mem) = true := by
  and_intros <;> decide +kernel

/-- R378: an add past FFFF_FFFFh leaves the end and raises EV_TLY_RANGE. -/
theorem test_tally_range : after (exec (.tallyBankOp 0 7) ((dieA up (fun x => { x with banks := x.banks.set 7 [.add 7 2] })).p
    (Reg.tlyState 0 7) Reg.tlyState_value 0xFFFFFFFE)) (fun t => tVal t 0 7 == 0xFFFFFFFF &&
      (t.rd (Reg.tlyEvents 0)).getLsbD 0) = true := by decide +kernel

/-- R416 and R428: a handover gives the bank its next owner; a write of an on-chip line makes it valid. -/
theorem test_bank_and_line :
    after (exec (.handover 0 0 24) (handing.p (Reg.memBankHand 0 0 24) Reg.memBankHand_next_kind 1)) (fun t =>
      t.g (Reg.memBankOwn 0 0 24) Reg.memBankOwn_kind == 1 && !(t.die 0).trig.contains (0, 24)) = true ∧
    after (exec (.memoryAccess w0 (wrOf 0x400040000000 [7]) none) { owned with valid := [] }) (fun t =>
      t.byte 0x400040000000 == 7 && t.lineValid (0x400040000000 / 64) && t.reply == .ack) = true := by
  and_intros <;> decide +kernel

end Sys2Proof.Tests
end

section
/-! The register blocks of the address map (R14, R22 to R24). The three block lemmas say what `regLoc` answers at an
offset of a tile, die or module block, whether or not the block number has a block; `rgnOf_eq_regLoc` carries them
over to the regions. -/

namespace Sys2Proof.Machine

/-- Above the SRAM span only the register map decides the region. -/
theorem rgnOf_eq_regLoc {a : Nat} (ha : 0x400200000000 ≤ a) : rgnOf a = (regLoc a).elim .unmapped .reg := by
  have hhbm : ¬ a < 0xC000000000 := by omega
  have htr2 : ¬ (0x10000000000 ≤ a ∧ a < 0x26800000000) := by omega
  have hsram : ¬ (0x400000000000 ≤ a ∧ a < 0x400200000000) := by omega
  rw [rgnOf, if_neg hhbm, if_neg htr2, if_neg hsram]
  cases regLoc a <;> rfl

/-- The register span of a die: tile blocks below 0x40_0000, die blocks above (R22, R23). -/
theorem regLoc_dieSpan {d o : Nat} (hd : d < 2) (ho : o < 0x100000000) :
    regLoc (0x700000000000 + 0x100000000 * d + o) =
      if o < 0x400000 then (tileBlkOf (o % 0x10000 / 0x1000)).map (⟨·, d, o / 0x10000, o % 0x1000⟩)
      else (dieBlkOf (o / 0x100000)).map (⟨·, d, 0, o % 0x100000⟩) := by
  have hin : 0x700000000000 ≤ 0x700000000000 + 0x100000000 * d + o ∧
      0x700000000000 + 0x100000000 * d + o < 0x700200000000 := by omega
  have hdie : (0x700000000000 + 0x100000000 * d + o - 0x700000000000) / 0x100000000 = d := by omega
  have hoff : (0x700000000000 + 0x100000000 * d + o - 0x700000000000) % 0x100000000 = o := by omega
  simp only [regLoc, if_pos hin, hdie, hoff]

/-- Block `k` of tile `t` (R22). -/
theorem regLoc_tileBlock {d t k x : Nat} (hd : d < 2) (ht : t < 64) (hk : k < 16) (hx : x < 0x1000) :
    regLoc (0x700000000000 + 0x100000000 * d + 0x10000 * t + 0x1000 * k + x) = (tileBlkOf k).map (⟨·, d, t, x⟩) := by
  have hlt : 0x10000 * t + 0x1000 * k + x < 0x400000 := by omega
  have hblk : (0x10000 * t + 0x1000 * k + x) % 0x10000 / 0x1000 = k := by omega
  have htile : (0x10000 * t + 0x1000 * k + x) / 0x10000 = t := by omega
  have hoff : (0x10000 * t + 0x1000 * k + x) % 0x1000 = x := by omega
  have h := regLoc_dieSpan hd (show 0x10000 * t + 0x1000 * k + x < 0x100000000 by omega)
  rwa [if_pos hlt, hblk, htile, hoff, ← Nat.add_assoc, ← Nat.add_assoc] at h

/-- Megabyte `k` of a die's register span, past the tiles (R23). -/
theorem regLoc_dieBlock {d k x : Nat} (hd : d < 2) (hk4 : 4 ≤ k) (hk : k < 0x1000) (hx : x < 0x100000) :
    regLoc (0x700000000000 + 0x100000000 * d + (0x100000 * k + x)) = (dieBlkOf k).map (⟨·, d, 0, x⟩) := by
  have hge : ¬ 0x100000 * k + x < 0x400000 := by omega
  have hblk : (0x100000 * k + x) / 0x100000 = k := by omega
  have hoff : (0x100000 * k + x) % 0x100000 = x := by omega
  rw [regLoc_dieSpan hd (by omega), if_neg hge, hblk, hoff]

/-- Megabyte `k` of the module registers (R24). -/
theorem regLoc_moduleBlock {k x : Nat} (hk : k < 6) (hx : x < 0x100000) :
    regLoc (0x7F0000000000 + 0x100000 * k + x) = (modBlkOf k).map (⟨·, 0, 0, x⟩) := by
  have hdie : ¬ (0x700000000000 ≤ 0x7F0000000000 + 0x100000 * k + x ∧
      0x7F0000000000 + 0x100000 * k + x < 0x700200000000) := by omega
  have hmod : 0x7F0000000000 ≤ 0x7F0000000000 + 0x100000 * k + x ∧
      0x7F0000000000 + 0x100000 * k + x < 0x7F0000600000 := by omega
  have hblk : (0x7F0000000000 + 0x100000 * k + x - 0x7F0000000000) / 0x100000 = k := by omega
  have hoff : (0x7F0000000000 + 0x100000 * k + x - 0x7F0000000000) % 0x100000 = x := by omega
  simp only [regLoc, if_neg hdie, if_pos hmod, hblk, hoff]

/-- A tile's blocks end at GEN: 0x9000 to 0xF000 hold none (R22). -/
theorem tileBlkOf_eq_none {k : Nat} (hk : 9 ≤ k) : tileBlkOf k = none := by
  obtain ⟨j, rfl⟩ := Nat.exists_eq_add_of_le' hk
  rfl

/-- The die blocks begin at megabyte 0x10 (R23). -/
theorem dieBlkOf_eq_none {k : Nat} (hk : k < 0x10) : dieBlkOf k = none := by
  interval_cases k <;> rfl

/-- Each block of a tile, and the gap after GEN, as regions of the map (R22). -/
theorem rgnOf_tileBlock {d t k x : Nat} (hd : d < 2) (ht : t < 64) (hk : k < 16) (hx : x < 0x1000) :
    rgnOf (0x700000000000 + 0x100000000 * d + 0x10000 * t + 0x1000 * k + x) =
      (tileBlkOf k).elim .unmapped (fun b => .reg ⟨b, d, t, x⟩) := by
  rw [rgnOf_eq_regLoc (by omega), regLoc_tileBlock hd ht hk hx, Option.elim_map]; rfl

/-- Each megabyte of a die's register span past the tiles, as a region of the map (R23). -/
theorem rgnOf_dieBlock {d k x : Nat} (hd : d < 2) (hk4 : 4 ≤ k) (hk : k < 0x1000) (hx : x < 0x100000) :
    rgnOf (0x700000000000 + 0x100000000 * d + (0x100000 * k + x)) =
      (dieBlkOf k).elim .unmapped (fun b => .reg ⟨b, d, 0, x⟩) := by
  rw [rgnOf_eq_regLoc (by omega), regLoc_dieBlock hd hk4 hk hx, Option.elim_map]; rfl

/-- Each megabyte of the module registers, as a region of the map (R24). -/
theorem rgnOf_moduleBlock {k x : Nat} (hk : k < 6) (hx : x < 0x100000) :
    rgnOf (0x7F0000000000 + 0x100000 * k + x) = (modBlkOf k).elim .unmapped (fun b => .reg ⟨b, 0, 0, x⟩) := by
  rw [rgnOf_eq_regLoc (by omega), regLoc_moduleBlock hk hx, Option.elim_map]; rfl

/-- What lies between the last tile and the first die block (R22). -/
theorem rgnOf_dieGap {d x : Nat} (hd : d < 2) (hlo : 0x400000 ≤ x) (hhi : x < 0x1000000) :
    rgnOf (0x700000000000 + 0x100000000 * d + x) = .unmapped := by
  have hblk := rgnOf_dieBlock (d := d) (k := x / 0x100000) (x := x % 0x100000) hd (by omega) (by omega) (by omega)
  rwa [Nat.div_add_mod, dieBlkOf_eq_none (by omega)] at hblk

/-- Settles O38: the rows of the three tables are the block numbers' meanings, read through the block lemmas. -/
theorem registerBlocksDecode : Obligations.RegisterBlocksDecode := by
  unfold Obligations.RegisterBlocksDecode
  refine ⟨fun d hd t ht x hx => ⟨fun p hp => ?tile, fun k hlo hhi => ?tileGap⟩,
    fun d hd x hlo hhi => rgnOf_dieGap hd hlo hhi, fun d hd x hx p hp => ?die, fun x hx p hp => ?module⟩
  case tile =>
    obtain ⟨hk, hb⟩ : p.1 < 16 ∧ tileBlkOf p.1 = some p.2 := by revert p; decide
    rw [rgnOf_tileBlock hd ht hk hx, hb, Option.elim_some]
  case tileGap => rw [rgnOf_tileBlock hd ht hhi hx, tileBlkOf_eq_none hlo, Option.elim_none]
  case die =>
    obtain ⟨hk, hb⟩ : p.1 < 11 ∧ dieBlkOf (0x10 + p.1) = some p.2 := by revert p; decide
    have hadr : 0x700000000000 + 0x100000000 * d + 0x1000000 + 0x100000 * p.1 + x =
        0x700000000000 + 0x100000000 * d + (0x100000 * (0x10 + p.1) + x) := by omega
    rw [hadr, rgnOf_dieBlock hd (by omega) (by omega) hx, hb, Option.elim_some]
  case module =>
    obtain ⟨hk, hb⟩ : p.1 < 6 ∧ modBlkOf p.1 = some p.2 := by revert p; decide
    rw [rgnOf_moduleBlock hk hx, hb, Option.elim_some]

end Sys2Proof.Machine
end

section
/-! The floating formats' special encodings (R37). A format with an infinity keeps the exponent field of ones for them;
F8E4, which has none, gives up one mantissa of that field to NaN. -/

namespace Sys2Proof.Machine

/-- Scaling by a power of two keeps a finite value finite and any other value as it is. -/
@[simp] theorem XV.isFinite_scale (x : XV) (k : Int) : (x.scale k).isFinite = x.isFinite := by
  cases x with
  | nan => rfl
  | inf s => rfl
  | fin s n d => by_cases hk : 0 ≤ k <;> simp [XV.scale, XV.isFinite, hk]

/-- The special encodings of a format with an infinity (R37). -/
theorem FFmt.dec_special {f : FFmt} {b : Nat} (hf : f.hasInf = true) (he : b / 2 ^ f.M % 2 ^ f.X = 2 ^ f.X - 1) :
    f.dec b = if b % 2 ^ f.M = 0 then .inf (b.testBit f.sbit) else .nan :=
  if_pos ⟨he, hf⟩

/-- In a format without an infinity the one special encoding, of either sign, is NaN (R37). -/
theorem FFmt.dec_special_of_no_inf {f : FFmt} {b : Nat} (hf : f.hasInf = false)
    (he : b / 2 ^ f.M % 2 ^ f.X = 2 ^ f.X - 1) (hm : b % 2 ^ f.M = 2 ^ f.M - 1) : f.dec b = .nan := by
  rw [FFmt.dec, if_neg (by simp [hf]), if_pos ⟨he, hm⟩]

/-- Every other encoding of a format without an infinity is a finite value, the exponent field of ones included (R37). -/
theorem FFmt.isFinite_dec_of_no_inf {f : FFmt} {b : Nat} (hf : f.hasInf = false)
    (hb : ¬ (b / 2 ^ f.M % 2 ^ f.X = 2 ^ f.X - 1 ∧ b % 2 ^ f.M = 2 ^ f.M - 1)) : (f.dec b).isFinite = true := by
  rw [FFmt.dec, if_neg (by simp [hf]), if_neg hb]
  by_cases he : b / 2 ^ f.M % 2 ^ f.X = 0
  · rw [if_pos he, XV.isFinite_scale]; rfl
  · rw [if_neg he, XV.isFinite_scale]; rfl

/-- Which encodings are NaN in a format without an infinity. -/
theorem FFmt.dec_eq_nan_iff_of_no_inf {f : FFmt} {b : Nat} (hf : f.hasInf = false) :
    f.dec b = .nan ↔ b / 2 ^ f.M % 2 ^ f.X = 2 ^ f.X - 1 ∧ b % 2 ^ f.M = 2 ^ f.M - 1 := by
  refine ⟨fun hnan => ?_, fun ⟨he, hm⟩ => dec_special_of_no_inf hf he hm⟩
  by_contra hb
  simpa [hnan, XV.isFinite] using isFinite_dec_of_no_inf hf hb

/-- No encoding of such a format is an infinity. -/
theorem FFmt.dec_ne_inf_of_no_inf {f : FFmt} (hf : f.hasInf = false) (b : Nat) (s : Bool) : f.dec b ≠ .inf s := by
  intro hinf
  by_cases hb : b / 2 ^ f.M % 2 ^ f.X = 2 ^ f.X - 1 ∧ b % 2 ^ f.M = 2 ^ f.M - 1
  · simp [dec_special_of_no_inf hf hb.left hb.right] at hinf
  · simpa [hinf, XV.isFinite] using isFinite_dec_of_no_inf hf hb

/-- The NaN encodings of F8E4: both signs of the exponent and mantissa of ones. -/
theorem f8e4_dec_eq_nan_iff {b : Nat} (hb : b < 256) : f8e4.dec b = .nan ↔ b = 0x7F ∨ b = 0xFF := by
  rw [FFmt.dec_eq_nan_iff_of_no_inf rfl]
  change b / 8 % 16 = 15 ∧ b % 8 = 7 ↔ b = 0x7F ∨ b = 0xFF
  omega

/-- The four formats whose row has an infinity. -/
theorem hasInf_of_mem : ∀ f ∈ [f8e5, bf16, f16, f32], f.hasInf = true := by decide

/-- Settles O39: the rows' numbers are the closed values of `dec` and `maxFin`; the special encodings follow from the
lemmas on formats with and without an infinity. -/
theorem floatingFormatTable : Obligations.FloatingFormatTable := by
  unfold Obligations.FloatingFormatTable
  refine ⟨?fields, ?largest, ?f8e4, ?f8e5, ?bf16, ?f16, ?f32, fun b hb => f8e4_dec_eq_nan_iff hb,
    fun b _ s => FFmt.dec_ne_inf_of_no_inf rfl b s, fun f hf b _ he => FFmt.dec_special (hasInf_of_mem f hf) he⟩
  case fields | largest | f8e4 | f8e5 | bf16 | f16 | f32 => decide

end Sys2Proof.Machine
end

section
/-! The integer readings (R30): an unsigned one is the code, a signed one the two's complement of `qBits` bits. -/

namespace Sys2Proof.Machine

/-- An unsigned reading takes the low `qBits` bits, in every format but the ternary one (R30). -/
theorem reading_unsigned_mod {f : Nat} (hf : f ≠ 2) (c : Nat) : reading f false c = (c % 2 ^ qBits f : Nat) := by
  unfold reading
  split
  case h_2 => contradiction
  case h_1 | h_3 | h_4 => rfl

/-- An unsigned reading is the code itself, in every format but the ternary one (R30). -/
theorem reading_unsigned {f c : Nat} (hf : f ≠ 2) (hc : c < 2 ^ qBits f) : reading f false c = c := by
  rw [reading_unsigned_mod hf, Nat.mod_eq_of_lt hc]

/-- The two's complement reading of a number of `w` bits. -/
theorem sgn_of_lt {w n : Nat} (hn : n < 2 ^ w) :
    sgn w n = if n < 2 ^ (w - 1) then (n : Int) else (n : Int) - (2 ^ w : Nat) := by
  rw [sgn, Nat.mod_eq_of_lt hn]

/-- A signed reading is the code's two's complement, in the formats of 2 bits and more that have a signed one (R30). -/
theorem reading_signed {f c : Nat} (hf : f ∉ [0, 2, 6]) (hc : c < 2 ^ qBits f) :
    reading f true c = if c < 2 ^ (qBits f - 1) then (c : Int) else (c : Int) - (2 ^ qBits f : Nat) := by
  rw [← sgn_of_lt hc]
  unfold reading
  split
  case h_1 | h_2 | h_3 => simp at hf
  case h_4 => rfl

/-- A signed W1 value is −1 or +1 (R30). -/
theorem reading_w1_signed {c : Nat} (hc : c < 2) : reading 0 true c = 2 * (c : Int) - 1 := by
  change 2 * ((c % 2 : Nat) : Int) - 1 = 2 * (c : Int) - 1
  rw [Nat.mod_eq_of_lt hc]

/-- Settles O43: both readings of each format by the two lemmas; the ternary codes and the counts are closed values. -/
theorem integerReadings : Obligations.IntegerReadings := by
  unfold Obligations.IntegerReadings
  refine ⟨fun c hc => ⟨reading_unsigned (by decide) hc, reading_w1_signed hc⟩,
    fun c hc => ⟨reading_unsigned (by decide) hc, reading_signed (by decide) hc⟩, ?ternary,
    fun c hc => ⟨reading_unsigned (by decide) hc, reading_signed (by decide) hc⟩,
    fun c hc => ⟨reading_unsigned (by decide) hc, reading_signed (by decide) hc⟩,
    fun c hc => ⟨reading_unsigned (by decide) hc, reading_signed (by decide) hc⟩,
    fun c hc => reading_unsigned (by decide) hc, ?perQuire, ?perSubBlock⟩
  case ternary | perQuire | perSubBlock => decide

end Sys2Proof.Machine
end

section
/-! The tallies' range (R378): what an add leaves, by where the sum falls. The record of EV_TLY_RANGE enters the die's
log, whose registers lie outside the tally file's block, so the clamped value stands. -/

namespace Sys2Proof.Machine

/-- A sum below the range takes its lower end (R378). -/
theorem clampAdd_of_neg {v : Nat} {amount : Int} (h : (v : Int) + amount < 0) : clampAdd v amount = (0, true) :=
  if_pos h

/-- A sum above the range takes its upper end (R378). -/
theorem clampAdd_of_gt {v : Nat} {amount : Int} (h : 0xFFFFFFFF < (v : Int) + amount) :
    clampAdd v amount = (0xFFFFFFFF, true) := by
  rw [clampAdd, if_neg (by omega), if_pos h]

/-- A sum inside the range is the value (R378). -/
theorem clampAdd_of_mem {v : Nat} {amount : Int} (h0 : 0 ≤ (v : Int) + amount)
    (h1 : (v : Int) + amount ≤ 0xFFFFFFFF) : clampAdd v amount = (((v : Int) + amount).toNat, false) := by
  rw [clampAdd, if_neg (by omega), if_neg (by omega)]

/-- No register of the tally file's block is one of the die's log. -/
theorem not_logReg_of_tlyBlock {d a : Nat} (hlo : dieBlk d 0x1000000 ≤ a) (hhi : a < dieBlk d 0x1100000) :
    ¬ logReg d a := by
  unfold logReg Reg.dobEvents Reg.dobLogStat Reg.dobLogLast Reg.dobCnt32 Reg.dcpReq
  unfold dieBlk at *
  omega

/-- A tally's state lies below TLY_EVENTS. -/
theorem tlyState_lt_tlyEvents {n : Nat} (d : Nat) (hn : n < 16384) : Reg.tlyState d n < Reg.tlyEvents d := by
  unfold Reg.tlyState Reg.tlyEvents dieBlk
  omega

/-- TLY_EVENTS lies in the tally file's block, so the die's log leaves it as it is. -/
theorem not_logReg_tlyEvents (d : Nat) : ¬ logReg d (Reg.tlyEvents d) :=
  not_logReg_of_tlyBlock (by unfold Reg.tlyEvents dieBlk; omega) (by unfold Reg.tlyEvents dieBlk; omega)

/-- A tally's state lies in the tally file's block, so the die's log leaves it as it is. -/
theorem not_logReg_tlyState {n : Nat} (d : Nat) (hn : n < 16384) : ¬ logReg d (Reg.tlyState d n) :=
  not_logReg_of_tlyBlock (by unfold Reg.tlyState dieBlk; omega) (by unfold Reg.tlyState dieBlk; omega)

/-- A value of 32 bits written to a tally is its value. -/
theorem tVal_p {v : Nat} (s : State) (d n : Nat) (hv : v < 2 ^ 32) :
    tVal (s.p (Reg.tlyState d n) Reg.tlyState_value v) d n = v :=
  (State.g_p s _ Reg.tlyState_value v (by decide)).trans (Nat.mod_eq_of_lt hv)

/-- Raising EV_TLY_RANGE changes no tally's value. -/
theorem tVal_raise_range {n : Nat} (s : State) (d : Nat) (hn : n < 16384) :
    tVal (s.raise ⟨0x10, 0, 0⟩ (.die d)) d n = tVal s d n := by
  have hlogged : Logged s (s.raise ⟨0x10, 0, 0⟩ (.die d)) d [Reg.tlyEvents d] :=
    State.raise_logged s ⟨0x10, 0, 0⟩ (.die d) {} (by simp) (by
      rintro a ⟨⟩
      unfold Reg.tlyEvents Reg.dobLogCtl EvAt.dieNo dieBlk
      omega)
  unfold tVal State.g
  rw [hlogged.rd _ (by simpa using (tlyState_lt_tlyEvents d hn).ne) (not_logReg_tlyState d hn)]

/-- EV_TLY_RANGE stands in TLY_EVENTS once raised. -/
theorem tlyEvents_raise_range (s : State) (d : Nat) :
    ((s.raise ⟨0x10, 0, 0⟩ (.die d)).rd (Reg.tlyEvents d)).getLsbD 0 = true :=
  State.raise_bit s ⟨0x10, 0, 0⟩ (.die d) {} (Reg.tlyEvents d) (by simp) rfl (by decide) (.inr (not_logReg_tlyEvents d))

/-- An add whose sum is in the range writes the value and nothing else. -/
theorem State.tallyDoAdd_of_not_clamped {s : State} {d n v : Nat} {amount : Int}
    (h : clampAdd (tVal s d n) amount = (v, false)) :
    s.tallyDoAdd d n amount = s.p (Reg.tlyState d n) Reg.tlyState_value v := by
  rw [tallyDoAdd, h]; rfl

/-- A clamped add writes the end of the range and raises EV_TLY_RANGE. -/
theorem State.tallyDoAdd_of_clamped {s : State} {d n v : Nat} {amount : Int}
    (h : clampAdd (tVal s d n) amount = (v, true)) :
    s.tallyDoAdd d n amount = (s.p (Reg.tlyState d n) Reg.tlyState_value v).raise ⟨0x10, 0, 0⟩ (.die d) := by
  rw [tallyDoAdd, h]; rfl

/-- After a clamped add the tally holds the end of the range, and EV_TLY_RANGE stands. -/
theorem tVal_tlyEvents_tallyDoAdd_of_clamped {s : State} {d n v : Nat} {amount : Int} (hn : n < 16384) (hv : v < 2 ^ 32)
    (h : clampAdd (tVal s d n) amount = (v, true)) :
    tVal (s.tallyDoAdd d n amount) d n = v ∧ ((s.tallyDoAdd d n amount).rd (Reg.tlyEvents d)).getLsbD 0 = true := by
  rw [State.tallyDoAdd_of_clamped h]
  exact ⟨(tVal_raise_range _ d hn).trans (tVal_p s d n hv), tlyEvents_raise_range _ d⟩

/-- Settles O48: `clampAdd` by where the sum falls; at either end the event's record leaves the clamped value, and inside
the range the value written is the sum, since it fits the field. -/
theorem tallyAddsStayInRange : Obligations.TallyAddsStayInRange := by
  unfold Obligations.TallyAddsStayInRange
  rintro s t d n amount x - hn rfl rfl
  refine ⟨fun hneg => ?below, fun hgt => ?above, fun h0 h1 => ?inside⟩
  case below => exact tVal_tlyEvents_tallyDoAdd_of_clamped hn (by decide) (clampAdd_of_neg hneg)
  case above => exact tVal_tlyEvents_tallyDoAdd_of_clamped hn (by decide) (clampAdd_of_gt hgt)
  case inside =>
    have hadd := State.tallyDoAdd_of_not_clamped (clampAdd_of_mem h0 h1)
    refine ⟨?_, hadd⟩
    rw [hadd, tVal_p s d n (by omega), Int.toNat_of_nonneg h0]

end Sys2Proof.Machine
end

section
/-! The handover write that finds one pending (R421): EV_MEM_HAND_BUSY and an access error stand in place of the
write. -/

namespace Sys2Proof.Machine

/-- A handover write of either mode is refused while the bank's pending bit stands (R421). -/
theorem State.handWrite_of_pending {s : State} {d t b : Nat}
    (h : s.on (Reg.memBankHand d t b) Reg.memBankHand_pending = true) (mode : Nat) (v : Word) :
    s.handWrite d t b mode v = s.handBusy d t :=
  if_pos h

/-- The register write of a handover, accepted while one is pending, comes to the refusal (R421). -/
theorem regWr_handWrite_of_pending {s u : State} {r : Requester} {d t b : Nat}
    (hacc : Accepted s r (Reg.memBankHand d t b) u)
    (hpend : u.on (Reg.memBankHand d t b) Reg.memBankHand_pending = true) (mode : Nat) (v : Word) :
    s.regWr r (Reg.memBankHand d t b) (fun w => w.handWrite d t b mode v) = u.handBusy d t :=
  calc s.regWr r (Reg.memBankHand d t b) (fun w => w.handWrite d t b mode v)
      = u.handWrite d t b mode v := regWr_of_accepted hacc _
    _ = u.handBusy d t := State.handWrite_of_pending hpend mode v

/-- Settles O49: either command is a register write of `handWrite`, in its own mode, and so comes to the refusal.
`witness_handover_pending` and `witness_banks` give a state that meets the hypotheses. -/
theorem pendingHandoversRefuseAnother : Obligations.PendingHandoversRefuseAnother := by
  unfold Obligations.PendingHandoversRefuseAnother
  intro s u r d t b v hacc hpend
  exact ⟨congrArg Host.Outcome.next (regWr_handWrite_of_pending hacc hpend 1 v),
    congrArg Host.Outcome.next (regWr_handWrite_of_pending hacc hpend 2 v)⟩

end Sys2Proof.Machine
end

section
/-! A write of TIME_STEP (R965): before the first synchronisation it sets the time base; afterwards EV_TIME_STEP_REFUSED
and an access error stand in place of the write. The record of the event enters die A's log, whose registers lie below
the module's. -/

namespace Sys2Proof.Machine

/-- An access error is an answer and no write. -/
theorem State.rd_fail (s : State) (e : AccErr) (a : Nat) : (s.fail e).rd a = s.rd a := rfl

/-- No register of the module is one of die A's log. -/
theorem not_logReg_of_module {a : Nat} (ha : modBlk 0 ≤ a) : ¬ logReg 0 a := by
  unfold logReg Reg.dobEvents Reg.dobLogStat Reg.dobLogLast Reg.dobCnt32 Reg.dcpReq
  unfold dieBlk modBlk at *
  omega

/-- Raising an event of the TIME block changes no register of the module but TIME_EVENTS. -/
theorem State.rd_timeRaise_of_module {a : Nat} (s : State) (bit : Nat) (ha : modBlk 0 ≤ a) (hne : a ≠ Reg.timeEvents) :
    (s.timeRaise bit).rd a = s.rd a := by
  have hlogged : Logged s (s.timeRaise bit) 0 [Reg.timeEvents] :=
    State.raise_logged s ⟨0x25, 0, bit⟩ .module {} (by simp) (by rintro b ⟨⟩; decide)
  exact hlogged.rd a (by simpa using hne) (not_logReg_of_module ha)

/-- An event of the TIME block stands in TIME_EVENTS once raised. -/
theorem State.timeEvents_timeRaise (s : State) {bit : Nat} (hbit : bit < 64) :
    ((s.timeRaise bit).rd Reg.timeEvents).getLsbD bit = true :=
  State.raise_bit s ⟨0x25, 0, bit⟩ .module {} Reg.timeEvents (by simp) rfl hbit
    (.inr (not_logReg_of_module (by decide)))

/-- What a write of TIME_STEP before the first synchronisation leaves in each register: the written time, no fraction,
and nothing else (R965). -/
theorem State.rd_timeStepWrite_of_not_synced {s : State} (h : s.on Reg.timeStatus Reg.timeStatus_sync_ever = false)
    (v : Word) (a : Nat) :
    (s.timeStepWrite v).rd a = if a = Reg.timeFrac then 0 else if a = Reg.timeNow then v else s.rd a := by
  have hset : s.timeStepWrite v = ((s.wr Reg.timeNow v).wr Reg.timeFrac 0).setTime { s.m.time with rem := 0 } :=
    if_neg (by simp [h])
  calc (s.timeStepWrite v).rd a
      = ((s.wr Reg.timeNow v).wr Reg.timeFrac 0).rd a := by rw [hset]; rfl
    _ = if a = Reg.timeFrac then 0 else if a = Reg.timeNow then v else s.rd a := by rw [State.rd_wr, State.rd_wr]

/-- A write of TIME_STEP after the first synchronisation comes to the event and the access error (R965). -/
theorem State.timeStepWrite_of_synced {s : State} (h : s.on Reg.timeStatus Reg.timeStatus_sync_ever = true) (v : Word) :
    s.timeStepWrite v = (s.timeRaise 2).fail .busy :=
  if_pos h

/-- After the first synchronisation each register reads as the event leaves it. -/
theorem State.rd_timeStepWrite_of_synced {s : State} (h : s.on Reg.timeStatus Reg.timeStatus_sync_ever = true)
    (v : Word) (a : Nat) : (s.timeStepWrite v).rd a = (s.timeRaise 2).rd a := by
  rw [State.timeStepWrite_of_synced h, State.rd_fail]

/-- TIME_STEP, once accepted, is the write of TIME_STEP alone. -/
theorem exec_timeStep_of_accepted {s u : State} {r : Requester} (hacc : Accepted s r Reg.timeStep u) (v : Word) :
    exec (.timeStep r v) s = .next (u.timeStepWrite v) :=
  congrArg Host.Outcome.next (regWr_of_accepted hacc _)

/-- Settles O50: the accepted command is `timeStepWrite`, split on sync_ever. Before, each register reads as the write
left it; after, the event's record leaves TIME_NOW and TIME_FRAC. `witness_time` and `witness_time_step_refused` give
states that meet the hypotheses. -/
theorem timeStepsOnlyBeforeSync : Obligations.TimeStepsOnlyBeforeSync := by
  unfold Obligations.TimeStepsOnlyBeforeSync
  intro s u r v hacc
  refine ⟨fun hsync => ⟨_, exec_timeStep_of_accepted hacc v, ?before⟩,
    fun hsync => ⟨_, exec_timeStep_of_accepted hacc v, ?after⟩⟩
  case before =>
    have hrd := State.rd_timeStepWrite_of_not_synced hsync v
    refine ⟨?now, ?frac, fun a hnow hfrac => ?other⟩
    case now => rw [hrd, if_neg (by decide), if_pos rfl]
    case frac => rw [hrd, if_pos rfl]
    case other => rw [hrd, if_neg hfrac, if_neg hnow]
  case after =>
    have hrd := State.rd_timeStepWrite_of_synced hsync v
    refine ⟨?now, ?frac, ?reply, ?event⟩
    case now => rw [hrd, State.rd_timeRaise_of_module u 2 (by decide) (by decide)]
    case frac => rw [hrd, State.rd_timeRaise_of_module u 2 (by decide) (by decide)]
    case reply => rw [State.timeStepWrite_of_synced hsync]; rfl
    case event => rw [hrd, State.timeEvents_timeRaise u (by decide)]

end Sys2Proof.Machine
end

section
/-! A write of 1 to pw_write (R1049): with method 1 and debug access open it fuses the password's hash, as long as none
is fused. -/

namespace Sys2Proof.Machine

/-- A write of pw_write that R1049 allows fuses the hash of the response and the serial, and shows it in SEC_STATUS. -/
theorem State.pwWrite_of_allowed {s : State} (hmethod : s.on Reg.secDbgCtl Reg.secDbgCtl_method = true)
    (hset : s.m.sec.pwSet = false) (hopen : s.jtagOpen = true) :
    s.pwWrite = (s.setSec { s.m.sec with
      pwSet := true, pwHash := shake32 (dbgResp s 32 ++ serialBytes) }).secP Reg.secStatus_pw_set 1 :=
  if_pos (by simp [hmethod, hset, hopen])

/-- Once a hash is fused, a write of pw_write has no effect (R1049). -/
theorem State.pwWrite_of_pwSet {s : State} (hset : s.m.sec.pwSet = true) : s.pwWrite = s :=
  if_neg (by simp [hset])

/-- With debug access closed, a write of pw_write has no effect (R1049). -/
theorem State.pwWrite_of_closed {s : State} (hclosed : s.jtagOpen = false) : s.pwWrite = s :=
  if_neg (by simp [hclosed])

/-- What an allowed write of pw_write leaves of the security state: pw_set, the fused hash, and the rest as it was. -/
theorem State.sec_pwWrite_of_allowed {s : State} (hmethod : s.on Reg.secDbgCtl Reg.secDbgCtl_method = true)
    (hset : s.m.sec.pwSet = false) (hopen : s.jtagOpen = true) :
    s.pwWrite.m.sec = { s.m.sec with pwSet := true, pwHash := shake32 (dbgResp s 32 ++ serialBytes) } := by
  rw [State.pwWrite_of_allowed hmethod hset hopen]; rfl

/-- The bit pw_set of SEC_STATUS stands once it is written with 1. -/
theorem State.on_secP_pw_set (s : State) :
    (s.secP Reg.secStatus_pw_set 1).on Reg.secStatus Reg.secStatus_pw_set = true := by
  have hfield : (s.secP Reg.secStatus_pw_set 1).g Reg.secStatus Reg.secStatus_pw_set = 1 :=
    State.g_p s Reg.secStatus Reg.secStatus_pw_set 1 (by decide)
  exact beq_iff_eq.mpr hfield

/-- DBG_PW_WRITE, once accepted, is the write of pw_write alone. -/
theorem exec_dbgPwWrite_of_accepted {s u : State} {r : Requester} (hacc : Accepted s r Reg.secDbgCtl u) :
    exec (.dbgPwWrite r) s = .next u.pwWrite :=
  congrArg Host.Outcome.next (regWr_of_accepted hacc _)

/-- Settles O51: the accepted command is `pwWrite`, by whether R1049 allows it. Where it does, the security state is the
one just fused and pw_set reads 1; where a hash is fused already or debug access is closed, the state is the one
accepted. `witness_debug` gives a state for each hypothesis; its second one meets those of the fusing case together. -/
theorem debugPasswordIsFusedOnce : Obligations.DebugPasswordIsFusedOnce := by
  unfold Obligations.DebugPasswordIsFusedOnce
  intro s u r hacc
  have hexec := exec_dbgPwWrite_of_accepted hacc
  refine ⟨fun hmethod hset hopen => ?fused, fun hset => ?already, fun hclosed => ?closed⟩
  case fused =>
    have hsec := State.sec_pwWrite_of_allowed hmethod hset hopen
    refine ⟨u.pwWrite, hexec, ?set, ?hash, ?shown⟩
    case set => rw [hsec]
    case hash => rw [hsec]
    case shown => rw [State.pwWrite_of_allowed hmethod hset hopen, State.on_secP_pw_set]
  case already => rw [hexec, State.pwWrite_of_pwSet hset]
  case closed => rw [hexec, State.pwWrite_of_closed hclosed]

end Sys2Proof.Machine
end

section
/-! The step and its invariants: every command answers a next state, and one predicate closed under the primitive
updates (`Laws/Closed`) at a time says what that state keeps. -/

namespace Sys2Proof.Machine

/-- Every command answers a next state that keeps a predicate closed under the primitive updates. -/
theorem exists_exec_next {K : State → Prop} (hK : Closed K) (c : Instr) {s : State} (hs : K s) :
    ∃ t, exec c s = .next t ∧ K t :=
  exec_ok hK c s hs

/-- A predicate closed under the primitive updates stands after every command. -/
theorem exec_keeps {K : State → Prop} (hK : Closed K) {c : Instr} {s t : State} (hs : K s) (h : exec c s = .next t) :
    K t := by
  obtain ⟨u, hu, hKu⟩ := exists_exec_next hK c hs
  obtain rfl : u = t := by simpa [hu] using h
  exact hKu

/-- Settles O3: a predicate that every state meets is closed under the primitive updates. -/
theorem everyCommandAnswersANextState : Obligations.EveryCommandAnswersANextState := by
  unfold Obligations.EveryCommandAnswersANextState
  intro c s
  obtain ⟨t, ht, -⟩ := exists_exec_next (closed_const fun _ => True) c (s := s) trivial
  exact ⟨t, ht⟩

/-- Settles O1: the step takes the front command. -/
theorem stepRunsTheFrontCommand : Obligations.StepRunsTheFrontCommand := by
  unfold Obligations.StepRunsTheFrontCommand
  intro c rest s hq
  rw [step, hq]

/-- Settles O2: the step on an empty queue is the tick. -/
theorem emptyQueueStepIsATick : Obligations.EmptyQueueStepIsATick := by
  unfold Obligations.EmptyQueueStepIsATick
  intro s hq
  rw [step, hq]

/-- A command run on the queue's rest, from a state that is else as before, is a sound step. -/
theorem Sound.of_exec {c : Instr} {rest : List Instr} {s t : State} (hq : s.pending = c :: rest)
    (h : exec c { s with pending := rest } = .next t) : Sound s t := by
  have hcanon (hs : State.Canon { s with pending := rest }) : State.Canon t := exec_keeps closed_canon hs h
  have hqueue : t.pending = rest := exec_keeps (closed_const fun q => q = rest) rfl h
  have hsent : s.out <+: t.out ∧ s.free ≤ t.free :=
    exec_keeps (closed_sent s.out s.free) (s := { s with pending := rest }) ⟨List.prefix_refl _, le_rfl⟩ h
  exact ⟨hcanon, by rw [hqueue, hq, List.tail_cons], hsent.left, hsent.right⟩

/-- A tick leaves the empty queue empty, and is a sound step. -/
theorem Sound.of_tick {s : State} (hq : s.pending = []) : Sound s s.tick := by
  have hcanon (hs : State.Canon s) : State.Canon s.tick := State.tick_ok closed_canon s hs
  have hqueue : s.tick.pending = [] := State.tick_ok (closed_const fun q => q = []) s hq
  have hsent : s.out <+: s.tick.out ∧ s.free ≤ s.tick.free :=
    State.tick_ok (closed_sent s.out s.free) s ⟨List.prefix_refl _, le_rfl⟩
  exact ⟨hcanon, by rw [hqueue, hq, List.tail_nil], hsent.left, hsent.right⟩

/-- Settles O4: by the queue, a step is a tick or the front command, and each of the two is sound. -/
theorem everyStepKeepsTheMachineSound : Obligations.EveryStepKeepsTheMachineSound := by
  unfold Obligations.EveryStepKeepsTheMachineSound
  intro s
  cases hq : s.pending with
  | nil => exact ⟨s.tick, emptyQueueStepIsATick s hq, Sound.of_tick hq⟩
  | cons c rest =>
    obtain ⟨t, ht⟩ := everyCommandAnswersANextState c { s with pending := rest }
    exact ⟨t, (stepRunsTheFrontCommand c rest s hq).trans ht, Sound.of_exec hq ht⟩

/-- Settles O6: the canonical form is closed under the primitive updates, and memory's is a part of it. -/
theorem everyCommandKeepsMemoryCanonical : Obligations.EveryCommandKeepsMemoryCanonical := by
  unfold Obligations.EveryCommandKeepsMemoryCanonical
  intro c s t hs h
  have hcanon : t.canon = true := exec_keeps (K := State.Canon) closed_canon hs h
  obtain ⟨hmem, -⟩ := (State.canon_iff t).mp hcanon
  exact ⟨hmem, hcanon⟩

/-- Settles O5: the reset state lists nothing, and an empty map is in canonical form. -/
theorem resetIsCanonical : Obligations.ResetIsCanonical := by
  unfold Obligations.ResetIsCanonical
  exact ⟨rfl, rfl, rfl, rfl⟩

end Sys2Proof.Machine
end

section
/-! Accesses of registers and memory, fills, wakes, XOR writes, patrol reads and the end of initialisation: each
command's meaning where the checks it makes have passed. -/

namespace Sys2Proof.Machine

/-- A command that is one register write comes to the write's effect, once the write is accepted. -/
theorem next_regWr_of_accepted {s u : State} {r : Requester} {a : Nat} (hacc : Accepted s r a u) (f : State → State) :
    (.next (s.regWr r a f) : Host.Outcome State Fault Refusal) = .next (f u) :=
  congrArg Host.Outcome.next (regWr_of_accepted hacc f)

/-- A register access of 8 aligned bytes is the write or the read; of another width or alignment, an error (R5). -/
theorem State.regAccess_of_checked {s : State} {r : Requester} {write : Bool} {a : Nat} (l : RegLoc) (n : Nat) (v : Word)
    (hcheck : checkAccess s r write a = none) :
    s.regAccess r l a n write v =
      if a % 8 = 0 ∧ n = 8 then if write then s.regWrite r l a v else (s.touch a).regRead a
      else (s.refuse r a write .regAccess).answer (.error .regAccess) := by
  have hiff : (a % 8 ≠ 0 ∨ n ≠ 8) ↔ ¬ (a % 8 = 0 ∧ n = 8) := by tauto
  simp only [State.regAccess, hcheck, hiff, ite_not]

/-- An access whose address is no register is one of memory. -/
theorem State.access_of_not_reg {s : State} {r : Requester} {q : Access} (hreg : ∀ l, rgnOf q.addr.toNat ≠ .reg l) :
    s.access r q = s.memAccess r q := by
  unfold State.access
  split
  · exact absurd ‹_› (hreg _)
  · rfl

/-- An access that no check refuses, on memory without an upset, and that need not wait is served. -/
theorem State.memAccess_of_ready {s : State} {r : Requester} {q : Access} (hupset : q.upset = [])
    (hcheck : firstErr s r q.write q.addr.toNat q.bytes ((q.bytes + 63 + q.addr.toNat % 64) / 64) = none)
    (hwait : mustWait s q = none) : s.memAccess r q = s.serve r q := by
  simp only [State.memAccess, hcheck, hupset, State.upsets, hwait]

/-- Memory made zero leaves each die's state as it was. -/
@[simp] theorem State.die_zeroExt (s : State) (d e : Nat) : (s.zeroExt d).die e = s.die e := rfl

/-- Settles O7: each clause is the command's arm with its conditions decided by the hypotheses; the lone access goes
through `memAccess_of_ready`. -/
theorem accessCommandsComplete : Obligations.AccessCommandsComplete := by
  unfold Obligations.AccessCommandsComplete
  refine ⟨?regWrite, ?access, ?fill, ?wake, ?xor, ?patrol, ?init⟩
  case regWrite =>
    intro r a n v l s hreg hcheck
    have harm : exec (.registerWrite r a n v) s = .next (s.regAccess r l a.toNat n true v) := by
      change execRegisterWrite r a n v s = _
      simp only [execRegisterWrite, hreg]
    rw [harm, State.regAccess_of_checked l n v hcheck, apply_ite Host.Outcome.next]
    rfl
  case access =>
    intro r q s hreg hupset hcheck hwait
    have harm : exec (.memoryAccess r q none) s = .next (s.access r q) := rfl
    rw [harm, State.access_of_not_reg hreg, State.memAccess_of_ready hupset hcheck hwait]
  case fill =>
    intro d a off s hreg hcarve hcache hwaiting
    change execRcFill d a .demand s = _
    simp [execRcFill, hreg, hcarve, hcache, hwaiting]
  case wake =>
    intro d t b s hwaking
    exact if_pos hwaking
  case xor =>
    intro r a bs s halign hlen
    change execXorLineWrite r a bs s = _
    rw [execXorLineWrite, if_neg (by simp [halign, hlen])]
    rcases s.xorLine r a.toNat bs with ⟨_ | e, u⟩ <;> rfl
  case patrol =>
    intro d c us w s hen hon hinit
    exact if_neg (by simp [hen, hon, hinit])
  case init =>
    intro d s hphase hinit hother
    have hne : 1 - d.val ≠ d.val := by omega
    change execMemInitDone d s = _
    simp [execMemInitDone, hphase, hinit, State.die_setDie, hne, hother]

end Sys2Proof.Machine
end

section
/-! The sequencer and the tally file: where a sequencer starts, halts and fetches, what its own descriptors do as they
issue, and how a die-engine descriptor joins its queue. -/

namespace Sys2Proof.Machine

/-- A running array root needs no wake. -/
theorem State.arrayWake_of_arrRoot {s : State} {d : Nat} (hroot : (s.die d).arrRoot = true) : s.arrayWake d = s :=
  if_pos (by simp [hroot])

/-- A tile that is not gated needs no ungate. -/
theorem State.ungate_of_not_gated {s : State} {d t : Nat} (hgated : (s.tile d t).gated = false) : s.ungate d t = s :=
  if_neg (by simp [hgated])

/-- A tile reads as it was just set. -/
@[simp] theorem State.tile_setTile_same (s : State) (d t : Nat) (x : TileS) : (s.setTile d t x).tile d t = x := by
  rw [State.tile_setTile, if_pos rfl]

/-- A die reads as it was just set. -/
@[simp] theorem State.die_setDie_same (s : State) (d : Nat) (x : DieS) : (s.setDie d x).die d = x := by
  rw [State.die_setDie, if_pos rfl]

/-- Settles O8: the register writes are their effect once accepted; each other clause is the command's arm with its
conditions decided by the hypotheses. -/
theorem sequencerCommandsComplete : Obligations.SequencerCommandsComplete := by
  unfold Obligations.SequencerCommandsComplete
  refine ⟨fun r d t s u hacc => next_regWr_of_accepted hacc _, ?halt, ?fetch, fun d t s => rfl, ?report, ?gate, ?ungate⟩
  case halt =>
    rintro r d t s u hcheck hfurn rfl
    rw [exec]
    unfold execSeqHalt
    rw [hcheck, hfurn]
    rfl
  case fetch =>
    intro d t s hmay
    refine ⟨_, if_pos hmay, ?_⟩
    rw [State.tile_setTile_same]
    rfl
  case report =>
    intro d t s hjudged hclk hroot hgated
    change execWaitMetReport d t s = _
    simp [execWaitMetReport, hjudged, State.arrayWake_of_arrRoot hroot, hclk, State.ungate_of_not_gated hgated]
  case gate =>
    intro d t s hactive hwait hops
    exact if_pos (by simp [hactive, hwait, hops])
  case ungate =>
    intro d t s hgated hjudged hclk
    exact if_pos (by simp [hgated, hjudged, hclk])

/-- An own descriptor that passes the stages of issue has its effect, its completion add and its next address. -/
theorem next_issueOwn_of_issues {s : State} {d t op : Nat} {x : Desc} (h : HeadIssues s d t op x)
    (hop : engineOp op = false) (act : Desc → State → State) (pc : State → Desc → Nat) :
    (.next (s.issueOwn d t op act pc) : Host.Outcome State Fault Refusal) =
      .next (((act x (s.issueMark d t x)).doneAdd d t x).popTo d t (pc s x)) :=
  congrArg Host.Outcome.next (issue_of_issues h _ hop)

/-- Settles O11: each command is the issue of its opcode; LOOP's counter is the one that `issueMark` left, and PASS
without the adding form takes the operand as it stands. -/
theorem sequencerDescriptorsTakeEffect : Obligations.SequencerDescriptorsTakeEffect := by
  unfold Obligations.SequencerDescriptorsTakeEffect
  intro d t x s
  refine ⟨fun h => next_issueOwn_of_issues h rfl _ _, fun h => next_issueOwn_of_issues h rfl _ _,
    fun h => next_issueOwn_of_issues h rfl _ _, fun h hcount hmark => ?loop, fun h => next_issueOwn_of_issues h rfl _ _,
    fun h hset => ?pass, fun h => congrArg Host.Outcome.next (issue_of_issues h _ rfl)⟩
  case loop =>
    have hctr : loopCtr (s.issueMark d t x) d t (x.b 20) = loopCtr s d t (x.b 20) := by unfold loopCtr; rw [hmark]
    refine (next_issueOwn_of_issues h rfl _ _).trans ?_
    simp only [hctr, hcount, decide_true, if_true]
  case pass =>
    refine (next_issueOwn_of_issues h rfl _ _).trans ?_
    simp only [hset, Bool.false_eq_true, if_false]
    rfl

/-- A queue below its capacity takes the descriptor. -/
theorem State.engPush_fst_of_lt {s : State} {d u : Nat} (q : QDesc) (hroom : ((s.die d).queue u).length < queueCap u) :
    (s.engPush d u q).1 = false := by
  rw [State.engPush, if_neg (by omega)]

/-- A queue at its capacity drops the descriptor. -/
theorem State.engPush_fst_of_le {s : State} {d u : Nat} (q : QDesc) (hfull : queueCap u ≤ ((s.die d).queue u).length) :
    (s.engPush d u q).1 = true := by
  rw [State.engPush, if_pos hfull]

/-- The record with which a die-engine descriptor at the head joins its queue (R359). -/
def headRecord (s : State) (d t : Nat) (x : Desc) : QDesc :=
  ⟨issued x (loopCtr s d t x.idxLoop), (s.g (Reg.seqIssued d t) Reg.seqIssued_issued + 1) % 2 ^ 32, seqPcOf s d t, t⟩

/-- A valid die-engine descriptor at the head issues into a queue with room. -/
theorem State.issueEngine_of_room {s : State} {d t op u : Nat} {x : Desc} {unit : DieS → Desc → Nat}
    (h : HeadValid s d t op x) (hop : engineOp op = true)
    (hu : unit (s.die d) (issued x (loopCtr s d t x.idxLoop)) = u)
    (hroom : ((s.die d).queue u).length < queueCap u) :
    s.issueEngine d t op unit =
      ((s.engPush d u (headRecord s d t x)).2.issueMark d t x).popTo d t (seqPcOf s d t + 64) := by
  have hpush : s.engPush d u (headRecord s d t x) = (false, (s.engPush d u (headRecord s d t x)).2) :=
    Prod.ext (State.engPush_fst_of_lt _ hroom) rfl
  refine (issue_of_valid h _ hop).trans ?_
  simp only [hu]
  change (match s.engPush d u (headRecord s d t x) with | (true, s1) => _ | (false, s1) => _) = _
  rw [hpush]

/-- A valid die-engine descriptor at the head halts the sequencer with cause 5 on a full queue (R361). -/
theorem State.issueEngine_of_full {s : State} {d t op u : Nat} {x : Desc} {unit : DieS → Desc → Nat}
    (h : HeadValid s d t op x) (hop : engineOp op = true)
    (hu : unit (s.die d) (issued x (loopCtr s d t x.idxLoop)) = u)
    (hfull : queueCap u ≤ ((s.die d).queue u).length) :
    s.issueEngine d t op unit =
      ((s.engPush d u (headRecord s d t x)).2.seqHalt d t 5).raise ⟨0x05, 0, 2⟩ (.tile d t) { mark := x.mark } := by
  have hpush : s.engPush d u (headRecord s d t x) = (true, (s.engPush d u (headRecord s d t x)).2) :=
    Prod.ext (State.engPush_fst_of_le _ hfull) rfl
  refine (issue_of_valid h _ hop).trans ?_
  simp only [hu]
  change (match s.engPush d u (headRecord s d t x) with | (true, s1) => _ | (false, s1) => _) = _
  rw [hpush]

/-- The four engine commands are the issue of their opcode into the queue the statement names. -/
theorem exec_engineOp {d : Die} {t : Tile} {x : Desc} {s : State} {c : Instr} {op u : Nat}
    (hc : (c, op, u) ∈ [(Instr.upd d t, 6, 64), (.prt d t, 8, 65), (.clr d t, 9, 66),
      (.dcp d t, 7, 67 + dcpRoute (s.die d) (issued x (loopCtr s d t x.idxLoop)))]) :
    engineOp op = true ∧ ∃ unit : DieS → Desc → Nat,
      unit (s.die d) (issued x (loopCtr s d t x.idxLoop)) = u ∧ exec c s = .next (s.issueEngine d t op unit) := by
  simp only [List.mem_cons, Prod.mk.injEq, List.not_mem_nil, or_false] at hc
  rcases hc with ⟨rfl, rfl, rfl⟩ | ⟨rfl, rfl, rfl⟩ | ⟨rfl, rfl, rfl⟩ | ⟨rfl, rfl, rfl⟩
  case inr.inr.inr => exact ⟨rfl, fun y z => 67 + dcpRoute y z, rfl, rfl⟩
  all_goals exact ⟨rfl, _, rfl, rfl⟩

/-- Settles O10: the head's record joins the queue that has room, and halts the sequencer at a full one. -/
theorem engineDescriptorsJoinTheirQueue : Obligations.EngineDescriptorsJoinTheirQueue := by
  unfold Obligations.EngineDescriptorsJoinTheirQueue
  intro d t x s c op u hc h
  obtain ⟨hop, unit, hu, harm⟩ := exec_engineOp hc
  refine ⟨headRecord s d t x, rfl, rfl, rfl, fun hroom => ?room, fun hfull => ?full⟩
  case room => rw [harm, State.issueEngine_of_room h hop hu hroom]
  case full => rw [harm, State.issueEngine_of_full h hop hu hfull]

/-- Settles O12: the two writes are their effect on the banks' queues once accepted; a bank takes its oldest operation. -/
theorem tallyCommandsComplete : Obligations.TallyCommandsComplete := by
  unfold Obligations.TallyCommandsComplete
  refine ⟨fun r d n v s u hacc => next_regWr_of_accepted hacc _, fun d b o os s hbank => ?bankOp,
    fun r d s u hacc => next_regWr_of_accepted hacc _⟩
  case bankOp =>
    change execTallyBankOp d b s = _
    simp only [execTallyBankOp, hbank]

end Sys2Proof.Machine
end

section
/-! The forward array: what each stage of an operation leaves in the array's record, `TileS.fwd`. -/

namespace Sys2Proof.Machine

/-- The forward state reads as it was just set. -/
@[simp] theorem State.fwd_setFwd (s : State) (d t : Nat) (f : Option FwdS) : ((s.setFwd d t f).tile d t).fwd = f := by
  rw [State.setFwd, State.tile_setTile_same]

/-- The window mode with which an operation takes the array (R89): an adaptive window whose slot holds no value falls
back to mode 1. -/
def firstPlaneMode (s : State) (d t : Nat) (x : Desc) : Nat :=
  if (nfld (x.b 34) 0 2 == 2 && (!s.on (Reg.wghSlot d t (nfld (x.b 41) 0 6)) Reg.wghSlot_valid ||
    !(f32.dec (s.g (Reg.wghSlot d t (nfld (x.b 41) 0 6)) Reg.wghSlot_value)).abs.isFinite)) then 1 else nfld (x.b 34) 0 2

/-- An operation whose window is not adaptive keeps its mode. -/
theorem firstPlaneMode_of_ne {s : State} {d t : Nat} {x : Desc} (hmode : nfld (x.b 34) 0 2 ≠ 2) :
    firstPlaneMode s d t x = nfld (x.b 34) 0 2 :=
  if_neg (by simp [hmode])

/-- An adaptive window over an invalid slot becomes the window of mode 1. -/
theorem firstPlaneMode_of_invalid {s : State} {d t : Nat} {x : Desc} (hmode : nfld (x.b 34) 0 2 = 2)
    (hslot : s.on (Reg.wghSlot d t (nfld (x.b 41) 0 6)) Reg.wghSlot_valid = false) : firstPlaneMode s d t x = 1 :=
  if_pos (by simp [hmode, hslot])

/-- The first plane cycle puts the operation into the array with nothing begun (R83, R87, R90, R91). -/
theorem exec_fwdFirstPlane {s : State} {d : Die} {t : Tile} {o : OpRec} (hop : fwdOp s d t = some o)
    (hclk : s.tileClk d t = true) (hfree : (s.tile d t).fwd = none) :
    ∃ (v : State) (top bot : Int), exec (.fwdFirstPlane d t) s = .next (v.setFwd d t (some
      { issue := o.issue, mode := firstPlaneMode s d t o.desc, top := top, bottom := bot,
        planes := effPlanes (startupOn s d t && nfld (o.desc.b 34) 0 2 != 3) (nfld (o.desc.b 35) 0 4 + 1),
        starts := List.replicate 8 0, oldest := 0, vecs := [], sideVec := 0, sideRound := 0, out := [],
        delivered := 0, drew := [] })) := by
  change ∃ v top bot, execFwdFirstPlane d t s = _
  simp only [execFwdFirstPlane, hop, hfree, hclk, Bool.not_true, Bool.false_eq_true, if_false]
  exact ⟨_, _, _, rfl⟩

/-- A vector just loaded bears its number. -/
theorem State.loadVec_v (s : State) (d : Die) (t : Tile) (o : OpRec) (f : FwdS) (v : Nat) :
    (s.loadVec d t o f v).1.v = v := by
  unfold State.loadVec
  dsimp only
  split
  · rfl
  · split <;> rfl

/-- Loading a vector moves none of the operation's vectors. -/
theorem State.loadVec_vecs (s : State) (d : Die) (t : Tile) (o : OpRec) (f : FwdS) (v : Nat) :
    (s.loadVec d t o f v).2.1.vecs = f.vecs := by
  unfold State.loadVec
  dsimp only
  split
  · rfl
  · split <;> rfl

/-- Once a vector is asked for, it stands in a slot. -/
theorem State.exists_find_getVec (s : State) (d : Die) (t : Tile) (o : OpRec) (f : FwdS) (v : Nat) :
    ∃ y, (s.getVec d t o f v).1.vecs.find? (fun z => z.v == v) = some y := by
  rw [← Option.isSome_iff_exists, List.find?_isSome]
  unfold State.getVec
  by_cases hheld : f.vecs.any (fun y => y.v == v) = true
  · rw [if_pos hheld]
    simpa using hheld
  · rw [if_neg hheld]
    exact ⟨(s.loadVec d t o f v).1, by simp, by simp [State.loadVec_v]⟩

/-- A lane takes its next vector: it joins the vector's lanes, and its own count moves on (R101 to R104). -/
theorem exec_laneVectorStart {s : State} {d : Die} {t : Tile} {lane : Fin 8} {o : OpRec} {f : FwdS} {y : FwdVec}
    (hop : fwdOp s d t = some o) (hclk : s.tileClk d t = true) (hf : (s.tile d t).fwd = some f)
    (hmore : f.starts.getD lane.val 0 < o.desc.le 24 2) (hnear : f.starts.getD lane.val 0 ≤ f.oldest + 3)
    (hfind : (s.getVec d t o f (f.starts.getD lane.val 0)).1.vecs.find? (fun z => z.v == f.starts.getD lane.val 0) =
      some y) :
    ∃ v : State, exec (.laneVectorStart d t lane) s = .next (v.setFwd d t (some
      { (s.getVec d t o f (f.starts.getD lane.val 0)).1.upd (f.starts.getD lane.val 0)
          (fun z => { z with lanes := z.lanes ++ [lane.val] }) with
        starts := (s.getVec d t o f (f.starts.getD lane.val 0)).1.starts.set lane.val
          (f.starts.getD lane.val 0 + 1) })) := by
  have hgo : ¬ ((!s.tileClk d t || decide (o.desc.le 24 2 ≤ f.starts.getD lane.val 0) ||
      decide (f.oldest + 3 < f.starts.getD lane.val 0)) = true) := by
    simp only [hclk, Bool.not_true, Bool.false_or, Bool.or_eq_true, decide_eq_true_eq]
    omega
  change ∃ v, execLaneVectorStart d t lane s = _
  unfold execLaneVectorStart
  rw [hop, hf]
  dsimp only
  rw [if_neg hgo, hfind]
  exact ⟨_, rfl⟩

/-- A side-stall round ends its vector, or leaves one more round made of it (R117 to R126). -/
theorem exec_sideStallRound {s : State} {d : Die} {t : Tile} {o : OpRec} {f : FwdS}
    (hop : fwdOp s d t = some o) (hclk : s.tileClk d t = true) (hf : (s.tile d t).fwd = some f)
    (hside : nbit (o.desc.b 34) 3 = true) (hmore : f.sideVec < o.desc.le 24 2) (hnear : f.sideVec ≤ f.oldest + 3) :
    ∃ (v : State) (g : FwdS), exec (.sideStallRound d t) s = .next (v.setFwd d t (some g)) ∧
      ((g.sideVec = f.sideVec + 1 ∧ g.sideRound = 0) ∨
        (g.sideVec = (s.getVec d t o f f.sideVec).1.sideVec ∧
          g.sideRound = (s.getVec d t o f f.sideVec).1.sideRound + 1)) := by
  have hgo : ¬ ((!s.tileClk d t || !nbit (o.desc.b 34) 3 || decide (o.desc.le 24 2 ≤ f.sideVec) ||
      decide (f.oldest + 3 < f.sideVec)) = true) := by
    simp [hclk, hside]; omega
  obtain ⟨y, hfind⟩ := s.exists_find_getVec d t o f f.sideVec
  change ∃ v g, execSideStallRound d t s = _ ∧ _
  unfold execSideStallRound
  rw [hop, hf]
  dsimp only
  rw [if_neg hgo, hfind]
  dsimp only
  split
  case h_1 => exact ⟨_, _, rfl, .inl ⟨rfl, rfl⟩⟩
  case h_2 =>
    split
    case isTrue => exact ⟨_, _, rfl, .inl ⟨rfl, rfl⟩⟩
    case isFalse =>
      split
      case isTrue => exact ⟨_, _, rfl, .inl ⟨rfl, rfl⟩⟩
      case isFalse => exact ⟨_, _, rfl, .inr ⟨rfl, rfl⟩⟩

/-- The column sums with which a vector leaves the array (R96 to R98, R116, R126, R127). -/
def combinedSums (s : State) (d t : Nat) (x : Desc) (f : FwdS) (y : FwdVec) : ColSums where
  sums := (if y.side = [] ∨ y.sideBad = true then columnSums s d t x y.xs
    else ((columnSums s d t x y.xs).zip y.side).map (fun p => p.1 + p.2)).map (clampBits 32)
  exp := if (!y.live) = true then sgn 8 (x.b 38)
    else if f.mode = 3 then y.bottom + 8 + sgn 8 (x.b 38) else y.bottom + sgn 8 (x.b 38)
  planes := if f.mode = 3 then nfld (x.b 39) 0 6 + 1 else 0
  bad := y.bad || y.sideBad || (!nbit (x.b 34) 3 && y.outl)

/-- The oldest vector, taken by its eight lanes and the side stall, leaves the array. -/
theorem exec_fwdCombine {s : State} {d : Die} {t : Tile} {o : OpRec} {f : FwdS} {y : FwdVec}
    (hop : fwdOp s d t = some o) (hclk : s.tileClk d t = true) (hf : (s.tile d t).fwd = some f)
    (hfind : f.vecs.find? (fun z => z.v == f.oldest) = some y) (hlanes : 8 ≤ y.lanes.length) (hside : y.sideDone = true)
    (hout : f.out.length < 2) :
    ∃ v : State, exec (.fwdCombine d t) s = .next (v.setFwd d t (some
      { f with vecs := f.vecs.filter (fun z => z.v != y.v), oldest := f.oldest + 1,
               out := f.out ++ [combinedSums s d t o.desc f y] })) := by
  have hgo : ¬ ((!s.tileClk d t || decide (y.lanes.length < 8) || !y.sideDone || decide (2 ≤ f.out.length)) = true) := by
    simp [hclk, hside]; omega
  change ∃ v, execFwdCombine d t s = _
  unfold execFwdCombine
  rw [hop, hf]
  dsimp only
  rw [hfind]
  dsimp only
  rw [if_neg hgo]
  exact ⟨_, rfl⟩

/-- Settles O13: each stage's arm ends in `setFwd`, whose record the array then holds. -/
theorem forwardArrayCommandsComplete : Obligations.ForwardArrayCommandsComplete := by
  unfold Obligations.ForwardArrayCommandsComplete
  intro d t o f s hop hclk
  refine ⟨fun hfree => ?first, fun lane hf hmore hnear => ?lane, fun hf hside hmore hnear => ?side,
    fun y hf hfind hlanes hside hout => ?combine, fun c cs hf hout hroom => ?deliver, fun hf hall => ?complete⟩
  case first =>
    obtain ⟨v, top, bot, harm⟩ := exec_fwdFirstPlane hop hclk hfree
    exact ⟨_, _, top, bot, harm, State.fwd_setFwd .., firstPlaneMode_of_ne, firstPlaneMode_of_invalid⟩
  case lane =>
    obtain ⟨y, hfind⟩ := s.exists_find_getVec d t o f (f.starts.getD lane.val 0)
    obtain ⟨v, harm⟩ := exec_laneVectorStart hop hclk hf hmore hnear hfind
    exact ⟨_, _, y, harm, hfind, State.fwd_setFwd .., rfl, rfl⟩
  case side =>
    obtain ⟨v, g, harm, hg⟩ := exec_sideStallRound hop hclk hf hside hmore hnear
    exact ⟨_, g, harm, State.fwd_setFwd .., hg⟩
  case combine =>
    obtain ⟨v, harm⟩ := exec_fwdCombine hop hclk hf hfind hlanes hside hout
    exact ⟨_, combinedSums s d t o.desc f y, harm, State.fwd_setFwd .., rfl, rfl, by simp [combinedSums]⟩
  case deliver =>
    change execFwdDeliver d t s = _
    simp only [execFwdDeliver, hf, hout, hclk, Bool.not_true, Bool.false_eq_true, if_false, Nat.not_le.mpr hroom]
  case complete =>
    change execFwdComplete d t s = _
    simp only [execFwdComplete, hop, hf, hall, if_true]

end Sys2Proof.Machine
end

section
/-! The backward array: what each stage of an operation leaves in the array's record, `TileS.bwd`. -/

namespace Sys2Proof.Machine

/-- The backward state reads as it was just set. -/
@[simp] theorem State.bwd_setBwd (s : State) (d t : Nat) (b : BwdS) : ((s.setBwd d t b).tile d t).bwd = b := by
  rw [State.setBwd, State.tile_setTile_same]

/-- The accumulators of a block after an operand cycle inside a couch window (R143 to R145). -/
def windowAcc (b : BwdS) (x : Desc) (c : BwdSet) : List Nat :=
  (List.range 4096).map (fun e => (cellSum (bwdFlush x) (c.acc.getD e 0) ((List.range 4).map (fun j =>
    ((b.winA.getD (64 * (e / 64) + 4 * c.cycles % 64 + j) (0, false)).1,
      (b.winB.getD (64 * (e % 64) + 4 * c.cycles % 64 + j) (0, false)).1)))).1)

/-- The backward record after an operand cycle left the block's set `z`: the block goes on, or it is finished and the
next block begins (R149, R150). -/
def BwdS.cycled (b : BwdS) (o : OpRec) (z : BwdSet) (wa wb : List (Nat × Bool)) : BwdS :=
  if z.cycles < bwdCycles o.desc then { b with cur := some z, winA := wa, winB := wb }
  else { b with
    cur := if z.block + 1 < bwdM o.desc * bwdN o.desc then some (BwdSet.fresh o.issue (z.block + 1)) else none
    full := b.full ++ [z], winA := [], winB := [] }

/-- An operand cycle of the block computing, with a set free for it: four reduction positions go by. -/
theorem exec_operandCycle {s : State} {d : Die} {t : Tile} {c : BwdSet} {o : OpRec} (hclk : s.tileClk d t = true)
    (hcur : (s.tile d t).bwd.cur = some c) (hrec : opRec s d t c.issue = some o)
    (hroom : (s.tile d t).bwd.full.length < 2) :
    ∃ (v : State) (acc : List Nat) (flags : List Bool) (wa wb : List (Nat × Bool)),
      exec (.operandCycle d t) s =
        .next (v.setBwd d t ((v.tile d t).bwd.cycled o ⟨c.issue, c.block, c.cycles + 1, acc, flags⟩ wa wb)) ∧
      (4 * c.cycles % 64 ≠ 0 → acc = windowAcc (s.tile d t).bwd o.desc c) := by
  change ∃ v acc flags wa wb, execOperandCycle d t s = _ ∧ _
  unfold execOperandCycle BwdS.cycled
  simp only [hcur, hrec, hclk, Bool.not_true, Bool.false_eq_true, if_false, Nat.not_le.mpr hroom]
  by_cases hwin : 4 * c.cycles % 64 = 0
  · simp only [hwin, if_true]
    by_cases hmore : c.cycles + 1 < bwdCycles o.desc
    · simp only [hmore, if_true]
      exact ⟨_, _, _, _, _, rfl, fun h => absurd rfl h⟩
    · simp only [hmore, if_false]
      exact ⟨_, _, _, [], [], rfl, fun h => absurd rfl h⟩
  · simp only [hwin, if_false]
    by_cases hmore : c.cycles + 1 < bwdCycles o.desc
    · simp only [hmore, if_true]
      exact ⟨_, _, _, _, _, rfl, fun _ => by rw [List.map_map]; rfl⟩
    · simp only [hmore, if_false]
      exact ⟨_, _, _, [], [], rfl, fun _ => by rw [List.map_map]; rfl⟩

/-- The oldest finished block is judged, and its drain begins at row 0; a block that goes to memory drains its own sums
(R152, R162 to R181). -/
theorem exec_drainBegin {s : State} {d : Die} {t : Tile} {c : BwdSet} {cs : List BwdSet} {o : OpRec} {p : BwdOp}
    (hclk : s.tileClk d t = true) (hdrain : (s.tile d t).bwd.drain = none) (hfull : (s.tile d t).bwd.full = c :: cs)
    (hrec : opRec s d t c.issue = some o)
    (hbegun : (s.tile d t).bwd.ops.find? (fun q => q.issue == c.issue) = some p) :
    ∃ (v : State) (q : BwdOp) (z : BwdDrain),
      exec (.drainBegin d t) s = .next (v.setBwd d t { (v.tile d t).bwd.setOp q with drain := some z }) ∧
      z.set = c ∧ z.row = 0 ∧
      (bwdDest o.desc = false → z.vals = c.acc ∧ z.bad = blockBad c ∧ z.writes = true ∧ z.dirEntry = none) := by
  change ∃ v q z, execDrainBegin d t s = _ ∧ _
  unfold execDrainBegin
  simp only [hdrain, hfull, hrec, hbegun, hclk, Bool.not_true, Bool.false_eq_true, if_false]
  by_cases hdest : bwdDest o.desc = true
  · simp only [hdest, if_true]
    exact ⟨_, _, _, rfl, rfl, rfl, fun h => absurd h (by decide)⟩
  · simp only [hdest]
    exact ⟨_, _, _, rfl, rfl, rfl, fun _ => ⟨rfl, rfl, rfl, rfl⟩⟩

/-- One output row; after the last one no block drains (R153, R154). -/
theorem exec_drainRow {s : State} {d : Die} {t : Tile} {z : BwdDrain} {o : OpRec} {p : BwdOp}
    (hclk : s.tileClk d t = true) (hdrain : (s.tile d t).bwd.drain = some z) (hrec : opRec s d t z.set.issue = some o)
    (hbegun : (s.tile d t).bwd.ops.find? (fun q => q.issue == z.set.issue) = some p) :
    ∃ (v : State) (b : BwdS), exec (.drainRow d t) s = .next (v.setBwd d t b) ∧
      b.drain = if z.row < 63 then some { z with row := z.row + 1 } else none := by
  change ∃ v b, execDrainRow d t s = _ ∧ _
  unfold execDrainRow
  simp only [hdrain, hrec, hbegun, hclk, Bool.not_true, Bool.false_eq_true, if_false]
  by_cases hlast : 63 ≤ z.row
  · refine ⟨_, _, rfl, ?_⟩
    simp only [hlast, decide_true, if_true, Nat.not_lt.mpr hlast, if_false]
  · refine ⟨_, _, rfl, ?_⟩
    simp only [hlast, decide_false, Bool.false_eq_true, if_false, Nat.not_le.mp hlast, if_true]

/-- Settles O14: each stage's arm ends in `setBwd`, whose record the array then holds. -/
theorem backwardArrayCommandsComplete : Obligations.BackwardArrayCommandsComplete := by
  unfold Obligations.BackwardArrayCommandsComplete
  intro d t s hclk
  refine ⟨fun o hfind hcur hroom => ?first, fun c o hcur hrec hroom => ?cycle,
    fun c cs o p hdrain hfull hrec hbegun => ?begin, fun z o p hdrain hrec hbegun => ?row,
    fun p ps o hops hrec hall => ?complete⟩
  case first =>
    change execBwdFirstOperand d t s = _
    simp only [execBwdFirstOperand, hfind]
    exact if_neg (by simp [hclk, hcur]; omega)
  case cycle =>
    obtain ⟨v, acc, flags, wa, wb, harm, hacc⟩ := exec_operandCycle hclk hcur hrec hroom
    refine ⟨_, ⟨c.issue, c.block, c.cycles + 1, acc, flags⟩, harm, rfl, rfl, rfl, hacc, ?_⟩
    rw [State.bwd_setBwd, BwdS.cycled]
    by_cases hmore : c.cycles + 1 < bwdCycles o.desc
    · rw [if_pos hmore, if_pos hmore]
    · rw [if_neg hmore, if_neg hmore]
      exact ⟨⟨_, rfl⟩, rfl⟩
  case begin =>
    obtain ⟨v, q, z, harm, hset, hrow, hmem⟩ := exec_drainBegin hclk hdrain hfull hrec hbegun
    exact ⟨_, z, harm, by rw [State.bwd_setBwd], hset, hrow, hmem⟩
  case row =>
    obtain ⟨v, b, harm, hb⟩ := exec_drainRow hclk hdrain hrec hbegun
    exact ⟨_, harm, by rw [State.bwd_setBwd, hb]⟩
  case complete =>
    refine ⟨_, ?_, rfl⟩
    change execBwdComplete d t s = _
    simp only [execBwdComplete, hops, hrec, Nat.not_lt.mpr hall, if_false]

end Sys2Proof.Machine
end

section
/-! The converter, the weighhouse and the update unit: where their stages complete, and a submit write that queues its
descriptor. -/

namespace Sys2Proof.Machine

/-- A register of the channel maxima, cleared, reads its reset word. -/
theorem State.rd_chanClear_of_lt (s : State) (d t : Nat) {n : Nat} (hn : n < 128) :
    (s.chanClear d t).rd (Reg.wghChan d t n) = resetWord (Reg.wghChan d t n) := by
  have hin : Reg.wghChan d t 0 ≤ Reg.wghChan d t n ∧ Reg.wghChan d t n < Reg.wghChan d t 128 := by
    unfold Reg.wghChan; omega
  rw [State.chanClear, State.rd_dropRegs, if_pos (by simpa using hin)]

/-- A shaker of a tile that no operation holds takes the write (R271). -/
theorem State.genStateWrite_of_free {s : State} {d t g : Nat} (hfree : shakerHeld s d t g = false) (hi : Bool) (v : Word) :
    s.genStateWrite d t g hi v = s.shakerWrite (Reg.genStateLo d t g) (Reg.genStateHi d t g) hi v :=
  if_neg (by simp [hfree])

/-- An update shaker that no begun descriptor holds takes the write (R328). -/
theorem State.updGenWrite_of_free {s : State} {d : Nat} (g : Nat) (hfree : updShakerHeld s d = false) (hi : Bool)
    (v : Word) : s.updGenWrite d g hi v = s.shakerWrite (Reg.updGenStateLo d g) (Reg.updGenStateHi d g) hi v :=
  if_neg (by simp [hfree])

/-- Settles O15: the converter's arms with their conditions decided; the weighhouse's and the shakers' writes are their
effect once accepted. -/
theorem converterAndWeighhouseCommandsComplete : Obligations.ConverterAndWeighhouseCommandsComplete := by
  unfold Obligations.ConverterAndWeighhouseCommandsComplete
  refine ⟨fun d t o s hop hclk => ⟨fun hmore hsrc => ?memory, fun q qs hmore hsrc hq => ?queue,
      fun c hc hall hbusy hpush => ?complete⟩,
    fun r d t s u hacc => next_regWr_of_accepted hacc _,
    fun r d t s u hacc => ⟨next_regWr_of_accepted hacc _, fun n hn => State.rd_chanClear_of_lt u d t hn⟩,
    fun r d t g hi v s u hacc hfree => ?tileShaker, fun r d g hi v s u hacc hfree => ?updShaker⟩
  case memory =>
    refine ⟨_, rfl, ?_⟩
    change execCnvVector d t s = _
    simp only [execCnvVector, hop, hclk, Nat.not_le.mpr hmore, decide_false, Bool.not_true, Bool.or_false,
      Bool.false_eq_true, if_false, hsrc, if_true]
  case queue =>
    change execCnvVector d t s = _
    simp only [execCnvVector, hop, hclk, Nat.not_le.mpr hmore, decide_false, Bool.not_true, Bool.or_false,
      Bool.false_eq_true, if_false, hsrc, hq]
  case complete =>
    have hpushed : (nbit (o.desc.b 48) 4 && !c.pushed) = false := by
      cases hbit : nbit (o.desc.b 48) 4 with
      | false => rfl
      | true => simp [hpush hbit]
    refine ⟨_, ?_, rfl⟩
    change execCnvComplete d t s = _
    simp only [execCnvComplete, hop, hc, hclk, Nat.not_lt.mpr hall, hbusy, hpushed, decide_false, Bool.not_true,
      Bool.or_false, Bool.false_eq_true, if_false]
  case tileShaker =>
    exact (next_regWr_of_accepted hacc _).trans (congrArg _ (State.genStateWrite_of_free hfree hi v))
  case updShaker =>
    exact (next_regWr_of_accepted hacc _).trans (congrArg _ (State.updGenWrite_of_free g hfree hi v))

/-- A submit write of an aligned address reads the descriptor, and the descriptor joins a queue with room (R281, R515,
R1093). -/
theorem next_submit_of_room {s u w : State} {r : Requester} {d n a v : Nat} {bs : List Byte} (hacc : Accepted s r a u)
    (halign : v % 2 ^ 48 % 64 = 0) (hread : u.readLine (engReq d n) (v % 2 ^ 48) = (some bs, w))
    (hroom : ((w.die d).queue (if n = 67 then 67 + dcpRoute (w.die d) bs else n)).length <
      queueCap (if n = 67 then 67 + dcpRoute (w.die d) bs else n)) :
    (.next (s.submit r d n a v) : Host.Outcome State Fault Refusal) =
      .next (w.engPush d (if n = 67 then 67 + dcpRoute (w.die d) bs else n) ⟨bs, 0, v % 2 ^ 48, 255⟩).2 := by
  have hpush := State.engPush_fst_of_lt ⟨bs, 0, v % 2 ^ 48, 255⟩ hroom
  generalize hch : (if n = 67 then 67 + dcpRoute (w.die d) bs else n) = ch at hpush ⊢
  refine (next_regWr_of_accepted hacc _).trans ?_
  simp only [halign, ne_eq, not_true_eq_false, if_false, hread, hch]
  rcases hq : w.engPush d ch ⟨bs, 0, v % 2 ^ 48, 255⟩ with ⟨full, x⟩
  rw [hq] at hpush
  subst hpush
  rfl

/-- Settles O16: each of the four commands is the submit write of its engine's register. -/
theorem submitWritesQueueTheDescriptor : Obligations.SubmitWritesQueueTheDescriptor := by
  unfold Obligations.SubmitWritesQueueTheDescriptor
  intro r d v s u w bs c n a hc hacc halign hread hroom
  have harm : exec c s = .next (s.submit r d n a v.toNat) := by
    simp only [List.mem_cons, Prod.mk.injEq, List.not_mem_nil, or_false] at hc
    rcases hc with ⟨rfl, rfl, rfl⟩ | ⟨rfl, rfl, rfl⟩ | ⟨rfl, rfl, rfl⟩ | ⟨rfl, rfl, rfl⟩
    all_goals rfl
  rw [harm, next_submit_of_room hacc halign hread hroom]

/-- A descriptor whose parameter block `p` is read, and which no condition refuses and no mirror holds back, begins. -/
theorem exec_updBegin {d : Die} {s w : State} {q : QDesc} {qs : List QDesc} {p : List Byte}
    (hq : (s.die d).updQ = q :: qs) (hready : engReady s d 64 q = true) (hclk : s.arrClk d = true)
    (hhold : s.on (Reg.updCtl d) Reg.updCtl_hold = false) (hcur : (s.die d).u.cur = none)
    (hdesc : updDescBad q.desc = false)
    (hparm : (s.die d).u.parm = some (some p) ∧ w = s ∨
      (s.die d).u.parm = none ∧ whole (s.readSpan (updReq d) (q.desc.le 16 6) 128).1 = some p ∧
        w = (s.readSpan (updReq d) (q.desc.le 16 6) 128).2.setUpd d
          { ((s.readSpan (updReq d) (q.desc.le 16 6) 128).2.die d).u with parm := some (some p) })
    (hbad : updParmBad q.desc p = false)
    (hfour : updMirror q.desc = true → ((w.die d).u.mirrors.filter (mirrorLive w d)).length < 4)
    (hfree : (((w.die d).u.mirrors.filter (mirrorLive w d)).any (fun m => parmA m.parm 0x20 == parmA p 0x20)) = false) :
    exec (.updBegin d) s = .next (w.updStart d q p) := by
  have hheld : ¬ (((updMirror q.desc && decide (4 ≤ ((w.die d).u.mirrors.filter (mirrorLive w d)).length)) ||
      ((w.die d).u.mirrors.filter (mirrorLive w d)).any (fun m => parmA m.parm 0x20 == parmA p 0x20)) = true) := by
    rw [hfree, Bool.or_false, Bool.and_eq_true, decide_eq_true_eq]
    exact fun h => absurd (hfour h.1) (Nat.not_lt.mpr h.2)
  change execUpdBegin d s = _
  rcases hparm with ⟨hparm, rfl⟩ | ⟨hparm, hwhole, rfl⟩
  · simp only [execUpdBegin, hq, hready, hclk, hhold, hcur, hdesc, hparm, hbad, Bool.not_true, Bool.or_false,
      Option.isSome_none, Bool.false_eq_true, if_false]
    rw [if_neg hheld]
  · simp only [execUpdBegin, hq, hready, hclk, hhold, hcur, hdesc, hparm, hwhole, hbad, Bool.not_true, Bool.or_false,
      Option.isSome_none, Bool.false_eq_true, if_false]
    rw [if_neg hheld]

/-- The shard header of a begun descriptor is written, and the descriptor joins those that wait for their header's
acknowledgement (R316, R332). -/
theorem exec_updHeaderWrite {d : Die} {s w : State} {c : UpdS} {e : Int} (hcur : (s.die d).u.cur = some c)
    (hexp : c.lrExp = some e) (hclk : s.arrClk d = true) (hlanes : c.lanes = true) (hall : updN c.q.desc ≤ c.next)
    (hw : w = if updRow c.q.desc = true
      then (s.largest c.gmax).2.shardLine d (c.q.desc.le 28 6) (parmA c.parm 0x20) c.hdr (newHdr c e (s.largest c.gmax).1)
      else (s.largest c.gmax).2.updWrite d (parmA c.parm 0x20) ((newHdr c e (s.largest c.gmax).1).map some)) :
    ∃ (b : Bool) (g : List (Nat × Nat × Nat)), exec (.updHeaderWrite d) s = .next ((w.setDie d { w.die d with
      u := { (w.die d).u with cur := none, fin := (w.die d).u.fin ++ [(c.q, b)] }, guards := g }).mirrorNote d c.num
        (fun m => { m with hdrDone := true })) := by
  change ∃ b g, execUpdHeaderWrite d s = _
  simp only [execUpdHeaderWrite, hcur, hexp, hclk, hlanes, Nat.not_lt.mpr hall, decide_false, Bool.not_true, Bool.or_false,
    Bool.false_eq_true, if_false, ← hw]
  exact ⟨_, _, rfl⟩

/-- Settles O17: each stage's arm with its conditions decided; the beginning and the header go through their lemmas. -/
theorem updateUnitCommandsComplete : Obligations.UpdateUnitCommandsComplete := by
  unfold Obligations.UpdateUnitCommandsComplete
  intro d s
  refine ⟨fun r u hacc => next_regWr_of_accepted hacc _, ?begun, ?beginRead, fun c hcur hexp hclk => ?prepass,
    fun c e hcur hexp hclk => ?lane, fun c e hcur hexp hclk hlanes hmore => ?block,
    fun c e hcur hexp hclk hlanes hall => ?header, fun q b l hfin => ?complete, fun m hm hwritten => ?mirror,
    fun m hm => ?remote⟩
  case begun =>
    intro q qs p hq hready hclk hhold hcur hdesc hparm hbad hfour hfree
    exact exec_updBegin hq hready hclk hhold hcur hdesc (.inl ⟨hparm, rfl⟩) hbad hfour hfree
  case beginRead =>
    intro q qs p l u w hq hready hclk hhold hcur hdesc hparm hread hwhole hbad hw hfour hfree
    refine exec_updBegin hq hready hclk hhold hcur hdesc (.inr ⟨hparm, ?_, ?_⟩) hbad hfour hfree
    · rw [hread, hwhole]
    · rw [hread, hw]
  case prepass =>
    refine ⟨_, rfl, ?_⟩
    change execUpdPrepass d s = _
    simp only [execUpdPrepass, hcur, hexp, hclk, Option.isSome_none, Bool.not_true, Bool.or_false, Bool.false_eq_true,
      if_false]
  case lane =>
    change execUpdFirstLane d s = _
    simp [execUpdFirstLane, hcur, hexp, hclk]
  case block =>
    change execUpdBlockWritten d s = _
    simp only [execUpdBlockWritten, hcur, hexp, hclk, hlanes, Nat.not_le.mpr hmore, decide_false, Bool.not_true,
      Bool.or_false, Bool.false_eq_true, if_false, apply_ite Host.Outcome.next]
  case header =>
    obtain ⟨b, g, harm⟩ := exec_updHeaderWrite hcur hexp hclk hlanes hall rfl
    exact ⟨_, _, harm, by rw [State.die_setDie_same], rfl, b, by rw [State.die_setDie_same]⟩
  case complete =>
    change execUpdComplete d s = _
    simp only [execUpdComplete, hfin]
  case mirror =>
    change execMirrorStart d s = _
    simp only [execMirrorStart, hm, hwritten, if_false]
  case remote =>
    change execMirrorRemoteAdd d s = _
    simp only [execMirrorRemoteAdd, hm]

end Sys2Proof.Machine
end

section
/-! Copy channels: where an operation begins, makes a burst, pauses and resumes, retries, is aborted and ends. -/

namespace Sys2Proof.Machine

/-- A free tile channel takes the operation issued to it (R511). -/
theorem State.chStart_of_issued {s : State} {d : Die} {t : Tile} {i : Fin 2} {n : Nat} {o : OpRec}
    (hfree : chan s (.tile d t i) = none) (hclk : chanClk s (.tile d t i) = true)
    (ho : (s.tile d t).ops.find? (fun o => o.opcode == 4 + i.val) = some o) (hkind : cpKind o.desc = n) :
    s.chStart (.tile d t i) n = s.chBegin (.tile d t i) ⟨o.desc, o.issue, o.addr, t⟩ := by
  simp only [State.chStart, hfree, hclk, Option.isSome_none, Bool.not_true, Bool.or_false, Bool.false_eq_true, if_false,
    ho, hkind, if_true]

/-- A free die channel takes the valid head of its queue, once its wait is met (R513, R516). -/
theorem State.chStart_of_queued {s : State} {d : Die} {i : Fin 16} {n : Nat} {q : QDesc} {qs : List QDesc}
    (hfree : chan s (.die d i) = none) (hclk : chanClk s (.die d i) = true)
    (hq : (s.die d).queue (67 + i.val) = q :: qs) (hready : engReady s d (67 + i.val) q = true)
    (hkind : cpKind q.desc = n) (hgood : anyBad (cpyChecks q.desc 7) = false) :
    s.chStart (.die d i) n = (s.engPop d (67 + i.val)).chBegin (.die d i) q := by
  simp only [State.chStart, hfree, hclk, Option.isSome_none, Bool.not_true, Bool.or_false, Bool.false_eq_true, if_false,
    hq, hready, hkind, decide_true, Bool.true_or, hgood]

/-- A request on a line below 255 counts one more (R529, R530). -/
theorem State.request_of_room {s : State} {die : Bool} {d t l a : Nat}
    (ha : (if die then Reg.dcpReq d (l / 8) else Reg.cpyReq d t (l / 8)) = a)
    (hroom : s.g a ⟨8 * (l % 8), 8⟩ ≠ 255) :
    s.request die d t l = s.p a ⟨8 * (l % 8), 8⟩ (s.g a ⟨8 * (l % 8), 8⟩ + 1) := by
  simp only [State.request, State.lineRaw, ha, if_neg hroom, Bool.false_eq_true, if_false]

/-- A channel that holds an operation keeps it: nothing is left to take over. -/
theorem State.chHold_of_chan {s : State} {k : ChanId} {x : ChS} (hx : chan s k = some x) : s.chHold k = s := by
  cases k with
  | tile d t c => exact if_pos (by rw [hx]; rfl)
  | die d c => rfl

/-- A burst that a tally paces begins above the low mark, or when the level covers the rest (R537, R538). -/
theorem exec_copyBurst_tally {s : State} {k : ChanId} {x : ChS} (hx : chan s k = some x) (hclk : chanClk s k = true)
    (hready : x.ready = true) (hpace : cpPace x.q.desc = 2) (hpaused : x.paused = false) :
    exec (.copyBurst k) s =
      if chLevel s k (cpTally x.q.desc) ≤ x.q.desc.b 51 ∧ chLevel s k (cpTally x.q.desc) < x.rest
      then .next ((s.setChan k (some { x with paused := true })).chCnt k 2 1)
      else .next ((s.tallyQueue k.dn (cpTally x.q.desc) (.level (cpTally x.q.desc) k.key)).chBurst k x) := by
  change execCopyBurst k s = _
  simp only [execCopyBurst, hx, hclk, hready, hpace, hpaused, Bool.not_true, Bool.or_false, Bool.false_eq_true, if_false]

/-- Settles O18: beginnings, requests and the tally's pace go through their lemmas; each other clause is the command's
arm with its conditions decided. -/
theorem copyChannelCommandsComplete : Obligations.CopyChannelCommandsComplete := by
  unfold Obligations.CopyChannelCommandsComplete
  refine ⟨fun k c n s hc hfree hclk => ?start, fun k x s hx hclk => ⟨fun hready => ⟨fun hpace => ?free,
      fun hpace hpend hturn => ?line, fun hpace hpaused hgo => ?tally, fun hpace hpaused hlow hrest => ?pause⟩,
      fun hpaused hlevel => ?resume, fun f fs hfails hhalted habort => ?retry, fun habort hdone => ?complete,
      fun habort hbusy => ?aborted⟩,
    fun d t l s hroom => congrArg _ (State.request_of_room rfl hroom),
    fun d l s hroom => congrArg _ (State.request_of_room rfl hroom),
    fun r d t v s u hacc => next_regWr_of_accepted hacc _, fun r d v s u hacc => next_regWr_of_accepted hacc _,
    fun r k x f fs s u hacc hx hhalted hfails => ?chResume, fun r k x s u hacc hx hdone => ?chAbort⟩
  case start =>
    have harm : exec c s = .next (s.chStart k n) := by
      simp only [List.mem_cons, Prod.mk.injEq, List.not_mem_nil, or_false] at hc
      rcases hc with ⟨rfl, rfl⟩ | ⟨rfl, rfl⟩ | ⟨rfl, rfl⟩
      all_goals rfl
    rw [harm]
    constructor
    · rintro d t i o rfl ho hkind
      rw [State.chStart_of_issued hfree hclk ho hkind]
    · rintro d i q qs rfl hq hready hkind hgood
      rw [State.chStart_of_queued hfree hclk hq hready hkind hgood]
  case free =>
    change execCopyBurst k s = _
    simp only [execCopyBurst, hx, hclk, hready, hpace, Bool.not_true, Bool.or_false, Bool.false_eq_true, if_false]
  case line =>
    change execCopyBurst k s = _
    simp only [execCopyBurst, hx, hclk, hready, hpace, hpend, hturn, Bool.not_true, Bool.or_false, Bool.false_eq_true,
      or_false, if_false]
  case tally => rw [exec_copyBurst_tally hx hclk hready hpace hpaused, if_neg (by omega)]
  case pause => rw [exec_copyBurst_tally hx hclk hready hpace hpaused, if_pos ⟨hlow, hrest⟩]
  case resume =>
    change execPaceResume k s = _
    simp only [execPaceResume, hx, hpaused, hlevel, hclk, and_self, if_true]
  case retry =>
    change execCopyRetry k s = _
    simp only [execCopyRetry, hx, hfails, hhalted, habort, hclk, Bool.not_true, Bool.or_false, Bool.false_eq_true,
      if_false]
  case complete =>
    change execCopyComplete k s = _
    simp only [execCopyComplete, hx, habort, hdone, Bool.false_and, Bool.not_false, Bool.and_self, Bool.false_or, if_true]
  case aborted =>
    change execCopyComplete k s = _
    simp only [execCopyComplete, hx, habort, hbusy, Bool.not_false, Bool.and_self, Bool.true_or, if_true]
  case chResume =>
    refine (next_regWr_of_accepted hacc _).trans ?_
    simp only [State.chResume, hx, hhalted, hfails]
  case chAbort =>
    refine (next_regWr_of_accepted hacc _).trans ?_
    simp only [State.chHold_of_chan hx, State.chAbort, hx, hdone, Bool.false_eq_true, if_false]

end Sys2Proof.Machine
end

section
/-! The porter: where its descriptors begin, go on, retry, are resumed and aborted, and end. -/

namespace Sys2Proof.Machine

/-- The record of a descriptor that the porter has just begun. -/
def freshPrt (q : QDesc) : PrtS :=
  { q := q, next := 0, bag := 0, opened := false, acc := [], n := 0, g := [], outs := [], fails := [],
    halted := false, abort := false, accNoted := false, invNoted := false, fullNoted := false }

/-- The valid head of the porter's queue begins once its wait is met, a scatter once its ledger is free (R584, R601, R602). -/
theorem State.prtBegin_of_ready {s : State} {d n : Nat} {q : QDesc} {qs : List QDesc} (go : Bool)
    (hq : (s.die d).prtQ = q :: qs) (hfree : (s.die d).prt = none) (hclk : s.fabClk d = true)
    (hready : engReady s d 65 q = true) (hkind : prtKind q.desc = n)
    (hgood : prtBad q.desc (tableE s d (prtTable q.desc)) = false) (hledger : n = 1 → ledgerHeld s d q.desc = false) :
    s.prtBegin d n go = if go = true then ((s.engPop d 65).setPrt d (some (freshPrt q))).prtGo d (freshPrt q)
      else (s.engPop d 65).setPrt d (some (freshPrt q)) := by
  have hheld : ¬ ((decide (n = 1) && ledgerHeld s d q.desc) = true) := by
    rw [Bool.and_eq_true, decide_eq_true_eq]
    rintro ⟨hn, hheld⟩
    rw [hledger hn] at hheld
    exact absurd hheld Bool.false_ne_true
  simp only [State.prtBegin, hq, hfree, hclk, hready, hkind, hgood, Option.isSome_none, bne_self_eq_false, Bool.not_true,
    Bool.or_false, Bool.false_eq_true, if_false, if_neg hheld]
  rfl

/-- The begun descriptor of a porter may go on when nothing of it fails or is aborted and entries are left. -/
theorem prtReady_of_begun {s : State} {d n : Nat} {p : PrtS} (hp : (s.die d).prt = some p) (hfails : p.fails = [])
    (hhalted : p.halted = false) (habort : p.abort = false) (hmore : p.next < prtN p.q.desc) (hclk : s.fabClk d = true)
    (hkind : prtKind p.q.desc = n) : prtReady s d n = some p := by
  simp only [prtReady, hp]
  exact if_pos (by simp [hfails, hhalted, habort, hmore, hclk, hkind])

/-- Settles O19: the four beginnings are one lemma, with the rows to follow at once for a push and a ship; each other
clause is the command's arm with its conditions decided. -/
theorem porterCommandsComplete : Obligations.PorterCommandsComplete := by
  unfold Obligations.PorterCommandsComplete
  intro d s
  refine ⟨fun r u hacc => next_regWr_of_accepted hacc _, ?begun,
    fun p hp hfails hhalted habort hmore hclk => ⟨fun hkind => ?bag, fun hkind => ?contribution⟩,
    fun p f fs hp hfails hhalted hclk => ?retry, fun r p f fs u hacc hp hfails hhalted => ?resume,
    fun r p u hacc hp hover => ?abort, fun p hp hbusy => ⟨fun habort => ?aborted, fun habort hover => ?complete⟩⟩
  case begun =>
    intro c n q qs hc hq hfree hclk hready hkind hgood hledger
    have hbegin := fun go => State.prtBegin_of_ready go hq hfree hclk hready hkind hgood hledger
    refine ⟨freshPrt q, rfl, rfl, rfl, rfl, rfl, ?_⟩
    simp only [List.mem_cons, Prod.mk.injEq, List.not_mem_nil, or_false] at hc
    rcases hc with ⟨rfl, rfl⟩ | ⟨rfl, rfl⟩ | ⟨rfl, rfl⟩ | ⟨rfl, rfl⟩
    all_goals exact congrArg Host.Outcome.next (hbegin _)
  case bag =>
    change execPrtBag d s = _
    simp only [execPrtBag, prtReady_of_begun hp hfails hhalted habort hmore hclk hkind]
  case contribution =>
    change execScatterContribution d s = _
    simp only [execScatterContribution, prtReady_of_begun hp hfails hhalted habort hmore hclk hkind]
  case retry =>
    change execPrtRetry d s = _
    simp only [execPrtRetry, hp, hfails, hhalted, hclk, Bool.not_true, Bool.or_false, Bool.false_eq_true, if_false]
  case resume =>
    refine (next_regWr_of_accepted hacc _).trans ?_
    simp only [State.prtResume, hp, hhalted, hfails]
  case abort =>
    refine (next_regWr_of_accepted hacc _).trans ?_
    simp only [State.prtAbort, hp, hover, Bool.false_and, Bool.false_eq_true, if_false, apply_ite (State.setPrt u d)]
  case aborted =>
    change execPrtComplete d s = _
    simp only [execPrtComplete, hp, hbusy, habort, Bool.false_eq_true, if_false, if_true]
  case complete =>
    change execPrtComplete d s = _
    simp only [execPrtComplete, hp, hbusy, habort, hover, Bool.false_eq_true, if_false, if_true]

end Sys2Proof.Machine
end

section
/-! Handovers, invalidations, the address map and the training of a port: where each command completes. -/

namespace Sys2Proof.Machine

/-- The handover register of a bank is not its owner register. -/
theorem memBankOwn_ne_memBankHand (d : Die) (t : Tile) (b : BankIx) : Reg.memBankOwn d t b ≠ Reg.memBankHand d t b := by
  have hb : b.val < 25 := b.isLt
  unfold Reg.memBankOwn Reg.memBankHand
  omega

/-- A one-bit field that was just made 0 is off. -/
theorem State.on_p_zero (s : State) (a : Nat) {f : RF} (hw : f.w = 1) (hlo : f.lo + f.w ≤ 64) :
    (s.p a f 0).on a f = false := by
  rw [State.on, State.g_p s a f 0 hlo, hw]
  rfl

/-- A die's state holds no register. -/
theorem State.on_setDie (s : State) (d : Nat) (x : DieS) (a : Nat) (f : RF) : (s.setDie d x).on a f = s.on a f := rfl

/-- A die's state holds no register. -/
theorem State.g_setDie (s : State) (d : Nat) (x : DieS) (a : Nat) (f : RF) : (s.setDie d x).g a f = s.g a f := rfl

/-- A die's state holds no register. -/
theorem State.rd_setDie (s : State) (d : Nat) (x : DieS) (a : Nat) : (s.setDie d x).rd a = s.rd a := rfl

/-- A list without an element does not contain it. -/
theorem contains_filter_ne (l : List (Nat × Nat)) (x : Nat × Nat) : (l.filter (· != x)).contains x = false := by
  simp [List.contains_eq_mem]

/-- What the registers hold once a triggered handover has taken effect (R416). -/
def handoverRegs (s : State) (d t b : Nat) : State :=
  (((s.p (Reg.memBankOwn d t b) Reg.memBankOwn_kind (s.g (Reg.memBankHand d t b) Reg.memBankHand_next_kind)).p
    (Reg.memBankOwn d t b) Reg.memBankOwn_id (s.g (Reg.memBankHand d t b) Reg.memBankHand_next_id)).p
    (Reg.memBankHand d t b) Reg.memBankHand_mode 0).p (Reg.memBankHand d t b) Reg.memBankHand_pending 0

/-- After a handover the bank is of the next owner's kind. -/
theorem g_handoverRegs_kind (s : State) (d : Die) (t : Tile) (b : BankIx) :
    (handoverRegs s d t b).g (Reg.memBankOwn d t b) Reg.memBankOwn_kind =
      s.g (Reg.memBankHand d t b) Reg.memBankHand_next_kind := by
  have hne := memBankOwn_ne_memBankHand d t b
  rw [handoverRegs, State.g_p_other _ _ _ _ _ _ hne, State.g_p_other _ _ _ _ _ _ hne,
    State.g_p_apart _ _ _ _ _ (by decide) (.inl (by decide)), State.g_p _ _ _ _ (by decide)]
  exact Nat.mod_eq_of_lt (BitVec.isLt _)

/-- After a handover the bank names the next owner. -/
theorem g_handoverRegs_id (s : State) (d : Die) (t : Tile) (b : BankIx) :
    (handoverRegs s d t b).g (Reg.memBankOwn d t b) Reg.memBankOwn_id =
      s.g (Reg.memBankHand d t b) Reg.memBankHand_next_id := by
  have hne := memBankOwn_ne_memBankHand d t b
  rw [handoverRegs, State.g_p_other _ _ _ _ _ _ hne, State.g_p_other _ _ _ _ _ _ hne, State.g_p _ _ _ _ (by decide)]
  exact Nat.mod_eq_of_lt (BitVec.isLt _)

/-- A handover writes the owner register and the handover register alone. -/
theorem rd_handoverRegs_other (s : State) {d t b a : Nat} (hhand : a ≠ Reg.memBankHand d t b)
    (hown : a ≠ Reg.memBankOwn d t b) : (handoverRegs s d t b).rd a = s.rd a := by
  rw [handoverRegs, State.rd_p, if_neg hhand, State.rd_p, if_neg hhand, State.rd_p, if_neg hown, State.rd_p, if_neg hown]

/-- A triggered handover is over: its registers are written, and it is triggered no longer (R416). -/
theorem exec_handover {s : State} {d : Die} {t : Tile} {b : BankIx} (htrig : (s.die d).trig.contains (t.val, b.val) = true) :
    exec (.handover d t b) s = .next ((handoverRegs s d t b).setDie d { (handoverRegs s d t b).die d with
      trig := ((handoverRegs s d t b).die d).trig.filter (· != (t.val, b.val)) }) := by
  change execHandover d t b s = _
  simp only [execHandover, htrig, if_true, handoverRegs]

/-- A handover write of a mode, with none pending, takes the fields and makes it pending (R415, R418). -/
theorem State.handWrite_of_free {s : State} {d t b : Nat} (mode : Nat) (v : Word)
    (hfree : s.on (Reg.memBankHand d t b) Reg.memBankHand_pending = false) :
    s.handWrite d t b mode v =
      let w := ((s.handFields d t b v).p (Reg.memBankHand d t b) Reg.memBankHand_mode mode).p (Reg.memBankHand d t b)
        Reg.memBankHand_pending 1
      if mode = 1 then w.setDie d { w.die d with trig := (w.die d).trig ++ [(t, b)] } else w.judge d (fld v 13 14) := by
  simp only [State.handWrite, hfree, Bool.false_eq_true, if_false]

/-- Settles O20: the writes are their effect once accepted; a handover's registers are `handoverRegs`. -/
theorem bankAndMapCommandsComplete : Obligations.BankAndMapCommandsComplete := by
  unfold Obligations.BankAndMapCommandsComplete
  intro d s
  refine ⟨fun r t b v u w hacc hfree => ⟨?now, ?onTally⟩, fun r t b u hacc => ?cancel, fun t b htrig => ?handover,
    fun r t v u hacc => next_regWr_of_accepted hacc _, fun t v hbits => ?invalidated,
    fun r n v u hacc => next_regWr_of_accepted hacc _, fun r n v u hacc hgood => ?attr,
    fun r u hacc => next_regWr_of_accepted hacc _, fun r v u hacc => next_regWr_of_accepted hacc _,
    fun hinvalid => if_pos hinvalid⟩
  case now =>
    rintro rfl
    exact (next_regWr_of_accepted hacc _).trans (congrArg _ (State.handWrite_of_free 1 v hfree))
  case onTally =>
    rintro rfl
    exact (next_regWr_of_accepted hacc _).trans (congrArg _ (State.handWrite_of_free 2 v hfree))
  case cancel =>
    refine ⟨_, next_regWr_of_accepted hacc _, ?_, ?_⟩
    · rw [State.handCancel, State.die_setDie_same, contains_filter_ne]
    · rw [State.handCancel, State.on_setDie, State.on_p_zero _ _ rfl (by decide)]
  case handover =>
    refine ⟨_, exec_handover htrig, ?_, ?_, ?_, ?_, fun a hhand hown => ?_, rfl⟩
    · rw [State.die_setDie_same, contains_filter_ne]
    · rw [State.on_setDie, handoverRegs, State.on_p_zero _ _ rfl (by decide)]
    · rw [State.g_setDie, g_handoverRegs_kind]
    · rw [State.g_setDie, g_handoverRegs_id]
    · rw [State.rd_setDie, rd_handoverRegs_other s hhand hown]
  case invalidated => exact if_neg hbits
  case attr =>
    refine ⟨_, next_regWr_of_accepted hacc _, ?_⟩
    simp only [State.regionWrite, hgood, Bool.and_false, Bool.false_eq_true, if_false, if_true, State.rd_wr]

/-- Another peer than the expected one is noted, and stops the port in state 6 (R632, R633). -/
theorem exec_portIdentity_of_other {s : State} {p : Port} {ident : List Byte} (hstate : s.portState p = 4)
    (hvalid : s.on (Reg.lnkPortExpect (portDie p) (portLoc p)) Reg.lnkPortExpect_valid = true)
    (hpeer : s.g (Reg.lnkPortExpect (portDie p) (portLoc p)) Reg.lnkPortExpect_expect_station ≠ leAt ident 0 2) :
    ∃ v w : State, exec (.portIdentity p ident) s = .next (w.scPump p ((w.port p).scq.length + 1)) ∧
      w = (v.setPortState p 6).portRaise p 3 ∧
      v.rd (Reg.lnkPortPeerHi (portDie p) (portLoc p)) = BitVec.ofNat 64 (leAt ident 12 8) := by
  change ∃ v w : State, execPortIdentity p ident s = _ ∧ _
  simp only [execPortIdentity, State.identity, hstate, hvalid, hpeer, ne_eq, not_true_eq_false, Bool.not_true,
    Bool.false_eq_true, or_self, false_and, if_false]
  exact ⟨_, _, rfl, rfl, by rw [State.rd_wr, if_pos rfl]⟩

/-- The expected peer brings the port up (R631, R632). -/
theorem exec_portIdentity_of_expected {s : State} {p : Port} {ident : List Byte} (hstate : s.portState p = 4)
    (hvalid : s.on (Reg.lnkPortExpect (portDie p) (portLoc p)) Reg.lnkPortExpect_valid = true)
    (hstation : s.g (Reg.lnkPortExpect (portDie p) (portLoc p)) Reg.lnkPortExpect_expect_station = leAt ident 0 2)
    (hport : s.g (Reg.lnkPortExpect (portDie p) (portLoc p)) Reg.lnkPortExpect_expect_port = byteAt ident 2) :
    exec (.portIdentity p ident) s = .next ((s.portUp p).joinSend p) := by
  change execPortIdentity p ident s = _
  simp only [execPortIdentity, State.identity, hstate, hvalid, hstation, hport, ne_eq, not_true_eq_false, Bool.not_true,
    Bool.false_eq_true, or_self, and_self, if_false, if_true]

/-- Settles O21: a phase's end is decided by the port's state, the identity by the expected peer, and every other command
by its condition. -/
theorem portTrainingCommandsComplete : Obligations.PortTrainingCommandsComplete := by
  unfold Obligations.PortTrainingCommandsComplete
  intro p s
  refine ⟨fun r u hacc hon => (next_regWr_of_accepted hacc _).trans (congrArg _ (if_pos hon)),
    fun res hclk => ⟨fun hstate => ?detect, fun hstate => ?adapt, fun hstate => ?lanes⟩,
    fun hstate hclk hon hlate => if_pos ⟨hstate, hclk, hon, hlate⟩,
    fun ident hstate hvalid => ⟨exec_portIdentity_of_expected hstate hvalid, exec_portIdentity_of_other hstate hvalid⟩,
    fun lane errs v hstate herrs hv => ?laneErrors, fun hstate hlate => ?timeout, fun hstate hreplays => ?replays⟩
  case detect =>
    change ∃ o h, execTrainingPhaseEnd p res s = _
    simp only [execTrainingPhaseEnd, hclk, hstate, Bool.not_true, Bool.false_eq_true, if_false]
    exact ⟨_, _, rfl⟩
  case adapt =>
    change execTrainingPhaseEnd p res s = _
    simp only [execTrainingPhaseEnd, hclk, hstate, Bool.not_true, Bool.false_eq_true, if_false]
  case lanes =>
    change execTrainingPhaseEnd p res s = _
    simp only [execTrainingPhaseEnd, hclk, hstate, Bool.not_true, Bool.false_eq_true, if_false]
  case laneErrors =>
    subst hv
    exact if_neg (by simp [hstate, herrs])
  case timeout => exact if_pos ⟨hstate, by simpa using hlate⟩
  case replays => exact if_pos ⟨hstate, by simpa using hreplays⟩

end Sys2Proof.Machine
end

section
/-! Frames, packets, combining, the side channel and heartbeats: where each command completes. -/

namespace Sys2Proof.Machine

/-- A packet for this module is delivered where it is routed (R646). -/
theorem State.route_of_own {s : State} {d : Nat} {k : Packet} (hown : isOwn s d k.dst.toNat = true) (fuel : Nat) :
    s.route d k (fuel + 1) = s.emit (.deliver k) := by
  simp only [State.route, hown, if_true]

/-- A packet for another module that is sent on leaves nothing to route (R647 to R652). -/
theorem State.route_of_forwarded {s u : State} {d : Nat} {k : Packet} (hown : isOwn s d k.dst.toNat = false)
    (hforward : s.forward d k = (none, u)) (fuel : Nat) : s.route d k (fuel + 1) = u := by
  simp only [State.route, hown, Bool.false_eq_true, if_false, hforward]

/-- A whole frame with good code words and a good CRC is accepted (R611 to R615). -/
theorem exec_frameReceive_of_good {s : State} {p : Port} {f : FrameIn} (hup : s.portState p = 5 ∨ s.portState p = 6)
    (hlen : f.bytes.length = 642) (hfec : f.fecOk = true) (hcrc : crc32c (f.bytes.take 638) = leAt f.bytes 638 4) :
    exec (.frameReceive p f) s =
      .next ((s.dcnt (portDie p) (80 + 5 * portLoc p + 3) f.corrected).rxFrame p f.bytes) := by
  have hdown : ¬ ((s.portState p ≠ 5 ∧ s.portState p ≠ 6) ∨ f.bytes.length ≠ 642) := by omega
  change execFrameReceive p f s = _
  simp only [execFrameReceive, if_neg hdown, hfec, hcrc, Bool.not_true, Bool.false_eq_true, ne_eq, not_true_eq_false,
    if_false]

/-- Settles O22: a packet that reaches its destination acts and is acknowledged (`deliver_of_reaches`). -/
theorem frameAndPacketCommandsComplete : Obligations.FrameAndPacketCommandsComplete := by
  unfold Obligations.FrameAndPacketCommandsComplete
  refine ⟨fun p f s hup hlen hfec hcrc => exec_frameReceive_of_good hup hlen hfec hcrc,
    fun d k s hgood hown => ?delivered, fun d k s u hgood hown hforward => ?forwarded, fun k s u h hwrite => ?write,
    fun k s u h hxor => ?xor, fun k s h => congrArg _ (deliver_of_reaches h _), fun k s h hon => ?push,
    fun k x s htyp hown hgood htracked => ?ack, fun d n x s htracked hlate => ?timeout⟩
  case delivered =>
    change execPacketRoute d k s = _
    simp only [execPacketRoute, hgood, Bool.false_eq_true, if_false, State.route_of_own hown]
  case forwarded =>
    change execPacketRoute d k s = _
    simp only [execPacketRoute, hgood, Bool.false_eq_true, if_false, State.route_of_forwarded hown hforward]
  case write =>
    refine (congrArg Host.Outcome.next (deliver_of_reaches h _)).trans ?_
    simp only [hwrite]
  case xor =>
    refine (congrArg Host.Outcome.next (deliver_of_reaches h _)).trans ?_
    rw [hxor]
  case push =>
    refine (congrArg Host.Outcome.next (deliver_of_reaches h _)).trans ?_
    simp only [State.pushTo, hon, if_true]
  case ack =>
    change execAckPkt k s = _
    simp only [execAckPkt, htyp, hown, hgood, htracked, ne_eq, not_true_eq_false, Bool.not_true, Bool.false_eq_true,
      or_self, if_false]
  case timeout =>
    change execAckTimeout d n s = _
    simp only [execAckTimeout, htracked, hlate, if_true]

/-- A contribution to a valid round that lacks it, with a piece of the store free, joins the round (R663, R664, R671). -/
theorem State.combAdd_of_free {s u : State} {d : Nat} {k : Packet}
    (hvalid : (combE s d (k.tag.toNat % 1024)).valid = true)
    (htag : (combE s d (k.tag.toNat % 1024)).tag = k.tag.toNat / 1024)
    (hnew : (combRound s d (k.tag.toNat % 1024)).any (fun m => m.index == k.index) = false)
    (hroom : combPieces s d < 2048) (hu : u = s.setDie d { s.die d with comb := { (s.die d).comb with
      held := (s.die d).comb.held ++ [(k.tag.toNat % 1024, k)] } }) :
    s.combAdd d k = if (combE s d (k.tag.toNat % 1024)).fanIn ≤ (combRound u d (k.tag.toNat % 1024)).length
      then u.combEmit d (k.tag.toNat % 1024) else u := by
  simp only [State.combAdd, hvalid, htag, hnew, Nat.not_le.mpr hroom, ← hu, bne_self_eq_false, Bool.not_true, Bool.or_self,
    Bool.false_eq_true, and_false, if_false]

/-- A heartbeat that is due goes, with the station's state (R763, R764). -/
theorem exec_heartbeatSend_of_due {s : State} {p : Port} (hup : scUp s p = true)
    (hdue : (s.port p).link.hbSent + 1000 * s.g (Reg.lnkHbCfg (portDie p)) Reg.lnkHbCfg_hb_us ≤ s.now) :
    exec (.heartbeatSend p) s =
      .next ((s.setPort p { s.port p with link := { (s.port p).link with hbSent := s.now } }).scSend p (scMsg 0x10
        (leBytes 2 (s.g (Reg.lnkStation (portDie p)) Reg.lnkStation_station) ++
          leBytes 2 (s.g (Reg.lnkStation (portDie p)) Reg.lnkStation_home) ++ leBytes 1 p.val ++
          leBytes 1 (s.g (Reg.lnkFltStatus (portDie p)) Reg.lnkFltStatus_alive +
            2 * s.g (Reg.lnkStateGen (portDie p)) Reg.lnkStateGen_state) ++
          leBytes 4 (s.g (Reg.lnkStateGen (portDie p)) Reg.lnkStateGen_gen) ++ leBytes 4 0))) := by
  change execHeartbeatSend p s = _
  simp only [execHeartbeatSend, hup, Nat.not_lt.mpr hdue, decide_false, Bool.not_true, Bool.or_self, Bool.false_eq_true,
    if_false]

/-- The heartbeat of an alive peer of the own generation is noted, and the port is not silent (R765, R767). -/
theorem exec_heartbeat_of_alive {s : State} {p : Port} {m : List Byte} (hup : scUp s p = true) (htyp : byteAt m 0 = 0x10)
    (halive : nfld (byteAt m 7) 0 1 = 1)
    (hgen : leAt m 8 4 = s.g (Reg.lnkStateGen (portDie p)) Reg.lnkStateGen_gen) :
    ∃ v : State, exec (.heartbeat p m) s = .next ((v.setPort p { v.port p with
      link := { (v.port p).link with hbAt := s.now } }).p (Reg.lnkFltStatus (portDie p)) ⟨portLoc p, 1⟩ 0) := by
  change ∃ v : State, execHeartbeat p m s = _
  simp only [execHeartbeat, hup, htyp, halive, hgen, Bool.not_true, bne_self_eq_false, Bool.or_self, Bool.false_eq_true,
    if_false, if_true]
  exact ⟨_, rfl⟩

/-- A port reads as it was just set. -/
@[simp] theorem State.port_setPort_same (s : State) (q : Nat) (x : PortS) : (s.setPort q x).port q = x := by
  rw [State.port_setPort, if_pos rfl]

/-- A register field holds no port. -/
theorem State.port_p (s : State) (a : Nat) (f : RF) (v q : Nat) : (s.p a f v).port q = s.port q := rfl

/-- A port that has just become silent is noted, counted and reported (R767). -/
theorem exec_lnkHbSilent_of_late {s : State} {p : Port} (hon : s.dieOn (portDie p) = true)
    (hlate : (s.port p).link.hbAt + 1000 * (s.g (Reg.lnkHbCfg (portDie p)) Reg.lnkHbCfg_miss *
      s.g (Reg.lnkHbCfg (portDie p)) Reg.lnkHbCfg_hb_us) ≤ s.now)
    (hnew : (s.rd (Reg.lnkFltStatus (portDie p))).getLsbD (portLoc p) = false) :
    exec (.lnkHbSilent p) s =
      .next ((((s.p (Reg.lnkFltStatus (portDie p)) ⟨portLoc p, 1⟩ 1).setPort p { s.port p with
        link := { (s.port p).link with silentAt := s.now } }).dbrk (portDie p) (72 + 5 * portLoc p + 4) 1).raise
          ⟨0x15, 2, portLoc p⟩ (.die (portDie p))) := by
  change execLnkHbSilent p s = _
  simp only [execLnkHbSilent, hon, hlate, hnew, decide_true, Bool.or_true, Bool.not_true, Bool.or_self, Bool.false_eq_true,
    if_false]

/-- Settles O23: combine packets act through `combine_of_reaches`, the writes once accepted; a contribution, a heartbeat
and a silent port have lemmas of their own. -/
theorem combineAndSideChannelCommandsComplete : Obligations.CombineAndSideChannelCommandsComplete := by
  unfold Obligations.CombineAndSideChannelCommandsComplete
  refine ⟨fun d k c typ s u hc h hvalid htag hnew hroom hu => ?combine, fun d k s h hvalid htag hheld => ?flush,
    fun d k ks s hwaits hroom => ?free, fun r d n v s u hacc hempty => ?combWrite,
    fun r p s u hacc => ⟨fun hidle => ?txGo, next_regWr_of_accepted hacc _⟩, fun p m s hup hown hflt hroom => ?receive,
    fun p s hup hdue => exec_heartbeatSend_of_due hup hdue, fun p m s hup htyp halive hgen => ?heartbeat,
    fun p s hon hlate hnew => exec_lnkHbSilent_of_late hon hlate hnew, fun d s halive hlate => if_pos ⟨halive, hlate⟩,
    fun r d s u hacc => next_regWr_of_accepted hacc _⟩
  case combine =>
    have harm : exec c s = .next (s.combine d k typ (fun s => s.combAdd d k)) := by
      simp only [List.mem_cons, Prod.mk.injEq, List.not_mem_nil, or_false] at hc
      rcases hc with ⟨rfl, rfl⟩ | ⟨rfl, rfl⟩
      all_goals rfl
    rw [harm, combine_of_reaches h, State.combAdd_of_free hvalid htag hnew hroom hu]
  case flush =>
    refine (congrArg Host.Outcome.next (combine_of_reaches h _)).trans ?_
    simp only [State.combFlush, hvalid, htag, bne_self_eq_false, Bool.not_true, Bool.or_self, Bool.false_eq_true, if_false,
      bne_iff_ne, ne_eq, hheld, not_false_eq_true, if_true]
  case free =>
    change execCombStoreFree d s = _
    simp only [execCombStoreFree, hwaits, Nat.not_le.mpr hroom, if_false]
  case combWrite =>
    refine (next_regWr_of_accepted hacc _).trans (congrArg _ (if_neg ?_))
    simp [hempty]
  case txGo => exact (next_regWr_of_accepted hacc _).trans (congrArg _ (if_neg (by simp [hidle])))
  case receive =>
    have hother : ¬ (byteAt m 0 = 0x10 ∨ byteAt m 0 = 1 ∨ byteAt m 0 = 2 ∨ (!scUp s p) = true) := by
      simp only [List.mem_cons, List.not_mem_nil, or_false] at hown
      rw [hup]
      tauto
    change execSideChannelReceive p m s = _
    simp only [execSideChannelReceive, if_neg hother, if_neg hflt, State.scQueue, Nat.not_le.mpr hroom, if_false]
  case heartbeat =>
    obtain ⟨v, harm⟩ := exec_heartbeat_of_alive hup htyp halive hgen
    have hloc : portLoc p < 8 := Nat.mod_lt _ (by decide)
    refine ⟨_, harm, ?_, ?_⟩
    · rw [State.port_p, State.port_setPort_same]
    · rw [State.g_p _ _ _ _ (Nat.le_trans (Nat.succ_le_of_lt hloc) (by decide)), Nat.zero_mod]

end Sys2Proof.Machine
end

section
/-! The clearing engine: where descriptors begin, go on, retry, are resumed and aborted, and end. -/

namespace Sys2Proof.Machine

/-- The head of the clearing queue begins when it is valid, of the epoch and due (R682, R724, R732, R733). -/
theorem State.clrBegin_of_ready {s : State} {d n : Nat} {q : QDesc} {qs : List QDesc} (hq : (s.die d).clrQ = q :: qs)
    (hfree : clrFree s d = true) (hhold : s.on (Reg.clrCtl d) Reg.clrCtl_hold = false)
    (hroom : (s.die d).clr.ops.length < 4) (hready : engReady s d 66 q = true) (hkind : clrKind q.desc = n)
    (hgood : clrBad s d q.desc = false) (hlag : n = 0 → epochLag s d (clrEp q.desc) = 0)
    (hdue : n ≠ 3 → clrThinned q.desc = false) : s.clrBegin d n = s.clrStart d q := by
  have hepoch : ¬ ((decide (n = 0) && epochLag s d (clrEp q.desc) != 0) = true) := by
    simp only [Bool.and_eq_true, decide_eq_true_eq, bne_iff_ne]
    exact fun ⟨hn, hlags⟩ => hlags (hlag hn)
  have hthin : ¬ ((decide (n ≠ 3) && clrThinned q.desc) = true) := by
    rw [Bool.and_eq_true, decide_eq_true_eq]
    exact fun ⟨hn, hthinned⟩ => absurd ((hdue hn).symm.trans hthinned) Bool.false_ne_true
  simp only [State.clrBegin, State.clrHead, hq, hfree, hhold, Nat.not_le.mpr hroom, hready, hkind, hgood, decide_false,
    bne_self_eq_false, Bool.not_true, Bool.or_self, Bool.false_eq_true, if_false, if_neg hepoch, if_neg hthin]

/-- A node whose oldest waiting position has no credit for stall_us is abandoned (R699). -/
theorem exec_creditAbandon_of_stalled {s : State} {d : Die} {i : Fin 4} {o : ClrOp} {r t p : Nat} {k : Packet}
    {ws : List (Nat × Packet)} {n : ClrNode} (ho : clrAt s d i = some o) (hn : o.node r = some n)
    (ht : n.waitAt = some t) (hended : n.ended = false) (hwaits : n.waits = (p, k) :: ws)
    (hcredit : mayUp s o.q.desc n p = false) (hlate : t + 1000 * s.g (Reg.clrCfg d) Reg.clrCfg_stall_us ≤ s.now) :
    exec (.creditAbandon d i r) s = .next (((s.putOp d (o.setNode { n with ended := true, waits := [] })).dbrk d 26
      (Route.npos n.rec' - n.up)).reduceSettle d o.num) := by
  change execCreditAbandon d i r s = _
  simp only [execCreditAbandon, ho, hn, ht, hwaits, hended, hcredit, Nat.not_lt.mpr hlate, Bool.false_eq_true, or_self,
    if_false]

/-- The header line of a slot goes once every block of it is acknowledged (R720). -/
theorem exec_slotHeaderWrite_of_idle {s : State} {d : Die} {i : Fin 4} {o : ClrOp} {r : Nat} {z : ClrSlot}
    (ho : clrAt s d i = some o) (hz : o.slots.find? (fun z => z.r == r) = some z) (hphase : z.phase = 0)
    (hall : Route.len z.rec' ≤ z.next) (hbusy : clrBusyTo s d o.num r = false) :
    exec (.slotHeaderWrite d i r) s = .next ((s.putOp d (o.setSlot { z with phase := 1 })).clrSend d o.num r z.station
      (slotAddr o.q.desc z (clr16 s d o.q.desc) (clrRankA o.q.desc))
      [leBytes 2 (clrRankA o.q.desc) ++ leBytes 1 (clrStep o.q.desc) ++ leBytes 1 (clrEp o.q.desc) ++
        leBytes 1 ((clr16 s d o.q.desc).toNat + 2) ++ leBytes 59 0]) := by
  change execSlotHeaderWrite d i r s = _
  simp only [execSlotHeaderWrite, ho, hz, hphase, Nat.not_lt.mpr hall, hbusy, ne_eq, not_true_eq_false, Bool.false_eq_true,
    or_self, if_false]

/-- A destination of a GATHER with every write acknowledged gets its arrival add, and the last one completes the GATHER
(R727). -/
theorem exec_gatherArrivalAdd_of_idle {s u : State} {d : Die} {i : Fin 4} {o : ClrOp} {r : Nat} {e : List Byte}
    (ho : clrAt s d i = some o) (hkind : clrKind o.q.desc = 1) (hall : clrN o.q.desc ≤ o.next)
    (hr : r < clrRankA o.q.desc) (hnew : o.marks.contains r = false) (hbusy : clrBusyTo s d o.num r = false)
    (hread : s.clrRead d (clrB o.q.desc + 16 * r) 16 = (.ok e, u)) :
    ∃ v, v = (u.putOp d { o with marks := r :: o.marks }).addTally d 66 (nfld (leAt e 2 4) 0 31 + 2 ^ 31) 1 ∧
      exec (.gatherArrivalAdd d i r) s = .next (if o.marks.length + 1 = clrRankA o.q.desc
        then (v.doneAdd d 66 o.q.desc).clrLeave d o.num else v) := by
  refine ⟨_, rfl, ?_⟩
  change execGatherArrivalAdd d i r s = _
  simp only [execGatherArrivalAdd, ho, hkind, Nat.not_lt.mpr hall, Nat.not_le.mpr hr, hnew, hbusy, hread, ne_eq,
    not_true_eq_false, Bool.false_eq_true, or_self, if_false, List.length_cons, apply_ite Host.Outcome.next]

/-- An engine that issues accesses runs on its clock. -/
theorem fabClk_of_clrFree {s : State} {d : Nat} (hfree : clrFree s d = true) : s.fabClk d = true := by
  rw [clrFree, Bool.and_eq_true, Bool.and_eq_true] at hfree
  exact hfree.1.1

/-- Settles O24: the four beginnings are one lemma; a stage of a descriptor in flight is its arm with the descriptor, its
node or its slot found. -/
theorem clearingCommandsComplete : Obligations.ClearingCommandsComplete := by
  unfold Obligations.ClearingCommandsComplete
  intro d s
  refine ⟨fun r u hacc => next_regWr_of_accepted hacc _, ?begun, fun i o ho => ⟨fun r n hn hended => ?position,
      fun r t p k ws n hn ht hended hwaits hcredit hlate =>
        exec_creditAbandon_of_stalled ho hn ht hended hwaits hcredit hlate,
      fun r z hz hphase => ⟨fun hmore => ?slotSend, exec_slotHeaderWrite_of_idle ho hz hphase⟩,
      fun r z hz hphase => ?arrival,
      fun r e u hkind hall hr hnew hbusy hread => exec_gatherArrivalAdd_of_idle ho hkind hall hr hnew hbusy hread,
      fun hkind hphase hmin => ?fenceEnd, fun hkind hphase hall => ?arriveEnd⟩,
    fun k hfree => ?round, fun i r o n hn => ⟨fun hjudged hdue => ?deadline, fun hjudged hlate => ?stall⟩,
    fun f fs hfails hhalted hclk => ?retry, fun r f fs u hacc hhalted hfails => ?resume,
    fun r u hacc => ⟨_, next_regWr_of_accepted hacc _, ?abort⟩⟩
  case begun =>
    intro c n q qs hc hq hfree hhold hroom hready hkind hgood hlag hdue
    have hbegin := State.clrBegin_of_ready hq hfree hhold hroom hready hkind hgood hlag hdue
    simp only [List.mem_cons, Prod.mk.injEq, List.not_mem_nil, or_false] at hc
    rcases hc with ⟨rfl, rfl⟩ | ⟨rfl, rfl⟩ | ⟨rfl, rfl⟩ | ⟨rfl, rfl⟩
    all_goals exact congrArg Host.Outcome.next hbegin
  case position =>
    change execPositionSend d i r s = _
    simp only [execPositionSend, ho, hn, hended, Bool.false_eq_true, if_false]
  case slotSend =>
    change execDirectSlotSend d i r s = _
    simp only [execDirectSlotSend, ho, hz, hphase, hmore, and_self, if_true]
  case arrival =>
    change execArrivalCheck d i r s = _
    simp only [execArrivalCheck, ho, hz, hphase, if_false]
  case fenceEnd =>
    change execPermuteFenceEnd d i s = _
    simp only [execPermuteFenceEnd, ho, hkind, hphase, hmin, ne_eq, not_true_eq_false, if_false, if_true]
  case arriveEnd =>
    change execPermuteArriveEnd d i s = _
    simp only [execPermuteArriveEnd, ho, hkind, hphase, hall, ne_eq, not_true_eq_false, or_self, if_false, if_true]
  case round =>
    change execNodeRound d k s = _
    simp only [execNodeRound, fabClk_of_clrFree hfree, hfree, Bool.not_true, Bool.false_eq_true, if_false]
  case deadline =>
    change execClrDeadline d i r s = _
    simp only [execClrDeadline, hn, hjudged, hdue, Bool.not_true, Bool.or_self, Bool.false_eq_true, if_false]
  case stall =>
    change execClrStallLate d i r s = _
    simp only [execClrStallLate, hn, hjudged, hlate, and_self, if_true]
  case retry =>
    change execClrRetry d s = _
    simp only [execClrRetry, hfails, hhalted, hclk, Bool.not_true, Bool.or_self, Bool.false_eq_true, if_false]
  case resume =>
    refine (next_regWr_of_accepted hacc _).trans ?_
    simp only [State.clrResume, hhalted, hfails]
  case abort =>
    simp only [State.clrAbort, State.setClr, State.die_setDie_same, and_self]

end Sys2Proof.Machine
end

section
/-! Failure and recovery: where the causes of failure detection and the deadlines complete, and what each message of
recovery does where it is heard. -/

namespace Sys2Proof.Machine

/-- A member that has lost every port to an active station suspects it (R774). -/
theorem exec_suspectSend_of_lost {s : State} {st : Nat} (hrun : wardensRun s = true) (hactive : nbit st 15 = false)
    (hports : portsTo s st ≠ []) (hlost : (portsTo s st).all (portLost s) = true) (hnew : declared s st = false)
    (hunsent : s.m.fault.sent.filter (·.1 == st) = []) :
    exec (.suspectSend st) s = .next ((s.setFault { s.m.fault with sent := s.m.fault.sent.filter (·.1 != st) ++
      [(st, s.now)] }).sendTo (reserveOf st) (fltMsg s 0x11 (reserveOf st) (servedStation s)
        (leBytes 2 st ++ leBytes 1 (suspectCause s (portsTo s st))))) := by
  have hsome : (portsTo s st == []) = false := beq_eq_false_iff_ne.mpr hports
  change execSuspectSend st s = _
  simp only [execSuspectSend, hrun, hactive, hsome, hlost, hnew, hunsent, List.getLast?_nil, Bool.not_true, Bool.or_self,
    Bool.false_eq_true, if_false]

/-- The reserve of the own group, silent for long on every port, is lost (R778). -/
theorem exec_reserveLost_of_silent {s : State} (hrun : wardensRun s = true) (hactive : nbit (ownHome s) 15 = false)
    (hnew : s.m.fault.reserveLost = false) (hports : portsTo s (reserveOf (ownHome s)) ≠ [])
    (hlong : silentLong s (portsTo s (reserveOf (ownHome s))) = true)
    (hsilent : (portsTo s (reserveOf (ownHome s))).all (portSilent s) = true) :
    exec .reserveLost s = .next ((s.parityOff.wardenRaise 2).setFault { s.m.fault with reserveLost := true }) := by
  have hsome : (portsTo s (reserveOf (ownHome s)) == []) = false := beq_eq_false_iff_ne.mpr hports
  change execReserveLost s = _
  simp only [execReserveLost, hrun, hactive, hnew, hsome, hlong, hsilent, Bool.not_true, Bool.or_self, Bool.false_eq_true,
    if_false]

/-- The failure state reads as it was just set. -/
theorem State.fault_setFault (s : State) (x : FaultS) : (s.setFault x).m.fault = x := rfl

/-- Settles O25: each cause is its arm with the cause's conditions decided. -/
theorem failureDetectionCommandsComplete : Obligations.FailureDetectionCommandsComplete := by
  unfold Obligations.FailureDetectionCommandsComplete
  intro s
  refine ⟨fun why hrunning hholds => if_neg (by simp [hrunning, hholds]),
    fun st hrun hactive hports hlost hnew hunsent => exec_suspectSend_of_lost hrun hactive hports hlost hnew hunsent,
    fun y hy hst hlate => ⟨_, rfl, ?settle⟩, fun old v hold hover hv hserving => ?rebuilt,
    fun t ht hst hlate => ?coordinatorLate, fun y hno hy hst hstep hresumes hlate => ?memberLate,
    fun hrun hactive hnew hports hlong hsilent => exec_reserveLost_of_silent hrun hactive hnew hports hlong hsilent,
    fun hmember hsilent => if_pos (by simp [hmember, hsilent])⟩
  case settle =>
    change execDeclareSettle s = _
    simp only [execDeclareSettle, hy, hst, Nat.not_lt.mpr hlate, ne_eq, not_true_eq_false, or_self, if_false]
  case rebuilt =>
    change execRebuildDone s = _
    simp only [execRebuildDone, hold, hover, ← hv, State.fault_setFault, hserving, Bool.not_true, Bool.false_eq_true,
      if_false, if_true]
  case coordinatorLate =>
    change execRecoverTimeout s = _
    simp only [execRecoverTimeout, ht, hst, hlate, decide_true, and_self, if_true]
  case memberLate =>
    change execRecoverTimeout s = _
    simp only [execRecoverTimeout, hno, hy, hst, hstep, hresumes, hlate, Option.isNone_none, decide_true, and_self, if_true]

/-- A command that is one fault message comes to the message's effect, once the message is heard. -/
theorem next_fltReceive_of_heard {s u : State} {p : Nat} {m : List Byte} {typ : Nat} (h : Heard s p m typ u)
    (act : State → State) :
    (.next (s.fltReceive p m typ act) : Host.Outcome State Fault Refusal) = .next (act u) :=
  congrArg Host.Outcome.next (fltReceive_of_heard h act)

/-- Settles O26: a message that is heard acts on the state it leaves (`fltReceive_of_heard`); what it does there is decided
by the hypotheses. -/
theorem recoveryMessagesComplete : Obligations.RecoveryMessagesComplete := by
  unfold Obligations.RecoveryMessagesComplete
  intro p m s u
  refine ⟨fun v h hv => ?suspect, fun h hmay hgen => ?fail,
    fun h hmember => ⟨fun hself => ?fenced, fun hother hgen hnew => ?accepted⟩, fun h hcoord hgen hknown => ?ready,
    fun y h hy hst => ?restore, fun v h hcoord hgen hv => ?done, fun y v h hy hst hv => ?resume, fun h hpitch => ?stop,
    fun h hresult => ⟨_, rfl, ?join⟩, fun h hzero => ?joined⟩
  case suspect =>
    subst hv
    exact next_fltReceive_of_heard h _
  case fail => exact (next_fltReceive_of_heard h _).trans (congrArg _ (if_pos (by simp [hmay, hgen])))
  case fenced =>
    refine (next_fltReceive_of_heard h _).trans ?_
    simp only [hself, hmember, if_true]
  case accepted =>
    refine (next_fltReceive_of_heard h _).trans ?_
    simp only [hother, hmember, hgen, hnew, decide_true, Bool.not_false, Bool.and_self, if_true, if_false]
  case ready =>
    have hno : u.m.fault.declaredAt.isNone = false := by rw [Option.isNone_eq_false_iff]; exact hcoord
    have hcounted : ∀ n : Nat, ¬ (reserveOf (fltSrc m) = ownHome u ∧ (!declared u (fltSrc m)) = true ∧ leAt m 22 8 ≠ n) :=
      fun n ⟨hgroup, hunknown, _⟩ => by simp [hknown hgroup] at hunknown
    refine (next_fltReceive_of_heard h _).trans ?_
    simp only [hno, hgen, ne_eq, not_true_eq_false, decide_false, Bool.or_self, Bool.false_eq_true, if_false, hcounted]
  case restore =>
    refine (next_fltReceive_of_heard h _).trans ?_
    simp only [hy, hst, if_true]
  case done =>
    have hno : u.m.fault.declaredAt.isNone = false := by rw [Option.isNone_eq_false_iff]; exact hcoord
    subst hv
    refine (next_fltReceive_of_heard h _).trans ?_
    simp only [hno, hgen, ne_eq, not_true_eq_false, decide_false, Bool.or_self, Bool.false_eq_true, if_false]
  case resume =>
    subst hv
    refine (next_fltReceive_of_heard h _).trans ?_
    simp only [hy, hst, ne_eq, not_true_eq_false, if_false]
  case stop =>
    refine (next_fltReceive_of_heard h _).trans ?_
    simp only [State.stopAct, hpitch, ne_eq, not_true_eq_false, if_false]
  case join =>
    refine (next_fltReceive_of_heard h _).trans ?_
    simp only [hresult, if_true]
  case joined => exact (next_fltReceive_of_heard h _).trans (congrArg _ (if_pos hzero))

end Sys2Proof.Machine
end

section
/-! The Ethernet ports: where links, frames, neighbours, PTP, requests and the send queues complete. -/

namespace Sys2Proof.Machine

/-- A port that may come up does, and says what its medium is (R815, R820). -/
theorem exec_ethLinkUp_of_may {e : Fin 8} {s u : State} (o : Bool) (hmay : ethMay s e = true)
    (hu : u = (s.p (Reg.ethPortStatus e) Reg.ethPortStatus_up 1).p (Reg.ethPortStatus e) Reg.ethPortStatus_optical
      o.toNat) :
    exec (.ethLinkUp e o) s = .next u ∧ ethUp u e = true ∧
      u.g (Reg.ethPortStatus e) Reg.ethPortStatus_optical = o.toNat := by
  subst hu
  refine ⟨if_pos hmay, ?_, ?_⟩
  · rw [ethUp, State.on, State.g_p_apart _ _ _ _ _ (by decide) (.inl (by decide)), State.g_p _ _ _ _ (by decide)]
    rfl
  · rw [State.g_p _ _ _ _ (by decide)]
    cases o
    all_goals rfl

/-- A frame of a lawful size and tagging that arrives at a port that is up is counted and taken by its kind. -/
theorem exec_ethFrameReceive_of_up {e : Fin 8} {s u : State} {f : EthFrame} (hup : ethUp s e = true)
    (hbytes : f.bytes ≤ 9216) (htags : f.tags ≤ 1) (hu : u = s.inc64 (Reg.ethCntBytes e 1) f.bytes) :
    (f.kind = .own → exec (.ethFrameReceive e f) s = .next u) ∧
    (∀ (ok ce : Bool) (qp : Nat), f.kind = .roce ok ce qp → s.m.sec.recovery = false →
      exec (.ethFrameReceive e f) s = .next (u.roceTake e f ok ce qp)) ∧
    (∀ (prio : Nat) (on : Bool), f.kind = .pfc prio on →
      exec (.ethFrameReceive e f) s = .next (u.pfcTake e prio on)) := by
  have hlawful : ¬ (9216 < f.bytes ∨ 1 < f.tags) := by omega
  refine ⟨fun hkind => ?own, fun ok ce qp hkind hrec => ?roce, fun prio on hkind => ?pfc⟩
  case own =>
    change execEthFrameReceive e f s = _
    simp only [execEthFrameReceive, hup, if_neg hlawful, hkind, hu, Bool.not_true, Bool.false_eq_true, if_false]
  case roce =>
    change execEthFrameReceive e f s = _
    simp only [execEthFrameReceive, hup, if_neg hlawful, hkind, hrec, hu, Bool.not_true, Bool.false_eq_true, if_false]
  case pfc =>
    change execEthFrameReceive e f s = _
    simp only [execEthFrameReceive, hup, if_neg hlawful, hkind, hu, Bool.not_true, Bool.false_eq_true, if_false]

/-- A neighbour's message at a port that is up is answered, or its address kept among the last 64 (R818). -/
theorem exec_neighbourAnswer_of_up {e : Fin 8} {s : State} (peer : List Byte) (hup : ethUp s e = true) :
    exec (.neighbourAnswer e peer .resolve) s = .next (s.ethEmit e (.reply peer (ownMac s e)) 64) ∧
    (∀ pl : List Byte, exec (.neighbourAnswer e peer (.echo pl)) s =
      .next (s.ethEmit e (.reply peer pl) (max 64 (udpFrame s e peer pl.length)))) ∧
    (∀ (mac : List Byte) (l : List (List Byte × List Byte)),
      l = (ethPort s (e.val / 4 * 4)).nbr.filter (fun y => y.1 != peer) ++ [(peer, mac)] →
      exec (.neighbourAnswer e peer (.answer mac)) s =
        .next (s.setEth (e.val / 4 * 4) { ethPort s (e.val / 4 * 4) with nbr := l.drop (l.length - 64) })) := by
  have hrun : ¬ ((!ethUp s e) = true) := by simp [hup]
  refine ⟨if_neg hrun, fun pl => if_neg hrun, ?_⟩
  rintro mac l rfl
  exact if_neg hrun

/-- A PTP message at port 0 or 4 of a module that is not off: the stamps are kept, and the last message of an exchange
makes the measurement (R821, R822, R968). -/
theorem exec_ptpEvent_of_up {e : Fin 8} {s : State} (hup : ethUp s e = true) (he : e.val = 0 ∨ e.val = 4)
    (hst : s.m.st ≠ .off) :
    (∀ t1 : Nat, exec (.ptpEvent e (.sync t1)) s =
      .next (s.setTime { s.m.time with ptp := { t1 := t1, t2 := some s.now, t3 := none } })) ∧
    exec (.ptpEvent e .delayReq) s =
      .next ((s.setTime { s.m.time with ptp := { s.m.time.ptp with t3 := some s.now } }).ethEmit e (.ptpDelayReq s.now) 90) ∧
    (∀ t1 t2 t3 t4 : Nat, s.m.time.ptp = ⟨some t1, some t2, some t3⟩ → linkTime s = false →
      exec (.ptpEvent e (.delayResp t4)) s =
        .next ((s.setTime { s.m.time with ptp := ⟨none, none, none⟩ }).measure
          ((((t1 : Int) - t2) + ((t4 : Int) - t3)).fdiv 2))) := by
  have hrun : ¬ ((!ethUp s e || (e.val != 0 && e.val != 4) || s.m.st == .off) = true) := by
    rw [hup]
    rcases he with he | he
    all_goals simp [he, hst]
  refine ⟨fun t1 => if_neg hrun, if_neg hrun, fun t1 t2 t3 t4 hptp hlink => ?_⟩
  change execPtpEvent e (.delayResp t4) s = _
  simp only [execPtpEvent, if_neg hrun, hptp, hlink, Bool.false_eq_true, if_false]

/-- A write request is served where its region lets it in (R827, R828). -/
theorem exec_roceWrite_of_granted {e : Fin 8} {s v : State} {r : RoceReq} (hmeets : roceMeets s e r = true)
    (hgrants : mrGrants s r r.data.length true = true)
    (hwrite : (s.roceServed e r).writeSpan (.roce e) r.va r.data = (none, v)) :
    exec (.roceWrite e r) s = .next (v.ethEmit e (.ack r.qp) (roceFrames 4)) := by
  change execRoceWrite e r s = _
  simp only [execRoceWrite, hmeets, hgrants, hwrite, Bool.not_true, Bool.false_eq_true, if_false]

/-- A read request is served where its region lets it in (R827). -/
theorem exec_roceRead_of_granted {e : Fin 8} {s v : State} {r : RoceReq} {l : List (Option Byte)} {bs : List Byte}
    (hmeets : roceMeets s e r = true) (hgrants : mrGrants s r r.len false = true)
    (hread : (s.roceServed e r).readSpan (.roce e) r.va r.len = (l, v)) (hwhole : whole l = some bs) :
    exec (.roceRead e r) s = .next (v.ethEmit e (.readResp r.qp bs) (roceFrames r.len)) := by
  change execRoceRead e r s = _
  simp only [execRoceRead, hmeets, hgrants, hread, hwhole, Bool.not_true, Bool.false_eq_true, if_false]

/-- A SEND that fits a free buffer of its ring is written there, makes a request and is acknowledged (R829, R830). -/
theorem exec_roceSend_of_free {e : Fin 8} {s v : State} {r : RoceReq} {base n head size line : Nat}
    (hmeets : roceMeets s e r = true) (hbase : base = s.g (Reg.ethRing e r.qp) Reg.ethRing_base)
    (hn : n = s.g (Reg.ethRingCfg e r.qp) Reg.ethRingCfg_nbuf)
    (hhead : head = s.g (Reg.ethRingCfg e r.qp) Reg.ethRingCfg_head)
    (hsize : size = s.g (Reg.ethRingCfg e r.qp) Reg.ethRingCfg_buf_bytes * 64) (hline : line = e.val + 1)
    (hfits : r.data.length ≤ size) (hfree : s.g (Reg.dcpReq (addrDie base) (line / 8)) ⟨8 * (line % 8), 8⟩ < n)
    (hwrite : (s.roceServed e r).writeSpan (.roce e) (base + head * size) r.data = (none, v)) :
    exec (.roceSend e r) s = .next ((((v.p (Reg.ethRingCfg e r.qp) Reg.ethRingCfg_head ((head + 1) % n)).request true
      (addrDie base) 0 line).ethEmit e (.ack r.qp) (roceFrames 4)).planArrives) := by
  change execRoceSend e r s = _
  simp only [execRoceSend, hmeets, ← hbase, ← hn, ← hhead, ← hsize, ← hline, Nat.not_lt.mpr hfits, Nat.not_le.mpr hfree,
    hwrite, Bool.not_true, Bool.false_eq_true, if_false]

/-- The oldest request in flight, not a read, leaves the send queue: the head moves past it, and its tally takes one
(R387, R835). -/
theorem exec_sqEntryComplete_of_oldest {e : Fin 8} {s : State} {q : Fin 64} {x : QpS} {r : SqReq} {rs : List SqReq}
    (data : List Byte) (hx : qpOf s e q = some x) (herr : x.err = false) (hout : x.out = r :: rs) (hop : r.op ≠ 2) :
    exec (.sqEntryComplete e q data) s = .next ((((s.setQp e q { x with out := rs, sentAt := s.now, resends := 0 }).p
      (Reg.ethSqCfg e q) Reg.ethSqCfg_head ((r.entry + 1) % 65536)).addTally
        (addrDie (s.g (Reg.ethSq e q) Reg.ethSq_base)) 67 r.tally 1).sqPump e q 65536) := by
  change execSqEntryComplete e q data s = _
  simp only [execSqEntryComplete, hx, hout, herr, hop, Bool.false_eq_true, false_and, or_self, if_false]

/-- Settles O27: each clause is its command's lemma, or the arm with its conditions decided. -/
theorem ethernetCommandsComplete : Obligations.EthernetCommandsComplete := by
  unfold Obligations.EthernetCommandsComplete
  intro e s
  refine ⟨fun o u hmay hu => exec_ethLinkUp_of_may o hmay hu, fun hpower => if_neg fun ⟨hoff, hrec⟩ => hpower.elim (· hoff) (by simpa using hrec),
    fun f u hup hbytes htags hu => exec_ethFrameReceive_of_up hup hbytes htags hu,
    fun peer hup => exec_neighbourAnswer_of_up peer hup, fun hup he hst => exec_ptpEvent_of_up hup he hst,
    fun r u v hmeets hu => ?requests, fun q x hx => ⟨fun herr hout hlate => ?retransmit, ?cnp, fun hrate hlate => ?regain,
      fun r rs data herr hout hop => exec_sqEntryComplete_of_oldest data hx herr hout hop⟩,
    fun r v u hacc hroom => (next_regWr_of_accepted hacc _).trans (congrArg _ (if_neg (Nat.not_lt.mpr hroom)))⟩
  case requests =>
    subst hu
    refine ⟨fun hgrants hwrite => exec_roceWrite_of_granted hmeets hgrants hwrite,
      fun l bs hgrants hread hwhole => exec_roceRead_of_granted hmeets hgrants hread hwhole,
      fun hop => if_neg (by simp [hmeets, hop]),
      fun base n head size line hbase hn hhead hsize hline hfits hfree hwrite =>
        exec_roceSend_of_free hmeets hbase hn hhead hsize hline hfits hfree hwrite⟩
  case retransmit =>
    have hdue : ¬ (x.err = true ∨ x.out = [] ∨
        s.now < x.sentAt + 1000 * s.g (Reg.ethPortCfg e) Reg.ethPortCfg_ack_us) := by
      simp [herr, hout, hlate]
    change execRoceRetransmit e q s = _
    simp only [execRoceRetransmit, hx, if_neg hdue, apply_ite Host.Outcome.next]
  case cnp =>
    change execCnpReceive e q s = _
    simp only [execCnpReceive, hx]
  case regain =>
    change execRateRegain e q s = _
    simp only [execRateRegain, hx, Nat.not_le.mpr hrate, Nat.not_lt.mpr hlate, or_self, if_false]

end Sys2Proof.Machine
end

section
/-! Pitch messages and the happenings of a pitch: where each command completes. -/

namespace Sys2Proof.Machine

/-- A command that is one pitch message answers with what the message's action gives, once the message is taken. -/
theorem next_pitchIn_of_taken {s u v : State} {e t : Nat} {m : PitchMsg} {typ : Nat} {b : List Byte}
    {act : State → Nat × List Byte × State} (h : PitchTaken s e m typ u) (hact : act u = (t, b, v)) :
    (.next (s.pitchIn e m typ act) : Host.Outcome State Fault Refusal) = .next (v.replied e m t b) := by
  rw [pitchIn_of_taken h, hact]

/-- An OFFER that a module can read, with no pitch open and the module ready for one, is accepted (R843, R862). -/
theorem State.offerTake_of_ready {s : State} {e : Nat} {m : PitchMsg} {o : OfferBody} (hidle : pstate s = 0)
    (hready : notReady s = false)
    (hst : s.m.st = .ready ∨ s.m.st = .warmReserve ∨ (s.m.st = .standby ∧ flowBelow s = false))
    (hbody : offerOf m.body = some o) : s.offerTake e m = s.offerAccept e m o := by
  have hflow : ¬ (s.m.st = .standby ∧ flowBelow s = true) := by
    rintro ⟨hstandby, hlow⟩
    rcases hst with h | h | ⟨_, h⟩
    all_goals simp_all
  have hstate : ¬ (s.m.st ≠ .standby ∧ s.m.st ≠ .warmReserve ∧ s.m.st ≠ .ready) := by tauto
  simp only [State.offerTake, hidle, hready, ne_eq, not_true_eq_false, Bool.false_eq_true, if_false, if_neg hflow]
  simp only [← ne_eq, if_neg hstate, hbody]

/-- START of a loaded plan on a module in Ready that is no idle reserve (R398, R842). -/
theorem State.startTake_of_loaded {s : State} (hloading : pstate s = 1) (hloaded : s.m.pitch.loaded = true)
    (hplan : planLoaded s = true) (hst : s.m.st = .ready) (hserves : idleReserve s = false) :
    s.startTake = (0x84, ansBody 3 0,
      (((((s.setGen 1).setHolds 0).startSeqs.setMod .running).showState 1).pitchTo 2 0)) := by
  simp only [State.startTake, hloading, hloaded, hplan, hst, hserves, true_or, and_self, Bool.false_eq_true, if_false,
    if_true]

/-- END in Loading drains at once (R842, R844). -/
theorem State.endTake_of_loading {s : State} (cause : Nat) (hloading : pstate s = 1) :
    s.endTake cause = (0x84, ansBody 4 0, s.drain 1 true) := if_pos hloading

/-- END in Running, outside recovery, ends the run (R842, R846). -/
theorem State.endTake_of_running {s : State} (cause : Nat) (hrunning : pstate s = 2) (hst : s.m.st ≠ .recovery) :
    s.endTake cause = (0x84, ansBody 4 0, s.endRunning cause) := by
  simp only [State.endTake, hrunning, hst, OfNat.ofNat_ne_one, if_false, if_true]

/-- Settles O28: a message that is taken answers with its action's result; the happenings are their arms with the pitch's
state decided. -/
theorem pitchCommandsComplete : Obligations.PitchCommandsComplete := by
  unfold Obligations.PitchCommandsComplete
  intro s
  refine ⟨fun e m u => ⟨fun h => next_pitchIn_of_taken h rfl, fun h => ?tollGet,
      fun o t b v h hidle hready hst hbody haccept => ?offer, fun v h hloading hloaded hplan hst hserves hv => ?start,
      fun v h hloading hv => ?endLoading, fun v h hrunning hst hv => ?endRunning⟩,
    fun hpast hst => ⟨fun hloading => ?notAfterLoading, fun hrunning => ?notAfterRunning⟩,
    fun hrunning hst hnorm => if_pos ⟨hrunning, hst, hnorm⟩, fun hckpt => if_pos hckpt,
    fun u v hdraining hu hv => ?scrub, fun t u hdraining hscrubbed hsign => ?scrubEnd,
    fun hopen hlate => if_neg (by simp [hopen, hlate])⟩
  case tollGet =>
    refine next_pitchIn_of_taken h ?_
    cases u.m.flash.tolls.find? (fun t => leAt t 28 4 == leAt m.body 0 4) with
    | some t => rfl
    | none => rfl
  case offer => exact next_pitchIn_of_taken h ((State.offerTake_of_ready hidle hready hst hbody).trans haccept)
  case start =>
    subst hv
    exact next_pitchIn_of_taken h (State.startTake_of_loaded hloading hloaded hplan hst hserves)
  case endLoading =>
    subst hv
    exact next_pitchIn_of_taken h (State.endTake_of_loading _ hloading)
  case endRunning =>
    subst hv
    exact next_pitchIn_of_taken h (State.endTake_of_running _ hrunning hst)
  case notAfterLoading =>
    change execNotAfter s = _
    simp only [execNotAfter, Nat.not_le.mpr hpast, hst, or_self, hloading, if_false, if_true]
  case notAfterRunning =>
    change execNotAfter s = _
    simp only [execNotAfter, Nat.not_le.mpr hpast, hst, or_self, hrunning, OfNat.ofNat_ne_one, if_false, if_true]
  case scrub =>
    change execScrub s = _
    simp only [execScrub, hdraining, ne_eq, not_true_eq_false, if_false, ← hu, ← hv]
  case scrubEnd =>
    change execScrubEnd s = _
    simp only [execScrubEnd, hdraining, hscrubbed, hsign, ne_eq, not_true_eq_false, Bool.not_true, Bool.false_eq_true,
      or_self, if_false]

end Sys2Proof.Machine
end

section
/-! Start-up, restarts and the furnish flash: where each command completes. -/

namespace Sys2Proof.Machine

/-- The state in which phase 2 of a cold start chooses a slot: what COLD_START leaves from Off, with the verdicts `c` on
the two slots (R858, R1020, R1021). -/
def coldJudged (x : State) (c : Nat → Nat) : State :=
  let y := ((x.p Reg.secStatus Reg.secStatus_cause_a (c 0)).p Reg.secStatus Reg.secStatus_cause_b (c 1)).setPhase 2
  if (topFloor (floors y)).isNone then y.secRaise 3 else y

/-- A cold start from Off with its supply good judges both slots, and runs the one that phase 2 chooses (R858, R1022). -/
theorem exec_coldStart_of_off {s w x : State} {a b : Bool} {c : Nat → Nat} (hoff : s.m.st = .off)
    (hlow : s.m.pwr.low = false) (hshut : s.m.pwr.shut = false) (hw : w = s.coldReset.showFuses)
    (hx : x = (w.setPhase 1).p Reg.secVersion Reg.secVersion_floor (versionFloor w))
    (hc : c = (fun v => imageCause x v (if v = 0 then a else b) [0])) :
    exec (.coldStart a b) s = match (coldJudged x c).bootChoice (fun v => c v == 0) with
      | (none, z) => .next z.recovery
      | (some (v, mode), z) =>
        let u := ((z.p Reg.secStatus Reg.secStatus_slot v).p Reg.secStatus Reg.secStatus_trial
          (if mode = 2 then 1 else 0)).p Reg.secVersion Reg.secVersion_running (leAt (imageBlock z v 0) 8 4)
        .next ((if mode = 0 then u.raiseFloor v else u).startStandby a b) := by
  have hgo : ¬ (s.m.st ≠ .off ∨ s.m.pwr.low = true) := by simp [hoff, hlow]
  have hrun : ¬ s.m.pwr.shut = true := by simp [hshut]
  subst hw hx hc
  rw [exec]
  unfold execColdStart
  rw [if_neg hgo]
  dsimp only
  rw [if_neg hrun]
  unfold coldJudged
  generalize State.bootChoice _ _ = choice
  obtain ⟨_ | ⟨v, mode⟩, z⟩ := choice
  · rfl
  · rfl

/-- A request of R861 with the flow good: both dies power up, the rails take their voltage, the offsets are kept. -/
theorem exec_readyRequest_of_may {s : State} (offs : List Int) (hmay : mayLeave s = true) (hwant : s.m.boot.want = true)
    (hup : s.m.boot.up = false) (hflow : flowBelow s = false) :
    ∃ u v : State, exec (.readyRequest offs) s = .next u ∧
      v = (((s.setBoot { s.m.boot with up := true }).dieUp 0).dieUp 1).each (fun s r => s.setRail r (railMv r))
        ((List.range 17).drop 2) ∧
      u = v.setM { v.m with pwr := { v.m.pwr with offs := offs } } := by
  refine ⟨_, _, ?_, rfl, rfl⟩
  change execReadyRequest offs s = _
  simp only [execReadyRequest, hmay, hwant, hup, hflow, Bool.not_true, Bool.or_self, Bool.false_eq_true, if_false]

/-- Once phase 6 has ended, the wardens load when both of their sections verify, and nothing happens when one does not
(R861, R868, R1020). -/
theorem exec_wardenLoadDone_of_phase6 {s : State} (hphase : phase6 s = true) (hnew : s.m.boot.loaded = false) :
    exec .wardenLoadDone s = .next (
      if sectionCause s (s.g Reg.secStatus Reg.secStatus_slot) (imageBlock s (s.g Reg.secStatus Reg.secStatus_slot) 0) 1 = 0 ∧
         sectionCause s (s.g Reg.secStatus Reg.secStatus_slot) (imageBlock s (s.g Reg.secStatus Reg.secStatus_slot) 0) 2 = 0
      then (((s.setBoot { s.m.boot with loaded := true }).furnWrite.trainAll).setPhase 8).readyEnter else s) := by
  change execWardenLoadDone s = _
  split
  · rename_i hpass
    obtain ⟨hwarden, hshell⟩ := hpass
    simp only [execWardenLoadDone, hphase, hnew, hwarden, hshell, bne_self_eq_false, Bool.not_true, Bool.or_self,
      Bool.false_eq_true, if_false]
  · rename_i hfail
    have hstays : (sectionCause s (s.g Reg.secStatus Reg.secStatus_slot)
          (imageBlock s (s.g Reg.secStatus Reg.secStatus_slot) 0) 1 != 0 ||
        sectionCause s (s.g Reg.secStatus Reg.secStatus_slot)
          (imageBlock s (s.g Reg.secStatus Reg.secStatus_slot) 0) 2 != 0) = true := by
      rw [Bool.or_eq_true, bne_iff_ne, bne_iff_ne]
      exact not_and_or.mp hfail
    simp only [execWardenLoadDone, Bool.or_assoc, hstays, Bool.or_true, if_true]

/-- A reserve in Ready that serves no station enters Warm reserve (R862). -/
theorem exec_warmReserveEnter_of_ready {s : State} (hst : s.m.st = .ready) (hreserve : nbit (identStation s) 15 = true)
    (hidle : s.m.fault.serving = none) :
    ∃ u v : State, exec .warmReserveEnter s = .next (((v.setRail 2 650).setRail 3 650).showState 4) ∧
      u = (((s.setMod .warmReserve).tilesOff 0).tilesOff 1).each (fun s e => s.ethDown e) [1, 2, 3, 5, 6, 7] ∧
      v = ((u.pllsWarm 0).pllsWarm 1).setBoot { u.m.boot with warmNext := false } := by
  refine ⟨_, _, ?_, rfl, rfl⟩
  change execWarmReserveEnter s = _
  simp only [execWarmReserveEnter, hst, hreserve, hidle, ne_eq, not_true_eq_false, Bool.not_true, Option.isSome_none,
    Bool.false_eq_true, or_self, if_false]

/-- Within a second of phase 5 a trial image is committed when both of its later sections pass, and stays on trial when
one does not (R1023). -/
theorem exec_trialCommit_of_trial {s : State} {h : List Byte}
    (hh : h = imageBlock s (s.g Reg.secStatus Reg.secStatus_slot) 0)
    (htrial : s.on Reg.secStatus Reg.secStatus_trial = true) (hsoon : s.now ≤ s.m.sec.phase5 + 1000000000) :
    exec .trialCommit s = .next (
      if sectionCause s (s.g Reg.secStatus Reg.secStatus_slot) h 1 = 0 ∧
         sectionCause s (s.g Reg.secStatus Reg.secStatus_slot) h 2 = 0
      then ((((s.dirWrite (s.g Reg.secStatus Reg.secStatus_slot) 0 (leAt h 8 4)).floorWrite (leAt h 8 4)).fuseEpoch
        (byteAt h 6)).p Reg.secStatus Reg.secStatus_trial 0).secRaise 2 else s) := by
  change execTrialCommit s = _
  split
  · rename_i hpass
    obtain ⟨hwarden, hshell⟩ := hpass
    simp only [execTrialCommit, ← hh, htrial, Nat.not_lt.mpr hsoon, hwarden, hshell, ne_eq, not_true_eq_false, Bool.not_true,
      Bool.false_eq_true, or_self, if_false]
  · rename_i hfail
    rw [not_and_or] at hfail
    simp only [execTrialCommit, ← hh, ne_eq, hfail, or_true, if_true]

/-- A restart write with the key byte takes effect, unless a staging operation holds it back (R864, R866, R1031). -/
theorem State.restartWrite_of_key {s : State} (cold : Bool) {v : Word} (hkey : fld v 8 8 = 0xA5) :
    s.restartWrite cold v = if s.on Reg.secStatus Reg.secStatus_busy
      then s.setBoot { s.m.boot with restart := some cold } else if cold then s.restartCold else s.restartWarm :=
  if_neg (not_not.mpr hkey)

/-- An aligned command of the flash window, in Standby with the furnish read and the window free, takes effect
(R883, R885). -/
theorem State.flashCmd_of_aligned {s w : State} {v : Word} {op : Nat} (hst : s.m.st = .standby)
    (hphase : 4 ≤ s.g Reg.mgtStatus Reg.mgtStatus_phase) (hfree : s.on Reg.mgtFlashCmd Reg.mgtFlashCmd_busy = false)
    (hop : fld v 0 2 = op) (hcmd : op ≠ 0) (haligned : fld v 8 20 % (if op = 3 then 65536 else 256) = 0)
    (hw : w = ((s.p Reg.mgtFlashCmd Reg.mgtFlashCmd_offset (fld v 8 20)).p Reg.mgtFlashCmd Reg.mgtFlashCmd_op op).p
      Reg.mgtFlashCmd Reg.mgtFlashCmd_device (fld v 2 1)) :
    s.flashCmd v = (w.p Reg.mgtFlashCmd Reg.mgtFlashCmd_busy 1).flashDo op (fld v 2 1)
      (furnOff + w.g Reg.mgtFlashCmd Reg.mgtFlashCmd_offset / (if op = 3 then 65536 else 256) *
        (if op = 3 then 65536 else 256)) := by
  have hgo : ¬ (s.m.st ≠ .standby ∨ s.g Reg.mgtStatus Reg.mgtStatus_phase < 4 ∨
      s.on Reg.mgtFlashCmd Reg.mgtFlashCmd_busy = true) := by
    simp [hst, hfree, hphase]
  simp only [State.flashCmd, if_neg hgo, hop, haligned, if_true, ← hw, hcmd, if_false]

/-- Settles O29: a cold start is the choice of phase 2; the flash window's three commands are one lemma; every other
command is its arm with its conditions decided. -/
theorem startupAndFlashCommandsComplete : Obligations.StartupAndFlashCommandsComplete := by
  unfold Obligations.StartupAndFlashCommandsComplete
  intro s
  refine ⟨fun a b w x y z c k hoff hlow hshut hw hx hc hy hchoice => ?coldStart,
    fun offs hmay hwant hup hflow => exec_readyRequest_of_may offs hmay hwant hup hflow,
    fun hphase hnew => exec_wardenLoadDone_of_phase6 hphase hnew,
    fun hst hreserve hidle => exec_warmReserveEnter_of_ready hst hreserve hidle,
    fun r v u hacc hkey => ⟨fun hfree => ⟨?cold, ?warm⟩, fun hbusy => ?held⟩,
    fun h hh htrial hsoon => exec_trialCommit_of_trial hh htrial hsoon, ?flash, fun ok hbusy => if_pos hbusy⟩
  case coldStart =>
    have hjudged : (coldJudged x c).bootChoice (fun v => c v == 0) = (k, z) := by
      rw [← hchoice, hy]
      rfl
    rw [exec_coldStart_of_off hoff hlow hshut hw hx hc, hjudged]
    cases k with
    | none => exact ⟨s, rfl, fun v mode h => nomatch h⟩
    | some k =>
      obtain ⟨v, mode⟩ := k
      refine ⟨_, rfl, fun v' mode' h => ?_⟩
      cases h
      rfl
  case cold =>
    refine (next_regWr_of_accepted hacc _).trans (congrArg _ ?_)
    simp only [State.restartWrite_of_key true hkey, hfree, Bool.false_eq_true, if_false, if_true]
  case warm =>
    refine (next_regWr_of_accepted hacc _).trans (congrArg _ ?_)
    simp only [State.restartWrite_of_key false hkey, hfree, Bool.false_eq_true, if_false]
  case held =>
    refine (next_regWr_of_accepted hacc _).trans (congrArg _ ?_)
    simp only [State.restartWrite_of_key true hkey, hbusy, if_true]
  case flash =>
    intro r v c op u w hc hacc hst hphase hfree haligned hw
    have hop : fld (setFld v 0 2 op) 0 2 = op % 4 := fld_setFld v 0 2 op (by decide)
    have harm : exec c s = .next (s.flashOp r op v) ∧ op % 4 = op ∧ op ≠ 0 := by
      simp only [List.mem_cons, Prod.mk.injEq, List.not_mem_nil, or_false] at hc
      rcases hc with ⟨rfl, rfl⟩ | ⟨rfl, rfl⟩ | ⟨rfl, rfl⟩
      all_goals exact ⟨rfl, by decide, by decide⟩
    obtain ⟨harm, hmod, hcmd⟩ := harm
    rw [harm]
    exact (next_regWr_of_accepted hacc _).trans
      (congrArg _ (State.flashCmd_of_aligned hst hphase hfree (hop.trans hmod) hcmd haligned hw))

end Sys2Proof.Machine
end

section
/-! Feeds, rails, the power manager, telemetry and tile domains: where each command completes. -/

namespace Sys2Proof.Machine

/-- Bit `i` of a row of flags is flag `i`. -/
theorem testBit_flagBits (l : List Bool) (i : Nat) : (flagBits l).testBit i = l.getD i false := by
  induction l generalizing i with
  | nil => simp [flagBits]
  | cons b bs ih =>
    have hrow : flagBits (b :: bs) = Nat.bit b (flagBits bs) := by
      rw [Nat.bit_val, flagBits, Nat.add_comm]
    rw [hrow]
    cases i with
    | zero => rw [Nat.testBit_bit_zero]; rfl
    | succ i => rw [Nat.testBit_bit_succ, ih]; rfl

/-- A register's own bits, put in a row, are the register. -/
theorem ofNat_flagBits_getLsbD (v : Word) : BitVec.ofNat 64 (flagBits ((List.range 64).map v.getLsbD)) = v := by
  refine BitVec.eq_of_getLsbD_eq fun i hi => ?_
  rw [BitVec.getLsbD_ofNat, testBit_flagBits, List.getD_eq_getElem?_getD, List.getElem?_map, List.getElem?_range hi]
  simp [hi]

/-- Where no tile is busy, a write of PWR_TILE_ON leaves the register with the value written (R914, R915). -/
theorem State.rd_tileOnWrite_of_idle {s : State} {d : Nat} (hidle : ∀ t < 64, tileBusy s d t = false) (v : Word) :
    (s.tileOnWrite d v).rd (Reg.pwrTileOn d) = v := by
  have hnone : (List.range 64).any (fun t => (s.tileOn d t && !v.getLsbD t) && tileBusy s d t) = false := by
    rw [List.any_eq_false]
    intro t ht
    simp [hidle t (List.mem_range.mp ht)]
  have hkeep : (List.range 64).map (fun t => v.getLsbD t ||
      ((s.rd (Reg.pwrTileOn d)).getLsbD t && (s.tileOn d t && !v.getLsbD t) && tileBusy s d t)) =
      (List.range 64).map v.getLsbD := by
    refine List.map_congr_left fun t ht => ?_
    rw [hidle t (List.mem_range.mp ht), Bool.and_false, Bool.or_false]
  simp only [State.tileOnWrite, hnone, hkeep, Bool.false_eq_true, if_false, State.rd_wr, if_true, ofNat_flagBits_getLsbD]

/-- A one-bit field that was just written with a flag says it. -/
theorem State.on_p_toNat (s : State) (a : Nat) {f : RF} (hw : f.w = 1) (hlo : f.lo + f.w ≤ 64) (b : Bool) :
    (s.p a f b.toNat).on a f = b := by
  rw [State.on, State.g_p s a f _ hlo, hw]
  cases b
  all_goals rfl

/-- A one-bit field reads as before another field of the register was written. -/
theorem State.on_p_apart (s : State) (a : Nat) (f k : RF) (v : Nat) (h : k.lo + k.w ≤ 64)
    (ha : k.lo + k.w ≤ f.lo ∨ f.lo + f.w ≤ k.lo) : (s.p a f v).on a k = s.on a k := by
  rw [State.on, State.on, State.g_p_apart s a f k v h ha]

/-- After a telemetry sample, surge and sag say where the higher feed stands (R928, R929). -/
theorem exec_telemetrySample_of_aonOn {s : State} (t : Telem) (hon : aonOn s = true) :
    ∃ u, exec (.telemetrySample t) s = .next u ∧
      u.on Reg.pwrStatus Reg.pwrStatus_surge = decide (6000 < max t.mvA t.mvB) ∧
      u.on Reg.pwrStatus Reg.pwrStatus_sag = decide (3400 ≤ max t.mvA t.mvB ∧ max t.mvA t.mvB < 4000) := by
  have harm : ∃ w : State, exec (.telemetrySample t) s =
      .next ((w.p Reg.pwrStatus Reg.pwrStatus_surge (decide (6000 < max t.mvA t.mvB)).toNat).p Reg.pwrStatus
        Reg.pwrStatus_sag (decide (3400 ≤ max t.mvA t.mvB ∧ max t.mvA t.mvB < 4000)).toNat) := by
    change ∃ w : State, execTelemetrySample t s = _
    simp only [execTelemetrySample, hon, Bool.not_true, Bool.false_eq_true, if_false]
    exact ⟨_, rfl⟩
  obtain ⟨w, harm⟩ := harm
  refine ⟨_, harm, ?_, ?_⟩
  · rw [State.on_p_apart _ _ _ _ _ (by decide) (.inl (by decide)), State.on_p_toNat _ _ rfl (by decide)]
  · rw [State.on_p_toNat _ _ rfl (by decide)]

/-- The loss of one feed while the other stands is noted, counted and reported (R890). -/
theorem exec_feedLost_of_new {s : State} {f : Fin 2} (hon : aonOn s = true)
    (hnew : s.on (Reg.pwrFeed f) Reg.pwrFeed_lost = false)
    (hother : s.on (Reg.pwrFeed (1 - f.val)) Reg.pwrFeed_lost = false) :
    exec (.feedLost f) s = .next (((s.p (Reg.pwrFeed f) Reg.pwrFeed_lost 1).mbrk (Reg.pwrCnt32 1) 0x20 1 1).pwrRaise 0) :=
  if_neg (by simp [hon, hnew, hother])

/-- A fault opens a feed's switch, which latches at the third opening within 10 s (R899, R900). -/
theorem exec_feedFault_of_closed {s v w : State} {f : Fin 2} (hon : aonOn s = true)
    (hclosed : s.m.pwr.sw.contains f.val = false) (hv : v = s.openSwitch f)
    (hw : w = (v.setPwr { v.m.pwr with opens := v.m.pwr.opens ++ [(f.val, s.now)] }).pwrRaise 2) :
    exec (.feedFault f) s =
      .next (if feedLatched w.m.pwr f = true then w.p (Reg.pwrFeed f) Reg.pwrFeed_fault 1 else w) := by
  change execFeedFault f s = _
  simp only [execFeedFault, hon, hclosed, ← hv, ← hw, Bool.not_true, Bool.or_self, Bool.false_eq_true, if_false]

/-- A switch that is not latched closes 100 ms after it opened (R900). -/
theorem exec_feedReclose_of_late {s : State} {f : Fin 2} {t : Nat}
    (ht : ((s.m.pwr.opens.filter (fun y => y.1 == f.val)).map (·.2)).getLast? = some t)
    (hopen : s.m.pwr.sw.contains f.val = true) (hlatch : feedLatched s.m.pwr f = false)
    (hreverse : s.on (Reg.pwrFeed f) Reg.pwrFeed_reverse = false) (hlate : t + 100000000 ≤ s.now) :
    exec (.feedReclose f) s = .next (s.closeSwitch f) := by
  change execFeedReclose f s = _
  simp only [execFeedReclose, ht, hopen, hlatch, hreverse, Nat.not_lt.mpr hlate, Bool.not_true, Bool.false_eq_true, or_self,
    if_false]

/-- A step of the manager outside Off (R918 to R922). -/
theorem exec_managerStep_of_on {s v w : State} {k : Nat} (hst : s.m.st ≠ .off)
    (hk : k = (if overBound s ≠ 0 then max 4 (s.g Reg.pwrStretch Reg.pwrStretch_k_m - 1)
      else if released s = true ∧ s.g Reg.pwrStretch Reg.pwrStretch_k_m < 16
        then s.g Reg.pwrStretch Reg.pwrStretch_k_m + 1 else s.g Reg.pwrStretch Reg.pwrStretch_k_m))
    (hv : v = (let v0 := (s.p Reg.pwrStretch Reg.pwrStretch_cause (overBound s)).p Reg.pwrStretch Reg.pwrStretch_k_m k
      if s.g Reg.pwrStretch Reg.pwrStretch_k_m < k then v0.p Reg.pwrStatus Reg.pwrStatus_floor 0 else v0))
    (hw : w = (v.setPwr { v.m.pwr with floorAt := if k = 4 then some (s.m.pwr.floorAt.getD s.now) else none }).stretch) :
    exec .managerStep s = .next (if k < 16 then w.inc64 Reg.pwrCnt64 1 else w) := by
  change execManagerStep s = _
  rw [hw, hv]
  cases hat : s.m.pwr.floorAt
  all_goals
    simp only [execManagerStep, hst, if_false, Bool.and_eq_true, decide_eq_true_eq, ← hk, hat]
    rfl

/-- What a rail's fault brings down depends on what the rail feeds (R901 to R903). -/
theorem exec_railFault_of_on {s v : State} {r : Fin 17} (hon : aonOn s = true)
    (hv : v = ((s.p Reg.pwrStatus Reg.pwrStatus_rail_fault r).p Reg.pwrStatus Reg.pwrStatus_rail_fault_valid 1).pwrRaise 4) :
    exec (.railFault r) s = .next (if r.val < 2 then v.toOff else if r.val < 16 then v.holdStandby
      else v.each (fun s e => s.ethDown e) (List.range 8)) := by
  change execRailFault r s = _
  simp only [execRailFault, hon, ← hv, Bool.not_true, Bool.false_eq_true, if_false, apply_ite Host.Outcome.next]

/-- Settles O30: each command is its arm with its conditions decided; a telemetry sample and a write of PWR_TILE_ON go
through what they leave in their registers. -/
theorem powerCommandsComplete : Obligations.PowerCommandsComplete := by
  unfold Obligations.PowerCommandsComplete
  intro s
  refine ⟨fun f => ⟨exec_feedLost_of_new, rfl, fun hon hnew => if_neg (by simp [hon, hnew]),
      fun v w hon hclosed hv hw => exec_feedFault_of_closed hon hclosed hv hw,
      fun t ht hopen hlatch hreverse hlate => exec_feedReclose_of_late ht hopen hlatch hreverse hlate⟩,
    fun hon => if_pos hon, rfl, fun v hst hlow hv => ?brownout, fun hlow => if_pos hlow,
    fun r v hon hv => exec_railFault_of_on hon hv, fun r hon hlo hhi hnew => ?senseOpen,
    fun hon hnew => if_neg (by simp [hon, hnew]),
    fun k v w hst hk hv hw => exec_managerStep_of_on hst hk hv hw, fun t ht hlate hcause hnew => ?limitFloor,
    fun d hon => ⟨fun hdroop => if_neg (by simp [hon, hdroop]), rfl, if_pos hon⟩, fun v hshut hv => ?shutdown,
    fun hshut => if_pos hshut, fun t hon => exec_telemetrySample_of_aonOn t hon,
    fun r d v u hacc hidle => ⟨_, next_regWr_of_accepted hacc _, State.rd_tileOnWrite_of_idle hidle v⟩⟩
  case brownout =>
    have hbrown : s.brownout = v.setPwr { v.m.pwr with low := true } := by
      simp only [State.brownout, hst, hlow, Bool.false_eq_true, or_self, if_false, ← hv]
    exact ⟨congrArg Host.Outcome.next hbrown, congrArg Host.Outcome.next hbrown⟩
  case senseOpen => exact if_neg (by simp [hon, hhi, hnew]; omega)
  case limitFloor =>
    change execLimitFloor s = _
    simp only [execLimitFloor, ht, Nat.not_lt.mpr hlate, hcause, hnew, Bool.false_eq_true, or_self, if_false]
  case shutdown =>
    subst hv
    change execShutdown s = _
    simp only [execShutdown, hshut, Bool.false_eq_true, if_false, apply_ite Host.Outcome.next]

end Sys2Proof.Machine
end

section
/-! The time base and observability: where steps, slews, link time, samples, clears, snapshots and wardens' events
complete. -/

namespace Sys2Proof.Machine

/-- A request for link time that is due goes, with its sequence and the time (R971, R973). -/
theorem exec_timeReqSend_of_due {s : State} {q : Nat} (hlink : linkTime s = true)
    (hdue : s.m.time.sentAt + 1000000 * s.g Reg.timeCfg Reg.timeCfg_link_ms ≤ s.now)
    (hq : q = (s.m.time.seq + 1) % 65536) :
    exec .timeReqSend s = .next ((s.setTime { s.m.time with seq := q, sentAt := s.now }).scSend
      (s.g Reg.mckRefCfg Reg.mckRefCfg_ref_port) ([1, 10] ++ leBytes 2 q ++ leBytes 8 s.now)) := by
  change execTimeReqSend s = _
  simp only [execTimeReqSend, hlink, Nat.not_lt.mpr hdue, decide_false, Bool.not_true, Bool.or_self, Bool.false_eq_true,
    if_false, ← hq, refPort]

/-- A TIME_RESP is a measurement when it comes in time from the reference port, answers the last request and is of a
synchronised peer; otherwise it is counted (R974, R975). -/
theorem exec_timeResp_of_up {s u : State} {p : Port} {m : List Byte} {t1 t2 t3 rtt off : Int} (hstate : s.portState p = 5)
    (htyp : byteAt m 0 = 2) (ht1 : t1 = leAt m 4 8) (ht2 : t2 = leAt m 12 8) (ht3 : t3 = leAt m 20 8)
    (hrtt : rtt = (s.now - t1) - (t3 - t2)) (hoff : off = ((t2 - t1) - (s.now - t3)).fdiv 2)
    (hu : u = ((s.p Reg.timeLink Reg.timeLink_offset (encS 32 off)).p Reg.timeLink Reg.timeLink_rtt (encS 16 rtt)).p
      Reg.timeLink Reg.timeLink_seq (leAt m 2 2)) :
    exec (.timeResp p m) s = .next (
      if p.val = s.g Reg.mckRefCfg Reg.mckRefCfg_ref_port ∧ leAt m 2 2 = s.m.time.seq ∧
          rtt ≤ s.g Reg.timeCfg Reg.timeCfg_rtt_max_ns ∧ nbit (byteAt m 28) 0 = true
      then (if linkTime s = true then u.measure off else u) else s.mbrk (Reg.mckCnt32 1) 0x24 1 1) := by
  have hgo : ¬ (s.portState p ≠ 5 ∨ byteAt m 0 ≠ 2) := by simp [hstate, htyp]
  change execTimeResp p m s = _
  simp only [execTimeResp, if_neg hgo, ← ht1, ← ht2, ← ht3, ← hrtt, ← hoff, ← hu, refPort, apply_ite Host.Outcome.next]

/-- Settles O32: the writes are their effect once accepted; the messages of link time have lemmas of their own. -/
theorem timeCommandsComplete : Obligations.TimeCommandsComplete := by
  unfold Obligations.TimeCommandsComplete
  intro s
  refine ⟨fun r v u hacc hsync => ?step, fun r v u hacc => next_regWr_of_accepted hacc _,
    fun q hlink hdue hq => exec_timeReqSend_of_due hlink hdue hq,
    fun p m hstate => ⟨fun htyp => if_neg (by simp [hstate, htyp]),
      fun t1 t2 t3 rtt off u htyp ht1 ht2 ht3 hrtt hoff hu =>
        exec_timeResp_of_up hstate htyp ht1 ht2 ht3 hrtt hoff hu⟩,
    fun hlate hsync => ?unsync⟩
  case step => exact (exec_timeStep_of_accepted hacc v).trans (congrArg _ (if_neg (by simp [hsync])))
  case unsync =>
    change execTimeUnsync s = _
    simp only [execTimeUnsync, Nat.not_lt.mpr hlate, if_false, State.unsync, hsync, if_true]

/-- A warden's event code is raised with its four detail words (R1011). -/
theorem State.dobRaiseWrite_of_code {s : State} {x : Word} {n : Nat} (r : Requester) (d : Nat) (hn : n < 8)
    (hcode : fld x 0 16 = 0x3000 + n) :
    s.dobRaiseWrite r d x = s.raise ⟨0x30, 0, n⟩ (.die d)
      { source := r.wardenNo, detail := (List.range 4).map (fun i => s.rd (Reg.dobRaiseDetail d i)) } := by
  have hblock : (0x3000 + n) / 256 = 0x30 := by omega
  have hbit : (0x3000 + n) % 256 = n := by omega
  simp only [State.dobRaiseWrite, hcode, hblock, hbit, Nat.le_of_lt_succ hn, and_self, if_true]

/-- Settles O33: the writes are their effect once accepted; a sample is its arm on a die that is on with a period set. -/
theorem observabilityCommandsComplete : Obligations.ObservabilityCommandsComplete := by
  unfold Obligations.ObservabilityCommandsComplete
  intro s d
  refine ⟨fun t hon hperiod => ?tile, fun hon hperiod => ?wardens,
    fun r b u hacc => ⟨next_regWr_of_accepted hacc _, next_regWr_of_accepted hacc _⟩,
    fun r t u => ⟨fun hacc => next_regWr_of_accepted hacc _, fun v w x hacc hclass hv hw => ?opcCfg,
      fun hacc => next_regWr_of_accepted hacc _, fun hacc => next_regWr_of_accepted hacc _,
      fun x n hn hacc hcode => ?raised⟩⟩
  case tile =>
    change execPcSample d (some t) s = _
    simp only [execPcSample, hon, hperiod, Bool.not_true, Bool.false_eq_true, if_false]
  case wardens =>
    change execPcSample d none s = _
    simp only [execPcSample, hon, hperiod, Bool.not_true, Bool.false_eq_true, if_false]
  case opcCfg =>
    subst hw hv
    refine (next_regWr_of_accepted hacc _).trans (congrArg _ ?_)
    simp only [State.opcCfgWrite, hclass, if_true, State.opcClear]
  case raised => exact (next_regWr_of_accepted hacc _).trans (congrArg _ (State.dobRaiseWrite_of_code r d hn hcode))

end Sys2Proof.Machine
end

section
/-! Staging, the distribution of an image, recovery mode and debug access: where each command completes. -/

namespace Sys2Proof.Machine

/-- An op that R1030 does not refuse starts, and busy rises (R1029). -/
theorem State.stageStart_of_allowed {s : State} {op blk : Nat} (win : List Byte) (hallowed : stageRefused s op blk = false) :
    s.stageStart op blk win = (false, (s.stageDo op blk win).secP Reg.secStatus_busy 1) := by
  simp only [State.stageStart, hallowed, Bool.false_eq_true, if_false]

/-- A write of SEC_STAGE_CMD with an op from 1 to 5 that R1030 does not refuse. -/
theorem State.stageWrite_of_allowed {s w : State} {v : Word} {op n : Nat} (hop : fld v 0 3 = op) (hlo : op ≠ 0)
    (hhi : op < 6) (hn : n = fld v 16 12) (hw : w = s.p Reg.secStageCmd Reg.secStageCmd_block_no n)
    (hallowed : stageRefused w op n = false) :
    s.stageWrite v = (w.stageDo op n (stageWindow w)).secP Reg.secStatus_busy 1 := by
  have hreal : ¬ (op = 0 ∨ 6 ≤ op) := by omega
  simp only [State.stageWrite, hop, ← hn, ← hw, if_neg hreal, State.stageStart_of_allowed _ hallowed]

/-- When a staging op ends and no restart waits for it, the state is what the distribution makes of the result. -/
theorem exec_stageOpEnd_of_noRestart {s u v : State} {ok : Bool} {op blk c : Nat} (hop : s.m.sec.op = some (op, blk))
    (hend : s.stageEnd op blk ok = (c, u)) (hv : v = u.fwStaged c) (hrestart : v.m.boot.restart = none) :
    exec (.stageOpEnd ok) s = .next v := by
  change execStageOpEnd ok s = _
  simp only [execStageOpEnd, hop, hend, ← hv, hrestart]

/-- When a staging op ends, a cold restart that it held back follows (R1031). -/
theorem exec_stageOpEnd_of_restart {s u v : State} {ok : Bool} {op blk c : Nat} (hop : s.m.sec.op = some (op, blk))
    (hend : s.stageEnd op blk ok = (c, u)) (hv : v = u.fwStaged c) (hrestart : v.m.boot.restart = some true)
    (hfree : v.on Reg.secStatus Reg.secStatus_busy = false) :
    exec (.stageOpEnd ok) s = .next (v.setBoot { v.m.boot with restart := none }).restartCold := by
  change execStageOpEnd ok s = _
  simp only [execStageOpEnd, hop, hend, ← hv, hrestart, hfree, Bool.false_eq_true, if_false, if_true]

/-- FW_START is refused during a pitch (R1032). -/
theorem exec_fwStart_of_pitch {s : State} {p : Port} {m : List Byte} (htyp : byteAt m 0 = 0x20) (hrun : wardensRun s = true)
    (hpitch : pstate s ≠ 0) : exec (.fwStart p m) s = .next (s.scSend p (fwAck 0xFFFF 2)) := by
  change execFwStart p m s = _
  simp only [execFwStart, htyp, hrun, ne_eq, not_true_eq_false, Bool.not_true, Bool.false_eq_true, or_self, if_false,
    hpitch, not_false_eq_true, true_or, if_true]

/-- FW_START of another image than the running one, outside a pitch and a staging op, is taken and sent on (R1032). -/
theorem exec_fwStart_of_new {s u : State} {p : Port} {m : List Byte} {l : List Nat} (htyp : byteAt m 0 = 0x20)
    (hrun : wardensRun s = true) (hpitch : pstate s = 0) (hfree : s.on Reg.secStatus Reg.secStatus_busy = false)
    (hnew : slice m 5 32 ≠ headerDigest (imageBlock s (s.g Reg.secStatus Reg.secStatus_slot) 0))
    (hl : l = fwPorts s (leAt m 2 2) (byteAt m 4))
    (hu : u = s.setDist { DistS.reset with
      src := some p.val, origin := leAt m 2 2, dirs := byteAt m 4, digest := slice m 5 32,
      peers := l.map (fun q => { port := q, started := false, sent := 0, acked := 0, finished := false, stopped := false }) }) :
    exec (.fwStart p m) s = .next ((u.scSend p (fwAck 0xFFFF 0)).each (fun s q => s.scSend q m) l) := by
  change execFwStart p m s = _
  simp only [execFwStart, htyp, hrun, ne_eq, not_true_eq_false, Bool.not_true, Bool.false_eq_true, or_self, if_false,
    hpitch, hfree, hnew, ← hl, ← hu]

/-- FW_DATA in order joins the block (R1033). -/
theorem exec_fwData_of_inOrder {s : State} {p : Port} {m : List Byte} (htyp : byteAt m 0 = 0x22)
    (hsrc : s.m.dist.src = some p.val)
    (hblk : leAt m 2 2 = s.m.dist.staged + (if s.m.dist.op = some 1 then 1 else 0))
    (hoff : leAt m 4 2 = s.m.dist.buf.length) (hroom : s.m.dist.buf.length < 4096) :
    exec (.fwData p m) s = .next (s.setDist { s.m.dist with
      buf := s.m.dist.buf ++ slice m 6 (min (byteAt m 1 - 4) (4096 - s.m.dist.buf.length)) }).fwStage := by
  have hmine : ¬ (byteAt m 0 ≠ 0x22 ∨ s.m.dist.src ≠ some p.val) := by simp [htyp, hsrc]
  change execFwData p m s = _
  simp only [execFwData, if_neg hmine]
  exact if_pos ⟨hblk, hoff, hroom⟩

/-- FW_ACK of a receiver: result 2 stops it, and 0 of its next block advances it (R1033). -/
theorem exec_fwAck_of_peer {s : State} {p : Port} {m : List Byte} {x y : FwPeer} (htyp : byteAt m 0 = 0x21)
    (hrun : wardensRun s = true) (hx : s.m.dist.peers.find? (fun z => z.port == p.val) = some x) :
    (byteAt m 4 = 2 → exec (.fwAck p m) s = .next (s.fwPeer p { x with stopped := true })) ∧
    (byteAt m 4 = 0 → leAt m 2 2 ≠ 0xFFFF → leAt m 2 2 = x.acked → y = { x with acked := x.acked + 1 } →
      exec (.fwAck p m) s = .next ((s.fwPeer p y).fwPump y 3)) := by
  refine ⟨fun hstop => ?stop, fun hgood hblk hnext hy => ?next⟩
  case stop =>
    change execFwAck p m s = _
    simp only [execFwAck, htyp, hrun, ne_eq, not_true_eq_false, Bool.not_true, Bool.false_eq_true, or_self, if_false, hx,
      hstop, if_true]
  case next =>
    subst hy
    change execFwAck p m s = _
    rw [hnext] at hblk
    simp only [execFwAck, htyp, hrun, ne_eq, not_true_eq_false, Bool.not_true, Bool.false_eq_true, or_self, if_false, hx,
      hgood, hblk, hnext, if_true, OfNat.zero_ne_ofNat, zero_ne_one]

/-- Settles O34: the five ops are one lemma on the write of SEC_STAGE_CMD; each message has a lemma of its own. -/
theorem stagingCommandsComplete : Obligations.StagingCommandsComplete := by
  unfold Obligations.StagingCommandsComplete
  intro s
  refine ⟨?stage, fun ok op blk c u v hop hend hv => ⟨exec_stageOpEnd_of_noRestart hop hend hv,
      exec_stageOpEnd_of_restart hop hend hv⟩,
    fun p m => ⟨fun htyp hrun => ⟨exec_fwStart_of_pitch htyp hrun,
        fun l u hpitch hfree hnew hl hu => exec_fwStart_of_new htyp hrun hpitch hfree hnew hl hu⟩,
      exec_fwData_of_inOrder, fun x y htyp hrun hx => exec_fwAck_of_peer htyp hrun hx,
      fun htyp hsrc hallowed => ⟨_, ?fwDone, rfl⟩⟩,
    fun hrec hup => ⟨_, ?hello, rfl⟩, fun m n c u htakes hn hwhole => ?block, fun m htakes => if_neg (by simp [htakes])⟩
  case stage =>
    intro r v u w n op c hacc hc hn hw hallowed
    have hop : fld (setFld v 0 3 op) 0 3 = op % 8 := fld_setFld v 0 3 op (by decide)
    have harm : exec c s = .next (s.stageOp r op v) ∧ op % 8 = op ∧ op ≠ 0 ∧ op < 6 := by
      simp only [List.mem_cons, Prod.mk.injEq, List.not_mem_nil, or_false] at hc
      rcases hc with ⟨rfl, rfl⟩ | ⟨rfl, rfl⟩ | ⟨rfl, rfl⟩ | ⟨rfl, rfl⟩ | ⟨rfl, rfl⟩
      all_goals exact ⟨rfl, by decide, by decide, by decide⟩
    obtain ⟨harm, hmod, hlo, hhi⟩ := harm
    rw [harm]
    exact (next_regWr_of_accepted hacc _).trans
      (congrArg _ (State.stageWrite_of_allowed (hop.trans hmod) hlo hhi hn hw hallowed))
  case fwDone =>
    change execFwDone p m s = _
    simp only [execFwDone, htyp, hsrc, ne_eq, not_true_eq_false, or_self, if_false, State.stageStart_of_allowed _ hallowed]
  case hello => exact if_neg (by simp [hrec, hup])
  case block =>
    subst hn
    change execRecoveryBlock m s = _
    simp only [execRecoveryBlock, htakes, Bool.not_true, Bool.false_eq_true, if_false, hwhole]

/-- Settles O35: the writes of SEC_DBG_CTL are their effect once accepted. -/
theorem debugCommandsComplete : Obligations.DebugCommandsComplete := by
  unfold Obligations.DebugCommandsComplete
  intro s
  refine ⟨fun r u hacc => ⟨fun v hv => ?newChal, fun v hv => ?check, fun hmethod hset hopen => ?pwWrite⟩, fun ir => ?jtag⟩
  case newChal =>
    subst hv
    exact next_regWr_of_accepted hacc _
  case check =>
    subst hv
    refine (next_regWr_of_accepted hacc _).trans ?_
    simp only [State.dbgCheck, Bool.and_eq_true]
  case pwWrite => rw [exec_dbgPwWrite_of_accepted hacc, State.pwWrite_of_allowed hmethod hset hopen]
  case jtag =>
    cases ir
    all_goals rfl

end Sys2Proof.Machine
end

section
/-! Sensors, connectors, the UART, the identity memory and the last pins: where each command completes. -/

namespace Sys2Proof.Machine

/-- A change of a cage's presence signal seats or unseats it; a pluggable of high power is held in low power and its port
goes down (R1078, R1079). -/
theorem exec_cagePresent_of_on {s u v : State} {e : Fin 8} {seated hp : Bool} (hon : aonOn s = true)
    (hu : u = s.connSeat (.cage e) seated) (hv : v = u.setEth e { ethPort u e with lowPower := seated && hp }) :
    exec (.cagePresent e seated hp) s = .next (if (seated && hp) = true then (v.ethDown e).ethRaise e 0 else v) := by
  change execCagePresent e seated hp s = _
  simp only [execCagePresent, hon, Bool.not_true, Bool.false_eq_true, if_false, ← hu, ← hv]

/-- A supply that switches off for overcurrent takes its port down (R1077). -/
theorem exec_sensConnPower_of_tripped {s u : State} {c : ConnId} (hpresent : s.on Reg.mgtConn c.present = true)
    (hnew : s.on Reg.mgtConn c.off = false) (hu : u = (s.p Reg.mgtConn c.off 1).sensRaise 3) :
    exec (.sensConnPower c) s = .next (match (generalizing := false) c with
      | .cable p => if u.dieOn (portDie p) = true then u.portDown p else u
      | .cage e => (u.ethDown e).ethRaise e 0) := by
  change execSensConnPower c s = _
  simp only [execSensConnPower, hpresent, hnew, Bool.not_true, Bool.or_self, Bool.false_eq_true, if_false, ← hu]
  cases c
  all_goals rfl

/-- A coolant reading that has stood above its limit for 1 s is noted and reported (R1069). -/
theorem exec_sensCoolantHot_of_stood {s : State} (outlet : Bool)
    (hstood : stood s.now (if outlet then s.m.sens.outlet else s.m.sens.inlet) 1 = true)
    (hnew : s.on Reg.mgtSensStatus
      (if outlet then Reg.mgtSensStatus_outlet_high else Reg.mgtSensStatus_inlet_high) = false) :
    exec (.sensCoolantHot outlet) s = .next ((s.p Reg.mgtSensStatus
      (if outlet then Reg.mgtSensStatus_outlet_high else Reg.mgtSensStatus_inlet_high) 1).sensRaise 2) := by
  change execSensCoolantHot outlet s = _
  simp only [execSensCoolantHot, hstood, hnew, Bool.not_true, Bool.or_self, Bool.false_eq_true, if_false]

/-- Settles O36: each command is its arm with its conditions decided. -/
theorem sensorAndPinCommandsComplete : Obligations.SensorAndPinCommandsComplete := by
  unfold Obligations.SensorAndPinCommandsComplete
  intro s
  refine ⟨fun x u v hst hu hv => ?sample, fun hstood hnew => if_neg (by simp [hstood, hnew]),
    exec_sensCoolantHot_of_stood false, exec_sensCoolantHot_of_stood true, fun d hon hblind => if_neg (by simp [hon, hblind]),
    fun hon seated => ⟨fun p => if_pos hon, fun e hp u v hu hv => exec_cagePresent_of_on hon hu hv⟩,
    fun c u hpresent hnew hu => exec_sensConnPower_of_tripped hpresent hnew hu,
    fun m hst hlen hhead => if_neg (by simp [hst, hlen, hhead]), fun off n => rfl, rfl, fun p hidle => if_pos hidle⟩
  case sample =>
    subst hv hu
    exact if_neg hst

end Sys2Proof.Machine
end

section
/-! Little-endian bytes and packed elements (R3, R34, R35): a number's bytes, read back, are the number. -/

namespace Sys2Proof.Machine

/-- The bytes of a number spell its low bytes (R3). -/
theorem leNat_leBytes (n v : Nat) : leNat (leBytes n v) = v % 256 ^ n := by
  induction n generalizing v with
  | zero => rw [Nat.pow_zero, Nat.mod_one]; rfl
  | succ n ih =>
    have hlow : (BitVec.ofNat 8 v).toNat = v % 256 := BitVec.toNat_ofNat _ _
    have hpow : (256 : Nat) ^ (n + 1) = 256 * 256 ^ n := Nat.pow_succ'
    rw [leBytes, leNat, ih, hlow, hpow, Nat.mod_mul]

/-- The number that bytes spell has those bytes (R3). -/
theorem leBytes_leNat (bs : List Byte) : leBytes bs.length (leNat bs) = bs := by
  induction bs with
  | nil => rfl
  | cons b bs ih =>
    have hb : b.toNat < 256 := b.isLt
    have hlow : BitVec.ofNat 8 (leNat (b :: bs)) = b := by
      refine BitVec.eq_of_toNat_eq ?_
      rw [BitVec.toNat_ofNat, leNat]
      omega
    have hhigh : leNat (b :: bs) / 256 = leNat bs := by
      rw [leNat]
      omega
    rw [List.length_cons, leBytes, hlow, hhigh, ih]

/-- Byte `i` of a number's bytes (R3). -/
theorem byteAt_leBytes {n i : Nat} (v : Nat) (hi : i < n) : byteAt (leBytes n v) i = v / 256 ^ i % 256 := by
  induction n generalizing v i with
  | zero => omega
  | succ n ih =>
    cases i with
    | zero => rw [Nat.pow_zero, Nat.div_one]; exact BitVec.toNat_ofNat _ _
    | succ i =>
      have hrest : byteAt (leBytes (n + 1) v) (i + 1) = byteAt (leBytes n (v / 256)) i := rfl
      rw [hrest, ih _ (by omega), Nat.div_div_eq_div_mul, Nat.pow_succ']

/-- Settles O45: the three lemmas on a number's bytes. -/
theorem littleEndianReadsBack : Obligations.LittleEndianReadsBack := by
  unfold Obligations.LittleEndianReadsBack
  exact ⟨fun n v => ⟨leBytes_length n v, leNat_leBytes n v⟩, leBytes_leNat, fun n v i hi => byteAt_leBytes v hi⟩

/-- The low bytes of a number's bytes are the bytes of the number. -/
theorem take_leBytes {k n : Nat} (v : Nat) (hk : k ≤ n) : (leBytes n v).take k = leBytes k v := by
  induction k generalizing n v with
  | zero => rfl
  | succ k ih =>
    cases n with
    | zero => omega
    | succ n => rw [leBytes, List.take_succ_cons, leBytes, ih _ (Nat.le_of_succ_le_succ hk)]

/-- The high bytes of a number's bytes are the bytes of its quotient. -/
theorem drop_leBytes (i n v : Nat) : (leBytes n v).drop i = leBytes (n - i) (v / 256 ^ i) := by
  induction i generalizing n v with
  | zero => rw [Nat.pow_zero, Nat.div_one]; rfl
  | succ i ih =>
    cases n with
    | zero => rw [Nat.zero_sub]; rfl
    | succ n => rw [leBytes, List.drop_succ_cons, ih, Nat.div_div_eq_div_mul, Nat.pow_succ', Nat.add_sub_add_right]

/-- A range of a number's bytes, read back. -/
theorem leAt_leBytes {i k n : Nat} (v : Nat) (h : i + k ≤ n) : leAt (leBytes n v) i k = v / 256 ^ i % 256 ^ k := by
  rw [leAt, drop_leBytes, take_leBytes _ (by omega), leNat_leBytes]

/-- The number whose `b`-bit digits, lowest first, are the elements packed (R34, R35). -/
def packNat (b : Nat) (es : List Nat) : Nat := es.foldr (fun e acc => e % 2 ^ b + 2 ^ b * acc) 0

/-- Digit `j` of the packed number is element `j`. -/
theorem packNat_digit {b j : Nat} {es : List Nat} (hes : ∀ e ∈ es, e < 2 ^ b) (hj : j < es.length) :
    packNat b es / 2 ^ (b * j) % 2 ^ b = es[j] := by
  induction es generalizing j with
  | nil => exact absurd hj (Nat.not_lt_zero j)
  | cons e es ih =>
    have he : e < 2 ^ b := hes e List.mem_cons_self
    have hcons : packNat b (e :: es) = e + 2 ^ b * packNat b es := by
      rw [packNat, List.foldr_cons, Nat.mod_eq_of_lt he]; rfl
    cases j with
    | zero => rw [hcons, Nat.mul_zero, Nat.pow_zero, Nat.div_one, Nat.add_mul_mod_self_left, Nat.mod_eq_of_lt he]; rfl
    | succ j =>
      have hdigit := ih (fun x hx => hes x (List.mem_cons_of_mem e hx)) (Nat.lt_of_succ_lt_succ hj)
      rw [hcons, Nat.mul_succ, Nat.add_comm (b * j), Nat.pow_add, ← Nat.div_div_eq_div_mul,
        Nat.add_mul_div_left _ _ (Nat.two_pow_pos b), Nat.div_eq_of_lt he, Nat.zero_add, hdigit]
      rfl

/-- A field inside one byte of a number is a field of the number. -/
theorem nfld_byte {v i r b : Nat} (h : r + b ≤ 8) :
    nfld (v / 256 ^ i % 256) r b = v / 2 ^ (8 * i + r) % 2 ^ b := by
  have hbyte : (256 : Nat) ^ i = 2 ^ (8 * i) := by rw [Nat.pow_mul]
  refine Nat.eq_of_testBit_eq fun k => ?_
  rw [nfld, hbyte, show (256 : Nat) = 2 ^ 8 from rfl, Nat.testBit_mod_two_pow, Nat.testBit_mod_two_pow, Nat.testBit_shiftRight,
    Nat.testBit_mod_two_pow, ← Nat.shiftRight_eq_div_pow, ← Nat.shiftRight_eq_div_pow, Nat.testBit_shiftRight,
    Nat.testBit_shiftRight]
  by_cases hk : k < b
  · simp only [hk, decide_true, Bool.true_and, show r + k < 8 by omega, Nat.add_assoc]
  · simp only [hk, decide_false, Bool.false_and]

/-- Element `j` of packed elements, read where R34 and R35 put it. -/
theorem packedAt_pack {b j : Nat} {es : List Nat} (hb : b ∈ [1, 2, 4, 8, 16]) (hes : ∀ e ∈ es, e < 2 ^ b)
    (hlen : es.length * b % 8 = 0) (hj : j < es.length) : packedAt (pack b es) b j = es[j] := by
  have hpack : pack b es = leBytes (es.length * b / 8) (packNat b es) := rfl
  have hfit : (j + 1) * b ≤ es.length * b := Nat.mul_le_mul_right b hj
  rw [Nat.succ_mul] at hfit
  rw [← packNat_digit hes hj, packedAt, hpack]
  by_cases h16 : b = 16
  · subst h16
    have hpow : (256 : Nat) ^ (2 * j) = 2 ^ (16 * j) := by
      rw [show (256 : Nat) = 2 ^ 8 from rfl, ← Nat.pow_mul, ← Nat.mul_assoc]
    rw [if_pos rfl, leAt_leBytes _ (by omega), hpow, show (256 : Nat) ^ 2 = 2 ^ 16 from rfl]
  · have hin : j * b % 8 + b ≤ 8 ∧ 0 < b := by
      simp only [List.mem_cons, List.not_mem_nil, or_false] at hb
      rcases hb with rfl | rfl | rfl | rfl | rfl
      all_goals omega
    obtain ⟨hin, hpos⟩ := hin
    have hbit : 8 * (j * b / 8) + j * b % 8 = b * j := by rw [Nat.div_add_mod, Nat.mul_comm]
    rw [if_neg h16, byteAt_leBytes _ (by omega), nfld_byte hin, hbit]

/-- All elements of `b` bits are read byte by byte, in order, where `k` of them fill a byte. -/
theorem flatMap_eq_map_packedAt {b k : Nat} (hb : b ≠ 16) (hk : k * b = 8) (bs : List Byte) :
    bs.flatMap (fun x => (List.range k).map (fun i => nfld x.toNat (i * b) b)) =
      (List.range (bs.length * k)).map (packedAt bs b) := by
  induction bs with
  | nil => rw [List.length_nil, Nat.zero_mul]; rfl
  | cons x bs ih =>
    rw [List.flatMap_cons, ih, List.length_cons, Nat.succ_mul, Nat.add_comm (bs.length * k), List.range_add, List.map_append,
      List.map_map]
    congr 1
    · refine List.map_congr_left fun i hi => ?_
      have hlt : i * b < 8 := by
        rw [← hk]
        exact Nat.mul_lt_mul_of_pos_right (List.mem_range.mp hi) (Nat.pos_of_mul_pos_left (by omega : 0 < k * b))
      rw [packedAt, if_neg hb, Nat.div_eq_of_lt hlt, Nat.mod_eq_of_lt hlt]
      rfl
    · refine List.map_congr_left fun j _ => ?_
      have hbit : (k + j) * b = j * b + 8 := by rw [Nat.add_mul, hk, Nat.add_comm]
      rw [Function.comp_apply, packedAt, packedAt, if_neg hb, if_neg hb, hbit, Nat.add_mod_right, Nat.add_div_right _ (by decide)]
      rfl

/-- All elements of packed bytes are the elements one by one. -/
theorem unpack_eq_map_packedAt {b : Nat} (hb : b ∈ [1, 2, 4, 8, 16]) (bs : List Byte) :
    unpack bs b = (List.range (bs.length * 8 / b)).map (packedAt bs b) := by
  by_cases h16 : b = 16
  · subst h16
    have hlen : bs.length / 2 = bs.length * 8 / 16 := by omega
    rw [unpack, if_pos rfl, hlen]
    rfl
  · have hk : 8 / b * b = 8 ∧ bs.length * 8 / b = bs.length * (8 / b) := by
      simp only [List.mem_cons, List.not_mem_nil, or_false] at hb
      rcases hb with rfl | rfl | rfl | rfl | rfl
      all_goals omega
    rw [unpack, if_neg h16, flatMap_eq_map_packedAt h16 hk.1, hk.2]

/-- Settles O42: element `j` is digit `j` of the packed number, wherever the byte border falls. -/
theorem packedElementsReadBack : Obligations.PackedElementsReadBack := by
  unfold Obligations.PackedElementsReadBack
  intro b hb es hes hlen
  have hat := fun j hj => packedAt_pack (j := j) hb hes hlen hj
  refine ⟨?_, hat⟩
  have hcount : (pack b es).length * 8 / b = es.length := by
    have hpos : 0 < b := by
      simp only [List.mem_cons, List.not_mem_nil, or_false] at hb
      omega
    rw [pack, leBytes_length, Nat.div_mul_cancel (Nat.dvd_of_mod_eq_zero hlen), Nat.mul_div_cancel _ hpos]
  rw [unpack_eq_map_packedAt hb, hcount]
  refine List.ext_getElem (by rw [List.length_map, List.length_range]) fun j hj hj' => ?_
  rw [List.getElem_map, List.getElem_range, hat j hj']

end Sys2Proof.Machine
end

section
/-! Single-byte errors of the Reed-Solomon codes (R447, R448): α has order 255, so the powers of α below a code word's
length are distinct and the syndromes of one bad byte show its position. -/

namespace Sys2Proof.Machine

/-- Multiplication by α is additive. -/
theorem gfTwice_xor (x y : Byte) : gfTwice (x ^^^ y) = gfTwice x ^^^ gfTwice y := by
  have hcancel (a b c : Byte) : a ^^^ b = a ^^^ c ^^^ (b ^^^ c) := by
    rw [show a ^^^ c ^^^ (b ^^^ c) = a ^^^ b ^^^ (c ^^^ c) by ac_rfl, BitVec.xor_self, BitVec.xor_zero]
  simp only [gfTwice, BitVec.msb_xor, BitVec.shiftLeft_xor_distrib]
  cases x.msb
  all_goals cases y.msb
  · rfl
  · exact BitVec.xor_assoc _ _ _
  · exact (show ∀ a b c : Byte, a ^^^ b ^^^ c = a ^^^ c ^^^ b from fun a b c => by ac_rfl) _ _ _
  · exact hcancel _ _ _

/-- Multiplication by α^n is multiplication by α, n times. -/
theorem gfPow_eq_iterate (n : Nat) (x : Byte) : gfPow n x = gfTwice^[n] x := by
  induction n with
  | zero => rfl
  | succ n ih => rw [gfPow, ih, Function.iterate_succ_apply']

theorem gfPow_gfTwice (n : Nat) (x : Byte) : gfPow n (gfTwice x) = gfTwice (gfPow n x) := by
  rw [gfPow_eq_iterate, gfPow_eq_iterate, Function.Commute.iterate_self]

theorem gfPow_add (m n : Nat) (x : Byte) : gfPow (m + n) x = gfPow m (gfPow n x) := by
  simp only [gfPow_eq_iterate, Function.iterate_add_apply]

theorem gfPow_xor (n : Nat) (x y : Byte) : gfPow n (x ^^^ y) = gfPow n x ^^^ gfPow n y := by
  induction n with
  | zero => rfl
  | succ n ih => rw [gfPow, ih, gfTwice_xor]; rfl

@[simp] theorem gfPow_zero_byte (n : Nat) : gfPow n 0 = 0 := by
  have h := gfPow_xor n 0 0
  rwa [BitVec.xor_self, BitVec.xor_self] at h

/-- Every byte is a sum of powers of α: its lowest bit, and α times the byte of the bits above. -/
theorem gfTwice_shiftRight_xor : ∀ x : Byte, gfTwice (x >>> 1) ^^^ (x &&& 1) = x := by decide

/-- What holds of 0 and 1 and is kept by sums and by multiplication with α holds of every byte. -/
theorem gf_induction {P : Byte → Prop} (zero : P 0) (one : P 1) (xor : ∀ x y, P x → P y → P (x ^^^ y))
    (twice : ∀ x, P x → P (gfTwice x)) (x : Byte) : P x := by
  have hbit : ∀ x : Byte, x &&& 1 = 0 ∨ x &&& 1 = 1 := by decide +kernel
  have hlow : ∀ x : Byte, P (x &&& 1) := fun x => (hbit x).elim (fun h => h.symm ▸ zero) (fun h => h.symm ▸ one)
  induction hn : x.toNat using Nat.strong_induction_on generalizing x with
  | _ n ih =>
    by_cases hx : x = 0
    · exact hx ▸ zero
    · have hpos : x.toNat ≠ 0 := fun h => hx (BitVec.eq_of_toNat_eq h)
      have hhalf : (x >>> 1).toNat = x.toNat / 2 := by rw [BitVec.toNat_ushiftRight, Nat.shiftRight_eq_div_pow, Nat.pow_one]
      rw [← gfTwice_shiftRight_xor x]
      exact xor _ _ (twice _ (ih _ (by omega) _ rfl)) (hlow x)

/-- A relation among powers of α holds of every byte when it holds of 1. -/
theorem gfPow_relation {a b c : Nat} (h : gfPow a 1 ^^^ gfPow b 1 = gfPow c 1) (x : Byte) :
    gfPow a x ^^^ gfPow b x = gfPow c x := by
  induction x using gf_induction with
  | zero => rw [gfPow_zero_byte, gfPow_zero_byte, gfPow_zero_byte]; rfl
  | one => exact h
  | xor x y hx hy =>
    simp only [gfPow_xor, ← hx, ← hy]
    ac_rfl
  | twice x hx => simp only [gfPow_gfTwice, ← gfTwice_xor, hx]

/-- α^255 = 1. -/
theorem gfPow_order (x : Byte) : gfPow 255 x = x := by
  have hone : gfPow 255 1 = 1 := by
    have hlow : gfPow 128 1 = 0x85 := by decide +kernel
    have hhigh : gfPow 127 0x85 = 1 := by decide +kernel
    rw [gfPow_add 127 128, hlow, hhigh]
  induction x using gf_induction with
  | zero => exact gfPow_zero_byte _
  | one => exact hone
  | xor x y hx hy => rw [gfPow_xor, hx, hy]
  | twice x hx => rw [gfPow_gfTwice, hx]

/-- α^33 = α^15 + 1, so α^15 fixes 0 alone. -/
theorem eq_zero_of_gfPow_15 {x : Byte} (h : gfPow 15 x = x) : x = 0 := by
  have hrel := gfPow_relation (a := 15) (b := 0) (c := 33) (by decide +kernel) x
  have hzero : gfPow 33 x = 0 := by rw [← hrel, h]; exact BitVec.xor_self
  rw [← gfPow_order x, gfPow_add 222 33, hzero, gfPow_zero_byte]

/-- α^68 = α^17 + 1, so α^51 fixes 0 alone. -/
theorem eq_zero_of_gfPow_51 {x : Byte} (h : gfPow 51 x = x) : x = 0 := by
  have hrel := gfPow_relation (a := 68) (b := 17) (c := 0) (by decide +kernel) x
  rw [gfPow_add 17 51, h, BitVec.xor_self] at hrel
  exact hrel.symm

/-- Below a code word's length no power of α but 1 fixes a byte other than 0: its order divides 255 and is below 68. -/
theorem eq_zero_of_gfPow_eq {k : Nat} {x : Byte} (hpos : 0 < k) (hk : k < 68) (h : gfPow k x = x) : x = 0 := by
  have horder : Function.IsPeriodicPt gfTwice 255 x := by
    rw [Function.IsPeriodicPt, Function.IsFixedPt, ← gfPow_eq_iterate, gfPow_order]
  have hgcd := Function.IsPeriodicPt.gcd (show Function.IsPeriodicPt gfTwice k x by
    rw [Function.IsPeriodicPt, Function.IsFixedPt, ← gfPow_eq_iterate, h]) horder
  have hdvd : ∀ k < 68, 0 < k → k.gcd 255 ∣ 15 ∨ k.gcd 255 ∣ 51 := by decide
  rcases hdvd k hk hpos with h15 | h51
  · exact eq_zero_of_gfPow_15 ((gfPow_eq_iterate _ _).trans (hgcd.trans_dvd h15))
  · exact eq_zero_of_gfPow_51 ((gfPow_eq_iterate _ _).trans (hgcd.trans_dvd h51))

/-- Below a code word's length the powers of α take a byte other than 0 to distinct bytes. -/
theorem gfPow_injective {p q : Nat} {x : Byte} (hx : x ≠ 0) (hp : p < 68) (hq : q < 68) (h : gfPow p x = gfPow q x) :
    p = q := by
  have hle {p q : Nat} (hpq : p < q) (hq : q < 68) (h : gfPow p x = gfPow q x) : False := by
    have hback := congrArg (gfPow (255 - p)) h
    rw [← gfPow_add, ← gfPow_add, show 255 - p + p = 255 by omega, show 255 - p + q = (q - p) + 255 by omega, gfPow_add (q - p),
      gfPow_order] at hback
    exact hx (eq_zero_of_gfPow_eq (by omega) (by omega) hback.symm)
  rcases Nat.lt_trichotomy p q with hlt | heq | hgt
  · exact (hle hlt hq h).elim
  · exact heq
  · exact (hle hgt hp h.symm).elim

theorem xor_zero_byte (x : Byte) : x ^^^ 0 = x := BitVec.xor_zero

@[simp] theorem padTo_nil {α : Type} (d : α) (n : Nat) : padTo d n [] = List.replicate n d := by
  induction n with
  | zero => rfl
  | succ n ih => rw [padTo, ih, List.replicate_succ]

theorem padTo_length_self {α : Type} (d : α) (xs : List α) : padTo d xs.length xs = xs := by
  induction xs with
  | nil => rfl
  | cons x xs ih => rw [List.length_cons, padTo, ih]

/-- Clean bytes after a value raise it by α^i each. -/
theorem foldl_gfPow_replicate (i n : Nat) (x : Byte) :
    (List.replicate n 0).foldl (fun acc b => gfPow i acc ^^^ b) x = gfPow (i * n) x := by
  induction n generalizing x with
  | zero => rfl
  | succ n ih => rw [List.replicate_succ, List.foldl_cons, ih, xor_zero_byte, ← gfPow_add, ← Nat.mul_succ]

@[simp] theorem syndrome_replicate (i n : Nat) : syndrome i (List.replicate n 0) = 0 := by
  rw [syndrome, foldl_gfPow_replicate, gfPow_zero_byte]

/-- Syndrome i of one bad byte: the error times α^i to the power of the byte's place (R447). -/
theorem syndrome_single {i n j : Nat} (x : Byte) (hj : j < n) :
    syndrome i ((List.replicate n 0).set j x) = gfPow (i * (n - 1 - j)) x := by
  have hset : (List.replicate n (0 : Byte)).set j x = List.replicate j 0 ++ x :: List.replicate (n - 1 - j) 0 := by
    rw [List.set_eq_take_append_cons_drop, if_pos (by rwa [List.length_replicate]), List.take_replicate, List.drop_replicate,
      Nat.min_eq_left hj.le, Nat.sub_sub, Nat.add_comm j]
  rw [hset, syndrome, List.foldl_append, foldl_gfPow_replicate, gfPow_zero_byte, List.foldl_cons, foldl_gfPow_replicate,
    gfPow_zero_byte, BitVec.xor_comm, xor_zero_byte]

/-- The position the syndromes of one bad byte show is its position (R448). -/
theorem errPos_single {n j : Nat} {x : Byte} (hx : x ≠ 0) (hn : n ≤ 68) (hj : j < n) :
    errPos n x (gfPow (n - 1 - j) x) (gfPow (2 * (n - 1 - j)) x) (gfPow (3 * (n - 1 - j)) x) = some j := by
  rw [errPos, List.find?_range_eq_some]
  refine ⟨decide_eq_true ⟨rfl, rfl, rfl⟩, List.mem_range.mpr hj, fun k hk => ?_⟩
  rw [Bool.not_eq_true', decide_eq_false_iff_not]
  rintro ⟨hplace, -⟩
  have := gfPow_injective hx (by omega) (by omega) hplace
  omega

/-- Settles O44: a clean word has no syndrome; one bad byte has all four, which show its position and its error. -/
theorem singleByteErrorsAreCorrected : Obligations.SingleByteErrorsAreCorrected := by
  unfold Obligations.SingleByteErrorsAreCorrected
  intro n hn
  have hle : n ≤ 68 := by
    simp only [List.mem_cons, List.not_mem_nil, or_false] at hn
    omega
  refine ⟨?_, fun j hj x hx => ?_⟩
  · simp only [eccDecode, padTo_nil, syndrome_replicate, and_self, if_true]
  · have hpad : padTo 0 n ((List.replicate n 0).set j x) = (List.replicate n 0).set j x := by
      have hself := padTo_length_self 0 ((List.replicate n (0 : Byte)).set j x)
      rwa [List.length_set, List.length_replicate] at hself
    have hj' : j < (List.replicate n (0 : Byte)).length := by rw [List.length_replicate]; exact hj
    simp only [eccDecode, hpad, syndrome_single x hj, Nat.zero_mul, Nat.one_mul]
    rw [show gfPow 0 x = x from rfl, if_neg (fun h => hx h.1), if_neg hx, errPos_single hx hle hj]
    simp [List.getD_eq_getElem?_getD, hj]

end Sys2Proof.Machine
end

section
/-! Rounding (R36, R42 to R50). A quotient is rounded by its remainder; a value that a format holds leaves none, so every
mode keeps it. -/

namespace Sys2Proof.Machine

/-- Nearest even (R42): to the quotient or above it, as twice the remainder lies below or above the divisor. -/
theorem roundNat_nearest {n d r q : Nat} (hd : 0 < d) (hq : q = roundNat 0 r n d) :
    2 * (q * d) ≤ 2 * n + d ∧ 2 * n ≤ 2 * (q * d) + d ∧
      (2 * (q * d) = 2 * n + d ∨ 2 * n = 2 * (q * d) + d → q % 2 = 0) := by
  have hdiv : n / d * d + n % d = n := Nat.div_add_mod' n d
  have hmod : n % d < d := Nat.mod_lt n hd
  have hstep : (n / d + 1) * d = n / d * d + d := Nat.succ_mul _ _
  rw [roundNat] at hq
  split_ifs at hq with hup
  · rw [hq, hstep]
    omega
  · rw [hq]
    omega

/-- Toward zero (R42). -/
theorem roundNat_towardZero {n d r q : Nat} (hd : 0 < d) (hq : q = roundNat 1 r n d) : q * d ≤ n ∧ n < (q + 1) * d := by
  rw [show q = n / d from hq, Nat.mul_comm (n / d + 1)]
  exact ⟨Nat.div_mul_le_self n d, Nat.lt_mul_div_succ n hd⟩

/-- Stochastic (R43): up exactly where the draw lies below the fraction in 1/65536. -/
theorem roundNat_stochastic {n d r q : Nat} (hd : 0 < d) (hq : q = roundNat 2 r n d) :
    ∃ m f, n = m * d + f ∧ f < d ∧
      ((d * (r + 1) ≤ 65536 * f ∧ q = m + 1) ∨ (65536 * f < d * (r + 1) ∧ q = m)) := by
  have hdraw : r < 65536 * (n % d) / d ↔ d * (r + 1) ≤ 65536 * (n % d) := by
    rw [Nat.lt_iff_add_one_le, Nat.le_div_iff_mul_le hd, Nat.mul_comm d]
  refine ⟨n / d, n % d, (Nat.div_add_mod' n d).symm, Nat.mod_lt n hd, ?_⟩
  change q = if r < 65536 * (n % d) / d then n / d + 1 else n / d at hq
  split_ifs at hq with hup
  · exact .inl ⟨hdraw.mp hup, hq⟩
  · exact .inr ⟨Nat.lt_of_not_le fun h => hup (hdraw.mpr h), hq⟩

/-- Settles O41: one lemma per mode. -/
theorem roundingModes : Obligations.RoundingModes := by
  unfold Obligations.RoundingModes
  intro n d r q hd
  exact ⟨roundNat_nearest hd, roundNat_towardZero hd, roundNat_stochastic hd⟩

/-- A quotient without a remainder is kept in every mode. -/
theorem roundNat_mul_right {mode d : Nat} (r N : Nat) (hmode : mode < 3) (hd : 0 < d) : roundNat mode r (N * d) d = N := by
  have hdiv : N * d / d = N := Nat.mul_div_cancel N hd
  have hmod : N * d % d = 0 := Nat.mul_mod_left N d
  have hcases : mode = 0 ∨ mode = 1 ∨ mode = 2 := by omega
  rcases hcases with rfl | rfl | rfl
  · rw [roundNat, hdiv, hmod, if_neg (by omega)]
  · exact hdiv
  · change (if r < 65536 * (N * d % d) / d then N * d / d + 1 else N * d / d) = N
    rw [hdiv, hmod, Nat.mul_zero, Nat.zero_div, if_neg (Nat.not_lt_zero r)]

/-- An integer times 2^k, as a fraction. -/
theorem XV.scale_fin_one (s : Bool) (N : Nat) (k : Int) :
    (XV.fin s N 1).scale k = .fin s (N * 2 ^ k.toNat) (2 ^ (-k).toNat) := by
  by_cases hk : 0 ≤ k
  · rw [XV.scale, if_pos hk, Int.toNat_eq_zero.mpr (by omega : -k ≤ 0), Nat.pow_zero]
  · rw [XV.scale, if_neg hk, Int.toNat_eq_zero.mpr (by omega : k ≤ 0), Nat.pow_zero, Nat.mul_one, Nat.one_mul]

/-- The base-2 logarithm of an integer times 2^k. -/
theorem XV.floorLog2_scaled {N : Nat} (hN : N ≠ 0) (k : Int) :
    XV.floorLog2 (N * 2 ^ k.toNat) (2 ^ (-k).toNat) = Nat.log2 N + k := by
  have hlow : 2 ^ Nat.log2 N ≤ N := Nat.log2_self_le hN
  have hhigh : N < 2 ^ (Nat.log2 N + 1) := Nat.lt_log2_self
  have hpow (m : Nat) : 2 ^ (m + k.toNat) = 2 ^ m * 2 ^ k.toNat := Nat.pow_add 2 m k.toNat
  have hnum : Nat.log2 (N * 2 ^ k.toNat) = Nat.log2 N + k.toNat := by
    rw [Nat.log2_eq_iff (Nat.mul_ne_zero hN (Nat.two_pow_pos _).ne'), Nat.add_right_comm, hpow, hpow]
    exact ⟨Nat.mul_le_mul_right _ hlow, Nat.mul_lt_mul_of_pos_right hhigh (Nat.two_pow_pos _)⟩
  have hden : Nat.log2 (2 ^ (-k).toNat) = (-k).toNat := Nat.log2_two_pow
  have hl : ((Nat.log2 N + k.toNat : Nat) : Int) - ((-k).toNat : Nat) = Nat.log2 N + k := by omega
  have hge : (if 0 ≤ Nat.log2 N + k then decide (2 ^ (-k).toNat * 2 ^ (Nat.log2 N + k).toNat ≤ N * 2 ^ k.toNat)
      else decide (2 ^ (-k).toNat ≤ N * 2 ^ k.toNat * 2 ^ (-(Nat.log2 N + k)).toNat)) = true := by
    by_cases hpos : 0 ≤ Nat.log2 N + k
    · have hexp : (-k).toNat + (Nat.log2 N + k).toNat = Nat.log2 N + k.toNat := by omega
      rw [if_pos hpos, decide_eq_true_eq, ← Nat.pow_add, hexp, hpow]
      exact Nat.mul_le_mul_right _ hlow
    · have hexp : (-k).toNat = Nat.log2 N + k.toNat + (-(Nat.log2 N + k)).toNat := by omega
      rw [if_neg hpos, decide_eq_true_eq, hexp, Nat.pow_add, hpow]
      exact Nat.mul_le_mul_right _ (Nat.mul_le_mul_right _ hlow)
  simp only [XV.floorLog2, hnum, hden, hl, hge, if_true]

/-- An integer times 2^k whose last place is the format's is rounded to itself (R42). -/
theorem FFmt.roundMag_scaled (f : FFmt) {mode N : Nat} {k : Int} (r : Nat) (hmode : mode < 3) (hN : N ≠ 0)
    (hulp : max ((Nat.log2 N : Int) + k) (1 - f.bias) = k + f.M) :
    f.roundMag mode r (N * 2 ^ k.toNat) (2 ^ (-k).toNat) =
      if N < 2 ^ f.M then N else ((k + f.M + f.bias) * 2 ^ f.M).toNat + (N - 2 ^ f.M) := by
  have hu : k + f.M - f.M = k := by omega
  have hq : (if 0 ≤ k then roundNat mode r (N * 2 ^ k.toNat) (2 ^ (-k).toNat * 2 ^ k.toNat)
      else roundNat mode r (N * 2 ^ k.toNat * 2 ^ (-k).toNat) (2 ^ (-k).toNat)) = N := by
    by_cases hk : 0 ≤ k
    · rw [if_pos hk, Int.toNat_eq_zero.mpr (by omega : -k ≤ 0), Nat.pow_zero, Nat.one_mul,
        roundNat_mul_right r N hmode (Nat.two_pow_pos _)]
    · rw [if_neg hk, Int.toNat_eq_zero.mpr (by omega : k ≤ 0), Nat.pow_zero, Nat.mul_one,
        roundNat_mul_right r N hmode (Nat.two_pow_pos _)]
  have hne : N * 2 ^ k.toNat ≠ 0 := Nat.mul_ne_zero hN (Nat.two_pow_pos _).ne'
  rw [FFmt.roundMag, if_neg hne, XV.floorLog2_scaled hN, hulp]
  simp only [hu, hq]

/-- The magnitude of an encoding is its exponent and mantissa. -/
theorem FFmt.mod_two_pow_sbit (f : FFmt) (b : Nat) :
    b % 2 ^ f.sbit = b / 2 ^ f.M % 2 ^ f.X * 2 ^ f.M + b % 2 ^ f.M := by
  rw [FFmt.sbit, Nat.add_comm f.X, Nat.pow_add, Nat.mod_mul, Nat.add_comm, Nat.mul_comm (2 ^ f.M)]

/-- An encoding is its magnitude and its sign. -/
theorem FFmt.mod_add_sign (f : FFmt) {b : Nat} (hb : b < 2 ^ (f.sbit + 1)) :
    b % 2 ^ f.sbit + (if b.testBit f.sbit then 2 ^ f.sbit else 0) = b := by
  have hdiv : b / 2 ^ f.sbit < 2 := Nat.div_lt_of_lt_mul (by rwa [← Nat.pow_succ])
  have hsum := Nat.div_add_mod b (2 ^ f.sbit)
  rw [Nat.testBit_eq_decide_div_mod_eq, Nat.mod_eq_of_lt hdiv]
  by_cases hone : b / 2 ^ f.sbit = 1
  · rw [hone, Nat.mul_one] at hsum
    rw [hone, if_pos (by decide)]
    omega
  · have hzero : b / 2 ^ f.sbit = 0 := Nat.lt_one_iff.mp (Nat.lt_of_le_of_ne (Nat.le_of_lt_succ hdiv) hone)
    rw [hzero, Nat.mul_zero] at hsum
    rw [if_neg (by rw [decide_eq_true_eq]; exact hone)]
    omega

/-- An encoding that is neither infinity nor NaN lies up to the largest finite one (R37). -/
theorem FFmt.mod_two_pow_sbit_le_maxFin {f : FFmt} {b : Nat}
    (hinf : ¬ (b / 2 ^ f.M % 2 ^ f.X = 2 ^ f.X - 1 ∧ f.hasInf = true))
    (hnan : ¬ (b / 2 ^ f.M % 2 ^ f.X = 2 ^ f.X - 1 ∧ b % 2 ^ f.M = 2 ^ f.M - 1)) : b % 2 ^ f.sbit ≤ f.maxFin := by
  have hm : b % 2 ^ f.M < 2 ^ f.M := Nat.mod_lt b (Nat.two_pow_pos _)
  have he : b / 2 ^ f.M % 2 ^ f.X < 2 ^ f.X := Nat.mod_lt _ (Nat.two_pow_pos _)
  rw [FFmt.mod_two_pow_sbit, FFmt.maxFin, Nat.pow_add]
  generalize b / 2 ^ f.M % 2 ^ f.X = e at *
  generalize b % 2 ^ f.M = m at *
  generalize 2 ^ f.X = A at *
  generalize 2 ^ f.M = B at *
  have hbelow : e ≠ A - 1 → e * B + m + 1 ≤ (A - 1) * B := fun hne => by
    have := Nat.mul_le_mul_right B (show e + 1 ≤ A - 1 by omega)
    rw [Nat.succ_mul] at this
    omega
  have hA : A * B = (A - 1) * B + B := by rw [← Nat.succ_mul, show (A - 1).succ = A by omega]
  by_cases hf : f.hasInf = true
  · have := hbelow fun h => hinf ⟨h, hf⟩
    rw [if_pos hf]
    omega
  · rw [if_neg hf, hA]
    by_cases hlast : e = A - 1
    · have : m ≠ B - 1 := fun h => hnan ⟨hlast, h⟩
      rw [hlast]
      omega
    · have := hbelow hlast
      omega

/-- A subnormal's last place is the format's smallest (R36). -/
theorem FFmt.roundMag_subnormal (f : FFmt) {mode m : Nat} (r : Nat) (hmode : mode < 3) (hm : m < 2 ^ f.M) :
    f.roundMag mode r (m * 2 ^ (1 - f.bias - f.M).toNat) (2 ^ (-(1 - f.bias - f.M)).toNat) = m := by
  by_cases hzero : m = 0
  · rw [hzero, Nat.zero_mul, FFmt.roundMag, if_pos rfl]
  · have hlog : Nat.log2 m < f.M := (Nat.log2_lt hzero).mpr hm
    rw [FFmt.roundMag_scaled f r hmode hzero (by omega), if_pos hm]

/-- A normal's last place is that of its exponent (R36). -/
theorem FFmt.roundMag_normal (f : FFmt) {mode m e : Nat} (r : Nat) (hmode : mode < 3) (hm : m < 2 ^ f.M) (he : e ≠ 0) :
    f.roundMag mode r ((m + 2 ^ f.M) * 2 ^ ((e : Int) - f.bias - f.M).toNat) (2 ^ (-((e : Int) - f.bias - f.M)).toNat) =
      e * 2 ^ f.M + m := by
  have hpos : m + 2 ^ f.M ≠ 0 := (Nat.add_pos_right m (Nat.two_pow_pos _)).ne'
  have hlog : Nat.log2 (m + 2 ^ f.M) = f.M := by
    rw [Nat.log2_eq_iff hpos, Nat.pow_succ]
    omega
  have hexp : (e : Int) - f.bias - f.M + f.M + f.bias = e := by omega
  rw [FFmt.roundMag_scaled f r hmode hpos (by omega), if_neg (by omega), hexp, Nat.add_sub_cancel]
  congr 1

/-- The magnitude of a value that a format holds is rounded to its own encoding. -/
theorem FFmt.roundMag_dec {f : FFmt} {b mode n d : Nat} {s : Bool} (r : Nat) (hmode : mode < 3)
    (hb : f.dec b = .fin s n d) : s = b.testBit f.sbit ∧ f.roundMag mode r n d = b % 2 ^ f.sbit ∧ b % 2 ^ f.sbit ≤ f.maxFin := by
  have hm : b % 2 ^ f.M < 2 ^ f.M := Nat.mod_lt b (Nat.two_pow_pos _)
  simp only [FFmt.dec, XV.scale_fin_one] at hb
  split_ifs at hb with hinf _ hnan he
  · obtain ⟨rfl, rfl, rfl⟩ := hb
    refine ⟨rfl, ?_, FFmt.mod_two_pow_sbit_le_maxFin hinf hnan⟩
    rw [FFmt.roundMag_subnormal f r hmode hm, FFmt.mod_two_pow_sbit, he, Nat.zero_mul, Nat.zero_add]
  · obtain ⟨rfl, rfl, rfl⟩ := hb
    refine ⟨rfl, ?_, FFmt.mod_two_pow_sbit_le_maxFin hinf hnan⟩
    rw [FFmt.roundMag_normal f r hmode hm he, FFmt.mod_two_pow_sbit]

/-- The encodings of an infinity (R37). -/
theorem FFmt.eq_infBits_of_dec_inf {f : FFmt} {b : Nat} {s : Bool} (hb : f.dec b = .inf s) :
    f.hasInf = true ∧ s = b.testBit f.sbit ∧ b % 2 ^ f.sbit = f.infBits := by
  simp only [FFmt.dec, XV.scale_fin_one] at hb
  split_ifs at hb with hinf hzero
  obtain ⟨rfl⟩ := hb
  exact ⟨hinf.2, rfl, by rw [FFmt.mod_two_pow_sbit, hinf.1, hzero]; rfl⟩

/-- A value that a format holds is rounded to its own encoding (R36, R42, R43). -/
theorem FFmt.round_dec {f : FFmt} {b mode : Nat} (r : Nat) (ovf : Bool) (hmode : mode < 3) (hb : b < 2 ^ (f.sbit + 1))
    (hnan : f.dec b ≠ .nan) : f.round mode r ovf false (f.dec b) = ⟨b, false, false⟩ := by
  cases hdec : f.dec b with
  | nan => exact absurd hdec hnan
  | inf s =>
    obtain ⟨hinf, rfl, hmag⟩ := FFmt.eq_infBits_of_dec_inf hdec
    simp only [FFmt.round, hinf, if_true, ← hmag, f.mod_add_sign hb]
  | fin s n d =>
    obtain ⟨rfl, hmag, hmax⟩ := FFmt.roundMag_dec r hmode hdec
    simp only [FFmt.round, hmag, Nat.not_lt.mpr hmax, if_false, Bool.false_and, Bool.false_eq_true, f.mod_add_sign hb]

/-- Settles O40: a value a format holds is rounded to its own encoding, in every format. -/
theorem floatCodesRoundToThemselves : Obligations.FloatCodesRoundToThemselves := by
  unfold Obligations.FloatCodesRoundToThemselves
  intro f _ b hb hnan mode r ovf hmode
  exact FFmt.round_dec r ovf hmode hb hnan

end Sys2Proof.Machine
end

section
/-! Refused accesses (R5, R17 to R19): the checks that refuse an access come before it acts, and all a refusal leaves is
its event in the log of the die concerned (log entry 13). -/

namespace Sys2Proof.Machine

/-- An event of a die's DOB block leaves its record and sets its bit, and nothing else happens. -/
theorem raiseDob_logged (s : State) (d : Nat) {b : Nat} (hb : b < 64) :
    Logged s (s.raise ⟨0x1A, 0, b⟩ (.die d)) d [] ∧
      ((s.raise ⟨0x1A, 0, b⟩ (.die d)).rd (Reg.dobEvents d)).getLsbD b = true := by
  have hreg : evReg ⟨0x1A, 0, b⟩ (.die d) = some (Reg.dobEvents d) := rfl
  have hctl : Reg.dobEvents d ≠ Reg.dobLogCtl d := by
    unfold Reg.dobEvents Reg.dobLogCtl
    omega
  have hlog := State.raise_logged s ⟨0x1A, 0, b⟩ (.die d) {} (fun _ _ h => nomatch h)
    (fun a ha => Option.some.inj (hreg.symm.trans ha) ▸ hctl)
  refine ⟨{ hlog with rd := fun a _ hreg' => ?_ },
    State.raise_bit s _ _ {} _ (fun _ _ h => nomatch h) hreg hb (.inl rfl)⟩
  refine hlog.rd a (fun hmem => hreg' (.inl ?_)) hreg'
  rw [hreg] at hmem
  exact List.mem_singleton.mp hmem

/-- R17: an address that is not mapped. -/
theorem checkAccess_of_unmapped {s : State} {r : Requester} {a : Nat} (w : Bool) (h : rgnOf a = .unmapped) :
    checkAccess s r w a = some .unmapped := by
  simp only [checkAccess, h, if_true]

/-- R18: a region that R16 does not give. -/
theorem checkAccess_of_not_reached {s : State} {r : Requester} {a : Nat} (w : Bool) (hmap : rgnOf a ≠ .unmapped)
    (h : reaches s r (rgnOf a) = false) : checkAccess s r w a = some .denied := by
  simp only [checkAccess, if_neg hmap, h, Bool.not_false, if_true]

/-- A region of a die that is off is unreachable (R19). -/
theorem unreachable_of_dieOff {s : State} {g : Rgn} {d : Nat} (hdie : g.die = some d) (hoff : s.dieOn d = false) :
    unreachable s g = true := by
  have htile : ∀ t, s.tileOn d t = false := fun t => by rw [State.tileOn, hoff, Bool.false_and]
  cases g with
  | unmapped => cases hdie
  | reg l =>
    simp only [Rgn.die] at hdie
    split_ifs at hdie with hmod
    obtain ⟨rfl⟩ := hdie
    simp only [unreachable, hmod, hoff, Bool.not_false, Bool.true_or, Bool.false_eq_true, if_false]
  | hbm d' o | tr2 d' o | pool d' o =>
    obtain ⟨rfl⟩ := hdie
    simp only [unreachable, hoff, Bool.not_false]
  | sram d' t o | acc d' t o | wstore d' t o | trace d' t o =>
    obtain ⟨rfl⟩ := hdie
    simp only [unreachable, htile, Bool.not_false]

/-- R19: a region of a die that is off. -/
theorem checkAccess_of_dieOff {s : State} {r : Requester} {a d : Nat} (w : Bool) (hreach : reaches s r (rgnOf a) = true)
    (hdie : (rgnOf a).die = some d) (hoff : s.dieOn d = false) : checkAccess s r w a = some .unreachable := by
  have hmap : rgnOf a ≠ .unmapped := fun h => by
    rw [h] at hdie
    cases hdie
  simp only [checkAccess, if_neg hmap, hreach, unreachable_of_dieOff hdie hoff, Bool.not_true, Bool.false_eq_true, if_false,
    if_true]

/-- An access whose first check refuses it only leaves the refusal behind. -/
theorem exec_memoryAccess_of_refused {s : State} {r : Requester} {q : Access} {e : AccErr} (hlen : 0 < q.bytes)
    (hcheck : checkAccess s r q.write q.addr.toNat = some e) :
    exec (.memoryAccess r q none) s = .next ((s.refuse r q.addr.toNat q.write e).answer (.error e)) := by
  have harm : exec (.memoryAccess r q none) s = .next (s.access r q) := rfl
  rw [harm]
  by_cases hreg : ∃ l, rgnOf q.addr.toNat = .reg l
  · obtain ⟨l, hl⟩ := hreg
    simp only [State.access, hl, State.regAccess, hcheck]
  · obtain ⟨k, hk⟩ : ∃ k, (q.bytes + 63 + q.addr.toNat % 64) / 64 = k + 1 :=
      Nat.exists_eq_add_one_of_ne_zero (by omega)
    have hfirst : ∀ n, fullCheck s r q.write q.addr.toNat n = some e := fun n => by simp only [fullCheck, hcheck]
    rw [State.access_of_not_reg (fun l hl => hreg ⟨l, hl⟩)]
    simp only [State.memAccess, hk, firstErr, hfirst]

/-- Settles O52: each clause is a refusal of the first check, whose event is one of the DOB block. -/
theorem refusedAccessesWriteNothing : Obligations.RefusedAccessesWriteNothing := by
  unfold Obligations.RefusedAccessesWriteNothing
  intro s r q d hlen hd
  refine ⟨fun hmap => ?_, fun hmap hreach => ?_, fun hreach hdie hoff => ?_⟩
  · exact ⟨s.raise ⟨0x1A, 0, 2⟩ (.die d),
      by rw [exec_memoryAccess_of_refused hlen (checkAccess_of_unmapped _ hmap), State.refuse, ← hd],
      raiseDob_logged s d (by decide)⟩
  · exact ⟨s.raise ⟨0x1A, 0, 3⟩ (.die d),
      by rw [exec_memoryAccess_of_refused hlen (checkAccess_of_not_reached _ hmap hreach), State.refuse, ← hd],
      raiseDob_logged s d (by decide)⟩
  · exact ⟨s.raise ⟨0x1A, 0, 4⟩ (.die d),
      by rw [exec_memoryAccess_of_refused hlen (checkAccess_of_dieOff _ hreach hdie hoff), State.refuse, ← hd],
      raiseDob_logged s d (by decide)⟩

/-- A register access of another width or alignment only leaves the refusal of R5 behind. -/
theorem State.regAccess_of_narrow {s : State} {r : Requester} {l : RegLoc} {w : Bool} {a n : Nat} (v : Word)
    (hl : rgnOf a = .reg l) (hnarrow : n ≠ 8 ∨ a % 8 ≠ 0) (hcheck : checkAccess s r w a = none) :
    s.regAccess r l a n w v = (s.raise ⟨0x1A, 0, 0⟩ (.die (errDie r (.reg l)))).answer (.error .regAccess) := by
  rw [State.regAccess_of_checked l n v hcheck, if_neg (by tauto), State.refuse, hl]

/-- Settles O53: a register write and a read of a register both come to `State.regAccess`. -/
theorem narrowRegisterAccessesAreRefused : Obligations.NarrowRegisterAccessesAreRefused := by
  unfold Obligations.NarrowRegisterAccessesAreRefused
  intro s r a n d v l hl hd hnarrow
  have hlog := raiseDob_logged s d (b := 0) (by decide)
  refine ⟨fun hcheck => ⟨_, ?_, hlog⟩, fun q hread haddr hlen hcheck => ⟨_, ?_, hlog⟩⟩
  · change execRegisterWrite r a n v s = _
    simp only [execRegisterWrite, hl]
    rw [State.regAccess_of_narrow v hl hnarrow hcheck, ← hd]
  · have harm : exec (.memoryAccess r q none) s = .next (s.access r q) := rfl
    have hbytes : q.bytes = n := by simp only [Access.bytes, hread, Bool.false_eq_true, if_false, hlen]
    rw [harm]
    simp only [State.access, haddr, hl, hbytes, hread]
    rw [State.regAccess_of_narrow _ hl hnarrow hcheck, ← hd]

end Sys2Proof.Machine
end

section
/-! The clears of a counter block (R986). A die's counters are unlisted, so they read their reset value, which is 0; the
sat bits that clear64 clears are fields of words that it keeps. -/

namespace Sys2Proof.Machine

/-- A die's registers reset to their fields' values: the fused ones are the module's. -/
theorem resetWord_of_die {a : Nat} (ha : a < 0x7F0000000000) : resetWord a = resetOf (fieldsAt a) := by
  have hmod : ∀ i, 0x7F0000000000 ≤ Reg.secSerial i ∧ 0x7F0000000000 ≤ Reg.secIdPub i := fun i =>
    ⟨Nat.le_add_right_of_le (Nat.le_add_right_of_le (Nat.le_add_right _ _)),
      Nat.le_add_right_of_le (Nat.le_add_right_of_le (Nat.le_add_right _ _))⟩
  have h0 := (hmod 0).1
  have h1 := (hmod 1).1
  have hpub := (hmod 0).2
  rw [resetWord, if_neg (by omega), if_neg (by omega), if_neg (by omega)]

/-- The fields of a register are those of its block's row at its offset. -/
theorem fieldsAt_of_regLoc {a : Nat} {l : RegLoc} (h : regLoc a = some l) :
    fieldsAt a = (rowAt l.blk l.off).elim [] RegRow.fields := by
  rw [fieldsAt, h]
  cases hrow : rowAt l.blk l.off
  all_goals simp only [hrow, Option.elim]

/-- A register of a tile's OBS block resets to its row's fields. -/
theorem resetWord_obs (d : Die) (t : Tile) {x : Nat} (hx : x < 0x1000) :
    resetWord (tileBlk d t 0x7000 + x) = resetOf ((rowAt .obs x).elim [] RegRow.fields) := by
  have hadr : tileBlk d t 0x7000 + x = 0x700000000000 + 0x100000000 * d.val + 0x10000 * t.val + 0x1000 * 7 + x := rfl
  have hd := d.isLt
  have ht := t.isLt
  rw [resetWord_of_die (by rw [hadr]; omega),
    fieldsAt_of_regLoc (hadr ▸ regLoc_tileBlock d.isLt t.isLt (by decide : 7 < 16) hx)]

/-- A register of a die's DOB block resets to its row's fields. -/
theorem resetWord_dob (d : Die) {x : Nat} (hx : x < 0x100000) :
    resetWord (dieBlk d 0x1A00000 + x) = resetOf ((rowAt .dob x).elim [] RegRow.fields) := by
  have hadr : dieBlk d 0x1A00000 + x = 0x700000000000 + 0x100000000 * d.val + (0x100000 * 0x1A + x) := Nat.add_assoc _ _ _
  have hd := d.isLt
  rw [resetWord_of_die (by rw [hadr]; omega),
    fieldsAt_of_regLoc (hadr ▸ regLoc_dieBlock d.isLt (by decide : 4 ≤ 0x1A) (by decide) hx)]

/-- Every 64-bit counter of a block resets to 0. -/
theorem CntBlock.resetWord_c64 (b : CntBlock) {i : Nat} (hi : i < b.c64.2) : resetWord (b.c64.1 + 8 * i) = 0 := by
  cases b with
  | obs d t =>
    change i < 29 at hi
    have hrow : ∀ i < 29, resetOf ((rowAt .obs (0x100 + 8 * i)).elim [] RegRow.fields) = 0 := by decide +kernel
    have hadr : (CntBlock.obs d t).c64.1 + 8 * i = tileBlk d t 0x7000 + (0x100 + 8 * i) := Nat.add_assoc _ 0x100 _
    rw [hadr, resetWord_obs d t (by omega), hrow i hi]
  | dob d =>
    change i < 121 at hi
    have hrow : ∀ i < 121, resetOf ((rowAt .dob (0x10000 + 8 * i)).elim [] RegRow.fields) = 0 := by decide +kernel
    have hadr : (CntBlock.dob d).c64.1 + 8 * i = dieBlk d 0x1A00000 + (0x10000 + 8 * i) := Nat.add_assoc _ 0x10000 _
    rw [hadr, resetWord_dob d (by omega), hrow i hi]

/-- Every 32-bit counter of a block resets to 0, its sat bit with it. -/
theorem CntBlock.resetWord_c32 (b : CntBlock) {i : Nat} (hi : i < b.c32.2) : resetWord (b.c32.1 + 8 * i) = 0 := by
  cases b with
  | obs d t =>
    change i < 24 at hi
    have hrow : ∀ i < 24, resetOf ((rowAt .obs (0x200 + 8 * i)).elim [] RegRow.fields) = 0 := by decide +kernel
    have hadr : (CntBlock.obs d t).c32.1 + 8 * i = tileBlk d t 0x7000 + (0x200 + 8 * i) := Nat.add_assoc _ 0x200 _
    rw [hadr, resetWord_obs d t (by omega), hrow i hi]
  | dob d =>
    change i < 120 at hi
    have hrow : ∀ i < 120, resetOf ((rowAt .dob (0x20000 + 8 * i)).elim [] RegRow.fields) = 0 := by decide +kernel
    have hadr : (CntBlock.dob d).c32.1 + 8 * i = dieBlk d 0x1A00000 + (0x20000 + 8 * i) := Nat.add_assoc _ 0x20000 _
    rw [hadr, resetWord_dob d (by omega), hrow i hi]

/-- The 32-bit counters of a block follow its 64-bit ones. -/
theorem CntBlock.c64_below_c32 (b : CntBlock) : b.c64.1 + 8 * b.c64.2 ≤ b.c32.1 := by
  cases b with
  | obs d t => exact Nat.add_le_add_left (by decide : 0x100 + 8 * 29 ≤ 0x200) _
  | dob d => exact Nat.add_le_add_left (by decide : 0x10000 + 8 * 121 ≤ 0x20000) _

/-- A last element is acted on last. -/
theorem State.each_concat {α : Type} (f : State → α → State) (l : List α) (x : α) (s : State) :
    s.each f (l ++ [x]) = f (s.each f l) x := by
  induction l generalizing s with
  | nil => rfl
  | cons y l ih => exact ih (f s y)

theorem State.clearSat_succ (s : State) (lo n : Nat) :
    s.clearSat lo (n + 1) = (s.clearSat lo n).p (lo + 8 * n) ⟨32, 1⟩ 0 := by
  rw [State.clearSat, List.range_succ, State.each_concat, State.clearSat]

/-- Clearing sat bits only writes registers. -/
theorem State.clearSat_regs (s : State) (lo n : Nat) : s.clearSat lo n = { s with regs := (s.clearSat lo n).regs } := by
  induction n with
  | zero => rfl
  | succ n ih =>
    rw [State.clearSat_succ, ih]
    rfl

/-- A register of another address reads as before. -/
theorem State.rd_clearSat_of_not_counter (s : State) {lo n a : Nat} (ha : ∀ j < n, a ≠ lo + 8 * j) :
    (s.clearSat lo n).rd a = s.rd a := by
  induction n with
  | zero => rfl
  | succ n ih =>
    rw [State.clearSat_succ, State.rd_p, if_neg (ha n (Nat.lt_succ_self n)), ih fun j hj => ha j (Nat.lt_succ_of_lt hj)]

/-- A counter's word loses its sat bit. -/
theorem State.rd_clearSat_counter (s : State) {lo n j : Nat} (hj : j < n) :
    (s.clearSat lo n).rd (lo + 8 * j) = setFld (s.rd (lo + 8 * j)) 32 1 0 := by
  induction n with
  | zero => exact absurd hj (Nat.not_lt_zero j)
  | succ n ih =>
    rw [State.clearSat_succ, State.rd_p]
    by_cases hlast : j = n
    · rw [hlast, if_pos rfl, State.rd_clearSat_of_not_counter _ (by omega)]
    · rw [if_neg (by omega), ih (by omega)]

/-- A register of a range of words that is unlisted reads its reset value. -/
theorem State.rd_dropWords (s : State) (lo n a : Nat) :
    (s.dropWords lo n).rd a = if lo ≤ a ∧ a < lo + 8 * n then resetWord a else s.rd a := by
  simp only [State.dropWords, State.rd_dropRegs, decide_eq_true_eq]

/-- The 64-bit counters read 0 after clear64. -/
theorem State.rd_clear64_c64 (s : State) (b : CntBlock) {i : Nat} (hi : i < b.c64.2) :
    (s.clear64 b).rd (b.c64.1 + 8 * i) = 0 := by
  have hbelow := b.c64_below_c32
  rw [State.clear64, State.rd_clearSat_of_not_counter _ (fun j _ => by omega), State.rd_dropWords, if_pos (by omega),
    b.resetWord_c64 hi]

/-- A 32-bit counter's word loses its sat bit in clear64. -/
theorem State.rd_clear64_c32 (s : State) (b : CntBlock) {j : Nat} (hj : j < b.c32.2) :
    (s.clear64 b).rd (b.c32.1 + 8 * j) = setFld (s.rd (b.c32.1 + 8 * j)) 32 1 0 := by
  have hbelow := b.c64_below_c32
  rw [State.clear64, State.rd_clearSat_counter _ hj, State.rd_dropWords, if_neg (by omega)]

/-- Every other register reads as before clear64. -/
theorem State.rd_clear64_of_other (s : State) (b : CntBlock) {a : Nat} (h64 : ¬ (b.c64.1 ≤ a ∧ a < b.c64.1 + 8 * b.c64.2))
    (h32 : ¬ (b.c32.1 ≤ a ∧ a < b.c32.1 + 8 * b.c32.2)) : (s.clear64 b).rd a = s.rd a := by
  rw [State.clear64, State.rd_clearSat_of_not_counter _ (fun j hj => by omega), State.rd_dropWords, if_neg h64]

/-- Settles O47: clear64 and clear32 are their effect on the accepted write's state, and only write registers. -/
theorem clearsZeroTheCounters : Obligations.ClearsZeroTheCounters := by
  unfold Obligations.ClearsZeroTheCounters
  intro s u r b hacc
  refine ⟨⟨u.clear64 b, next_regWr_of_accepted hacc _, fun i hi => u.rd_clear64_c64 b hi, fun j hj => ?_,
      fun a h64 h32 => u.rd_clear64_of_other b h64 h32, (u.dropWords _ _).clearSat_regs _ _⟩,
    u.clear32 b, next_regWr_of_accepted hacc _, fun j hj => ?_, fun a h32 => ?_, rfl⟩
  · rw [u.rd_clear64_c32 b hj]
    exact ⟨fld_setFld _ _ _ _ (by decide), fld_setFld_apart _ _ _ _ _ _ (by decide) (.inl (by decide))⟩
  · rw [State.clear32, State.rd_dropWords, if_pos (by omega), b.resetWord_c32 hj]
  · rw [State.clear32, State.rd_dropWords, if_neg h32]

end Sys2Proof.Machine
end

section
/-! On-chip accesses inside one line (R406, R428, R437): the line's address lies in the region, bank and tile of the
access, so what let the access pass wakes no bank and ungates no tile, and the line itself is written or read. -/

namespace Sys2Proof.Machine

/-- The regions of memory on the chip (R15). -/
def Rgn.onChip : Rgn → Bool
  | .sram _ _ _ | .acc _ _ _ | .wstore _ _ _ | .trace _ _ _ | .pool _ _ => true
  | _ => false

/-- The region at the 64-byte line of an on-chip offset. -/
def Rgn.atLine : Rgn → Rgn
  | .sram d t x => .sram d t (x - x % 64)
  | .acc d t x => .acc d t (x - x % 64)
  | .wstore d t x => .wstore d t (x - x % 64)
  | .trace d t x => .trace d t (x - x % 64)
  | .pool d x => .pool d (x - x % 64)
  | g => g

@[simp] theorem Rgn.onChip_atLine (g : Rgn) : g.atLine.onChip = g.onChip := by cases g <;> rfl

@[simp] theorem Rgn.tile_atLine (g : Rgn) : g.atLine.tile = g.tile := by cases g <;> rfl

/-- Banks hold whole lines. -/
@[simp] theorem Rgn.bank_atLine (g : Rgn) : g.atLine.bank = g.bank := by
  cases g with
  | sram d t x => simp only [Rgn.atLine, Rgn.bank, show (x - x % 64) / 0x20000 = x / 0x20000 by omega]
  | pool d x => simp only [Rgn.atLine, Rgn.bank, show (x - x % 64) / 0x80000 = x / 0x80000 by omega]
  | hbm | tr2 | acc | wstore | trace | reg | unmapped => rfl

/-- The regions of the SRAM span hold whole lines (R15). -/
theorem sramRgn_line (d o : Nat) : sramRgn d (o - o % 64) = (sramRgn d o).atLine := by
  have hslot : (o - o % 64) / 0x1000000 = o / 0x1000000 := by omega
  have hin : (o - o % 64) % 0x1000000 = o % 0x1000000 - o % 0x1000000 % 64 := by omega
  have hlt {m n : Nat} (hn : n % 64 = 0) : m - m % 64 < n ↔ m < n := by omega
  rw [sramRgn, sramRgn, hslot, hin]
  generalize o % 0x1000000 = x
  simp only [hlt (show 0x300000 % 64 = 0 by decide), hlt (show 0x400000 % 64 = 0 by decide),
    hlt (show 0x440000 % 64 = 0 by decide), hlt (show 0x444000 % 64 = 0 by decide)]
  split_ifs
  all_goals simp only [Rgn.atLine, Rgn.acc.injEq, Rgn.wstore.injEq, Rgn.trace.injEq, Rgn.pool.injEq, true_and]
  all_goals omega

/-- On-chip addresses are those of the SRAM span (R14). -/
theorem sramSpan_of_onChip {a : Nat} (h : (rgnOf a).onChip = true) : 0x400000000000 ≤ a ∧ a < 0x400200000000 := by
  by_contra hspan
  rw [rgnOf, if_neg hspan] at h
  split_ifs at h
  · cases h
  · cases h
  · cases hreg : regLoc a
    all_goals rw [hreg] at h
    all_goals cases h

/-- The region of an on-chip address's line (R15). -/
theorem rgnOf_line {a : Nat} (h : (rgnOf a).onChip = true) : rgnOf (a - a % 64) = (rgnOf a).atLine := by
  have hspan := sramSpan_of_onChip h
  have hdie : (a - a % 64 - 0x400000000000) / 0x100000000 = (a - 0x400000000000) / 0x100000000 := by omega
  have hoff : (a - a % 64 - 0x400000000000) % 0x100000000 =
      (a - 0x400000000000) % 0x100000000 - (a - 0x400000000000) % 0x100000000 % 64 := by omega
  rw [rgnOf, if_neg (by omega), if_neg (by omega), if_pos (by omega), rgnOf, if_neg (by omega), if_neg (by omega),
    if_pos hspan, hdie, hoff, sramRgn_line]

/-- An access that need not wait finds its bank on (R431). -/
theorem bankPwr_of_ready {s : State} {q : Access} {d t b : Nat} (hchip : (rgnOf q.addr.toNat).onChip = true)
    (hwait : mustWait s q = none) (hbank : (rgnOf q.addr.toNat).bank = some (d, t, b)) : bankPwr s d t b = 0 := by
  unfold mustWait at hwait
  generalize rgnOf q.addr.toNat = g at *
  cases g with
  | sram d' t' x | pool d' x =>
    obtain ⟨rfl⟩ := hbank
    simp only [Rgn.invalBit, Rgn.bank] at hwait
    split_ifs at hwait with _ hon
    exact hon
  | acc | wstore | trace => cases hbank
  | hbm | tr2 | reg | unmapped => cases hchip

/-- Where the bank is on and the tile is not gated, an access wakes nothing (R20, R431). -/
theorem State.wakeFor_of_awake {s : State} {g : Rgn} (r : Requester)
    (hbank : ∀ d t b, g.bank = some (d, t, b) → bankPwr s d t b = 0)
    (htile : ∀ d t, g.tile = some (d, t) → (s.tile d t).gated = false) : s.wakeFor r g = s := by
  have hungate : ∀ d t, g.tile = some (d, t) → s.ungate d t = s := fun d t h => by
    simp only [State.ungate, htile d t h, Bool.false_eq_true, if_false]
  cases g with
  | sram d t x =>
    simp only [State.wakeFor, Rgn.bank, Rgn.tile, hbank d t _ rfl, hungate d t rfl, if_true, ite_self]
  | pool d x => simp only [State.wakeFor, Rgn.bank, Rgn.tile, hbank d _ _ rfl, if_true]
  | acc d t x | wstore d t x | trace d t x =>
    simp only [State.wakeFor, Rgn.bank, Rgn.tile, hungate d t rfl, ite_self]
  | hbm | tr2 | reg | unmapped => rfl

/-- An on-chip line is written in place and made valid (R406, R428). -/
theorem State.writeLine_onChip {s : State} {r : Requester} {a i : Nat} {bs : List Byte}
    (hcheck : fullCheck s r true (a + i) bs.length = none) (hchip : (rgnOf a).onChip = true)
    (hwake : s.wakeFor r (rgnOf a) = s) :
    s.writeLine r a i bs = (none, (s.setBytes (a + i) bs).setValid (a / 64) true) := by
  simp only [State.writeLine, hcheck, hwake]
  generalize rgnOf a = g at hchip
  cases g with
  | sram | acc | wstore | trace | pool => rfl
  | hbm | tr2 | reg | unmapped => cases hchip

/-- A valid on-chip line is read in place (R437). -/
theorem State.readLine_onChip {s : State} {r : Requester} {a : Nat} (b : Bool)
    (hcheck : fullCheck s r false a 64 = none) (hchip : (rgnOf a).onChip = true)
    (hwake : s.wakeFor r (rgnOf a) = s) (hvalid : s.lineValid (a / 64) = true) :
    s.readLine r a b = (some (s.bytes a 64), s) := by
  simp only [State.readLine, hcheck, hwake, State.readChip, hvalid, if_true]
  generalize rgnOf a = g at hchip
  cases g with
  | sram | acc | wstore | trace | pool => rfl
  | hbm | tr2 | reg | unmapped => cases hchip

/-- Bytes inside one line are one line's write. -/
theorem State.writeSpan_of_line {s : State} {r : Requester} {a : Nat} {bs : List Byte} (hpos : 0 < bs.length)
    (hline : a % 64 + bs.length ≤ 64) {u : State} (h : s.writeLine r (a - a % 64) (a % 64) bs = (none, u)) :
    s.writeSpan r a bs = (none, u) := by
  have hone : (bs.length + 63 + a % 64) / 64 = 1 := by omega
  have hne : bs ≠ [] := List.ne_nil_of_length_pos hpos
  have htake : bs.take (64 - a % 64) = bs := List.take_of_length_le (by omega)
  simp only [State.writeSpan, hone, State.writeLines, if_neg hne, htake, h]

/-- The bytes of a list that all were read. -/
theorem whole_map_some (bs : List Byte) : whole (bs.map some) = some bs := by
  induction bs with
  | nil => rfl
  | cons b bs ih => rw [List.map_cons, whole, ih, Option.map_some]

/-- A range of bytes inside a range. -/
theorem State.slice_bytes {s : State} {a i n m : Nat} (h : i + n ≤ m) : slice (s.bytes a m) i n = s.bytes (a + i) n := by
  refine List.ext_getElem ?_ fun k hk hk' => ?_
  · simp only [slice, State.bytes, List.length_take, List.length_drop, List.length_map, List.length_range]
    omega
  · simp only [slice, State.bytes, List.getElem_take, List.getElem_drop, List.getElem_map, List.getElem_range, Nat.add_assoc]

/-- Bytes inside one line are part of one line's read. -/
theorem State.readSpan_of_line {s : State} {r : Requester} {a n : Nat} {b : Bool} (hpos : 0 < n) (hline : a % 64 + n ≤ 64)
    (h : s.readLine r (a - a % 64) b = (some (s.bytes (a - a % 64) 64), s)) :
    s.readSpan r a n b = ((s.bytes a n).map some, s) := by
  have hone : (n + 63 + a % 64) / 64 = 1 := by omega
  have hbase : a - a % 64 + a % 64 = a := by omega
  have hslice := State.slice_bytes (s := s) (a := a - a % 64) hline
  simp only [State.readSpan, hone, State.readLines, h, List.append_nil]
  rw [slice, ← List.map_drop, ← List.map_take, ← slice, hslice, hbase]

/-- An access inside one line is judged by one check (R484). -/
theorem firstErr_of_line {s : State} {r : Requester} {w : Bool} {a n k : Nat} (hline : a % 64 + n ≤ 64)
    (hcheck : fullCheck s r w a n = none) : firstErr s r w a n k = none := by
  cases k with
  | zero => rfl
  | succ k => simp only [firstErr, Nat.min_eq_left (by omega : n ≤ 64 - a % 64), hcheck, le_refl, if_true]

/-- A region that a check lets pass and that is neither external memory nor a register is on the chip. -/
theorem onChip_of_checked {s : State} {r : Requester} {w : Bool} {a n : Nat} (hcheck : fullCheck s r w a n = none)
    (hhbm : ∀ d o, rgnOf a ≠ .hbm d o) (htr2 : ∀ d o, rgnOf a ≠ .tr2 d o) (hreg : ∀ l, rgnOf a ≠ .reg l) :
    (rgnOf a).onChip = true := by
  cases hg : rgnOf a with
  | sram | acc | wstore | trace | pool => rfl
  | hbm d o => exact absurd hg (hhbm d o)
  | tr2 d o => exact absurd hg (htr2 d o)
  | reg l => exact absurd hg (hreg l)
  | unmapped =>
    simp only [fullCheck, checkAccess_of_unmapped w hg] at hcheck
    cases hcheck

/-- Settles O57: what lets the access pass also lets its line pass, and the line is written or read in place. -/
theorem onChipAccessesStoreAndRead : Obligations.OnChipAccessesStoreAndRead := by
  unfold Obligations.OnChipAccessesStoreAndRead
  intro s r q a ha hupset hlink hpos hline hhbm htr2 hreg htile hwait
  have harm : exec (.memoryAccess r q none) s = .next (s.access r q) := rfl
  have haccess := State.access_of_not_reg (s := s) (r := r) (ha ▸ hreg)
  have hserve (hcheck : fullCheck s r q.write a q.bytes = none) : s.memAccess r q = s.serve r q :=
    State.memAccess_of_ready hupset (ha ▸ firstErr_of_line hline hcheck) hwait
  have hawake (hchip : (rgnOf a).onChip = true) : s.wakeFor r (rgnOf (a - a % 64)) = s := by
    rw [rgnOf_line hchip]
    refine State.wakeFor_of_awake r (fun d t b hb => ?_) (fun d t ht => ?_)
    · rw [Rgn.bank_atLine] at hb
      exact bankPwr_of_ready (ha ▸ hchip) hwait (ha ▸ hb)
    · rw [Rgn.tile_atLine] at ht
      exact htile d t ht
  have hbase : a - a % 64 + a % 64 = a := by omega
  have hlineNo : (a - a % 64) / 64 = a / 64 := by omega
  refine ⟨fun hw hcheck => ?_, fun hw hcheck hcheckLine hvalid => ?_⟩
  · have hlen : q.bytes = q.data.length := by rw [Access.bytes, if_pos hw]
    have hchip := onChip_of_checked hcheck hhbm htr2 hreg
    rw [hlen] at hpos hline hcheck
    have hwrite : s.writeSpan r a q.data = (none, (s.setBytes a q.data).setValid (a / 64) true) := by
      refine State.writeSpan_of_line hpos hline ?_
      rw [State.writeLine_onChip (by rwa [hbase]) (by rwa [rgnOf_line hchip, Rgn.onChip_atLine]) (hawake hchip), hbase, hlineNo]
    refine ⟨((s.setBytes a q.data).setValid (a / 64) true).answer .ack, ?_, ?_, ?_, ?_, rfl, ?_⟩
    · rw [harm, haccess, hserve (by rwa [hw, hlen])]
      simp only [State.serve, hw, ← ha, hwrite, hlink, if_true]
      rfl
    · intro i hi
      refine (State.byte_setBytes q.data s a (a + i)).trans ?_
      simp only [Nat.le_add_right, Nat.add_lt_add_left hi a, and_self, dite_true, Nat.add_sub_cancel_left]
    · exact fun x hx => (State.byte_setBytes q.data s a x).trans (dif_neg hx)
    · exact (State.lineValid_setValid (s.setBytes a q.data) (a / 64) (a / 64) true).trans (if_pos rfl)
    · obtain ⟨m, hm⟩ := setBytes_rest q.data s a
      rw [hm]
      rfl
  · have hlen : q.bytes = q.len := by rw [Access.bytes, if_neg (by rw [hw]; decide)]
    have hchip := onChip_of_checked hcheck hhbm htr2 hreg
    have hread : ∀ b, s.readSpan r a q.len b = ((s.bytes a q.len).map some, s) := fun b => by
      rw [hlen] at hpos hline
      refine State.readSpan_of_line hpos hline ?_
      exact State.readLine_onChip b hcheckLine (by rwa [rgnOf_line hchip, Rgn.onChip_atLine]) (hawake hchip) (by rwa [hlineNo])
    rw [harm, haccess, hserve (by rwa [hw])]
    simp only [State.serve, hw, ← ha, hread, whole_map_some, Bool.false_eq_true, if_false]
    rfl

end Sys2Proof.Machine
end

section
/-! What accepted writes of a die's counter, sample, snapshot, invalidation, region and repair registers leave alone: they
are built of register writes and updates of one tile or die, and each of these keeps the rest. -/

namespace Sys2Proof.Machine

/-- From `s` to `t` nothing changed but registers, dies and tile `k` of die `d`: memory, ports, the module's part, what
was sent and every other tile stand as before. -/
structure TileFrame (d k : Nat) (s t : State) : Prop where
  mem : t.mem = s.mem
  valid : t.valid = s.valid
  ports : t.ports = s.ports
  m : t.m = s.m
  out : t.out = s.out
  waiting : t.waiting = s.waiting
  tile : ∀ e j, (e, j) ≠ (d, k) → j < 64 → t.tile e j = s.tile e j

namespace TileFrame

variable {d k : Nat} {s t u : State}

theorem refl (s : State) : TileFrame d k s s := ⟨rfl, rfl, rfl, rfl, rfl, rfl, fun _ _ _ _ => rfl⟩

theorem trans (h : TileFrame d k s t) (h' : TileFrame d k t u) : TileFrame d k s u :=
  ⟨h'.mem.trans h.mem, h'.valid.trans h.valid, h'.ports.trans h.ports, h'.m.trans h.m, h'.out.trans h.out,
    h'.waiting.trans h.waiting, fun e j hne hj => (h'.tile e j hne hj).trans (h.tile e j hne hj)⟩

/-- A register is written. -/
theorem wr (a : Nat) (w : Word) (h : TileFrame d k s t) : TileFrame d k s (t.wr a w) :=
  h.trans ⟨rfl, rfl, rfl, rfl, rfl, rfl, fun _ _ _ _ => rfl⟩

/-- A field of a register is written. -/
theorem p (a : Nat) (f : RF) (v : Nat) (h : TileFrame d k s t) : TileFrame d k s (t.p a f v) := h.wr _ _

/-- Registers are unlisted. -/
theorem dropRegs (p : Nat → Bool) (h : TileFrame d k s t) : TileFrame d k s (t.dropRegs p) :=
  h.trans ⟨rfl, rfl, rfl, rfl, rfl, rfl, fun _ _ _ _ => rfl⟩

/-- Words are written one after the other. -/
theorem wrWords (ws : List Word) {a : Nat} (h : TileFrame d k s t) : TileFrame d k s (t.wrWords a ws) := by
  induction ws generalizing t a with
  | nil => exact h
  | cons w ws ih => exact ih (h.wr a w)

/-- A step is done for each element of a list. -/
theorem each {α : Type} {f : State → α → State} (hf : ∀ {t x}, TileFrame d k s t → TileFrame d k s (f t x)) (l : List α)
    (h : TileFrame d k s t) : TileFrame d k s (t.each f l) := by
  induction l generalizing t with
  | nil => exact h
  | cons x l ih => exact ih (hf h)

/-- A die's part is replaced. -/
theorem setDie (e : Nat) (x : DieS) (h : TileFrame d k s t) : TileFrame d k s (t.setDie e x) :=
  h.trans ⟨rfl, rfl, rfl, rfl, rfl, rfl, fun _ _ _ _ => rfl⟩

/-- The tile itself is replaced. -/
theorem setTile (x : TileS) (hk : k < 64) (h : TileFrame d k s t) : TileFrame d k s (t.setTile d k x) := by
  refine h.trans ⟨rfl, rfl, rfl, rfl, rfl, rfl, fun e j hne hj => ?_⟩
  have hkey : tileKey e j ≠ tileKey d k := fun h => by
    unfold tileKey at h
    exact hne (Prod.ext_iff.mpr ⟨by omega, by omega⟩)
  rw [State.tile_setTile, if_neg hkey]

end TileFrame

section
variable {s : State}

theorem tileFrame_clear64 (d k : Nat) (b : CntBlock) : TileFrame d k s (s.clear64 b) :=
  TileFrame.each (fun h => h.p _ _ _) _ ((TileFrame.refl s).dropRegs _)

theorem tileFrame_clear32 (d k : Nat) (b : CntBlock) : TileFrame d k s (s.clear32 b) := (TileFrame.refl s).dropRegs _

theorem tileFrame_opcClear (d : Nat) {k : Nat} (hk : k < 64) : TileFrame d k s (s.opcClear d k) :=
  (TileFrame.refl s).setTile _ hk

theorem tileFrame_sampleGo (d k : Nat) : TileFrame d k s (s.sampleGo d k) :=
  (((((TileFrame.each (fun h => (h.wr _ _).wr _ _) _ (TileFrame.refl s)).wr _ _).p _ _ _).p _ _ _).p _ _ _).p _ _ _ |>.wr _ _

theorem tileFrame_snapGo (d k e : Nat) : TileFrame d k s (s.snapGo e) :=
  (TileFrame.each (fun h => h.wrWords _) _ (TileFrame.refl s)).wr _ _

theorem tileFrame_invalStart (d : Nat) {k : Nat} (hk : k < 64) (v : Nat) : TileFrame d k s (s.invalStart d k v) :=
  (TileFrame.refl s).setTile _ hk

theorem tileFrame_regionWrite_range (d k e n : Nat) (v : Word) : TileFrame d k s (s.regionWrite e n false v) :=
  ((TileFrame.refl s).p _ _ _).p _ _ _

theorem tileFrame_repairPop (d k e : Nat) : TileFrame d k s (s.repairPop e) := (TileFrame.refl s).setDie _ _

end

/-- Settles O56: each command's effect on the accepted write's state is framed. -/
theorem dieRegisterWritesLeaveMemoryAlone : Obligations.DieRegisterWritesLeaveMemoryAlone := by
  unfold Obligations.DieRegisterWritesLeaveMemoryAlone
  intro s u t r d k b v n a c hc hacc hexec
  have heffect {f : State → State} (harm : exec c s = .next (s.regWr r a f)) : t = f u := by
    rw [harm, next_regWr_of_accepted hacc] at hexec
    exact (Host.Outcome.next.inj hexec).symm
  have hframe : TileFrame d k u t := by
    simp only [List.mem_cons, List.not_mem_nil, or_false, Prod.mk.injEq] at hc
    rcases hc with ⟨rfl, rfl⟩ | ⟨rfl, rfl⟩ | ⟨rfl, rfl⟩ | ⟨rfl, rfl⟩ | ⟨rfl, rfl⟩ | ⟨rfl, rfl⟩ | ⟨rfl, rfl⟩ | ⟨rfl, rfl⟩
    · exact heffect (f := (·.clear64 b)) rfl ▸ tileFrame_clear64 d k b
    · exact heffect (f := (·.clear32 b)) rfl ▸ tileFrame_clear32 d k b
    · exact heffect (f := (·.opcClear d k)) rfl ▸ tileFrame_opcClear d k.isLt
    · exact heffect (f := (·.sampleGo d k)) rfl ▸ tileFrame_sampleGo d k
    · exact heffect (f := (·.snapGo d)) rfl ▸ tileFrame_snapGo d k d
    · exact heffect (f := (·.invalStart d k v.toNat)) rfl ▸ tileFrame_invalStart d k.isLt v.toNat
    · exact heffect (f := (·.regionWrite d n false v)) rfl ▸ tileFrame_regionWrite_range d k d n v
    · exact heffect (f := (·.repairPop d)) rfl ▸ tileFrame_repairPop d k d
  exact ⟨fun x => by rw [State.byte, State.byte, hframe.mem], hframe.valid, hframe.ports, hframe.m, hframe.out, hframe.waiting,
    hframe.tile⟩

end Sys2Proof.Machine
end

section
/-! What the commands of the module's own part leave alone: power, reference, time, debug, staging and sensors act on
registers of the module blocks, on the module's state and through module events, and each of these is quiet. -/

namespace Sys2Proof.Machine

/-- The array registers of the module blocks are module registers. -/
theorem le_modBlk (o a b : Nat) : 0x7F0000000000 ≤ modBlk o + a + b :=
  Nat.le_add_right_of_le (Nat.le_add_right_of_le (Nat.le_add_right _ _))

namespace Quiet

variable {s t : State}

/-! ## Shared operations -/

theorem pwrRaise (b : Nat) (h : Quiet s t) : Quiet s (t.pwrRaise b) := Quiet.raiseModule _ _ (.inl rfl) h

theorem secRaise (b : Nat) (h : Quiet s t) : Quiet s (t.secRaise b) := Quiet.raiseModule _ _ (.inr (.inl rfl)) h

theorem sensRaise (b : Nat) (h : Quiet s t) : Quiet s (t.sensRaise b) := Quiet.raiseModule _ _ (.inr (.inr (.inl rfl))) h

theorem timeRaise (b : Nat) (h : Quiet s t) : Quiet s (t.timeRaise b) := Quiet.raiseModule _ _ (.inr (.inr (.inr (.inr rfl)))) h

/-- The event of a reserved encoding of a module register (R10). -/
theorem reserved (h : Quiet s t) : Quiet s (t.reserved 0) := Quiet.raiseDie _ _ h

theorem inc64 {a : Nat} (n : Nat) (ha : 0x7F0000000000 ≤ a) (h : Quiet s t) : Quiet s (t.inc64 a n) := Quiet.wr _ _ ha h

theorem wrWords (ws : List Word) {a : Nat} (ha : 0x7F0000000000 ≤ a) (h : Quiet s t) : Quiet s (t.wrWords a ws) := by
  induction ws generalizing t a with
  | nil => exact h
  | cons w ws ih => exact ih (by omega) (Quiet.wr _ _ ha h)

/-! ## Power -/

theorem openSwitch (f : Nat) (h : Quiet s t) : Quiet s (t.openSwitch f) := Quiet.p _ _ _ (le_modBlk _ _ _) (Quiet.setM _ h)

theorem closeSwitch (f : Nat) (h : Quiet s t) : Quiet s (t.closeSwitch f) := Quiet.setM _ h

/-- The effective ratios (R917). -/
theorem stretch (h : Quiet s t) : Quiet s t.stretch := Quiet.p _ _ _ (by decide) (Quiet.p _ _ _ (by decide) h)

/-- A feed's sample (R889, R900). -/
theorem feedSample (f : Nat) (mv : Int) (ca : Nat) (other : Int) (h : Quiet s t) : Quiet s (t.feedSample f mv ca other) := by
  have ha : 0x7F0000000000 ≤ Reg.pwrFeed f := le_modBlk _ _ _
  have hread := Quiet.p _ Reg.pwrFeed_ca (satBits 16 ca) ha (Quiet.p _ Reg.pwrFeed_mv (encS 16 mv) ha h)
  refine Quiet.p _ _ _ ha (Quiet.ite _ (Quiet.closeSwitch _ (Quiet.p _ _ _ ha ?_)) ?_)
  all_goals exact Quiet.ite _ (Quiet.setM _ (Quiet.p _ _ _ ha hread)) hread

theorem railSample (r : Nat) (x : Nat × Int) (h : Quiet s t) : Quiet s (t.railSample r x) :=
  Quiet.p _ _ _ (le_modBlk _ _ _) (Quiet.p _ _ _ (le_modBlk _ _ _) h)

/-! ## The reference, CLKOUT and the time base -/

/-- The module reference follows its rules (R938, R939). -/
theorem refUpdate (h : Quiet s t) : Quiet s t.refUpdate := by
  have hport : Quiet s (if refUp t then t else
      (t.p Reg.mckStatus Reg.mckStatus_qualified 0).setM { t.m with clk := { t.m.clk with refGood := 0 } }) :=
    Quiet.ite _ h (Quiet.setM _ (Quiet.p _ _ _ (by decide) h))
  exact Quiet.ite _ hport (Quiet.raiseModule _ _ (by decide) (Quiet.mbrk _ _ _ _ (le_modBlk _ _ _) (Quiet.p _ _ _ (by decide) hport)))

/-- A write of MCK_CLKOUT (R961). -/
theorem clkoutWrite (v : Word) (h : Quiet s t) : Quiet s (t.clkoutWrite v) := by
  have hfields := Quiet.p Reg.mckClkout Reg.mckClkout_div_m1 (fld v 4 12) (by decide)
    (Quiet.p Reg.mckClkout Reg.mckClkout_en (fld v 0 1) (by decide) h)
  refine Quiet.ite _ (Quiet.setM _ ?_) ?_
  all_goals exact Quiet.ite _ (Quiet.p _ _ _ (by decide) hfields) (Quiet.reserved hfields)

/-- A write of TIME_STEP (R965). -/
theorem timeStepWrite (v : Word) (h : Quiet s t) : Quiet s (t.timeStepWrite v) :=
  Quiet.ite _ (Quiet.answer _ (Quiet.timeRaise _ h)) (Quiet.setM _ (Quiet.wr _ _ (by decide) (Quiet.wr _ _ (by decide) h)))

/-- A write of TIME_SLEW (R966). -/
theorem timeSlewWrite (v : Word) (h : Quiet s t) : Quiet s (t.timeSlewWrite v) :=
  Quiet.p _ _ _ (by decide) (Quiet.setM _ h)

theorem unsync (h : Quiet s t) : Quiet s t.unsync :=
  Quiet.ite _ (Quiet.timeRaise _ (Quiet.p _ _ _ (by decide) h)) h

/-! ## Debug access -/

theorem drawWords (n : Nat) {a : Nat} (ha : 0x7F0000000000 ≤ a) (h : Quiet s t) : Quiet s (t.drawWords a n) := by
  induction n generalizing t a with
  | zero => exact h
  | succ n ih => exact ih (by omega) (Quiet.wr _ _ ha (Quiet.draw h))

theorem newChal (h : Quiet s t) : Quiet s t.newChal := Quiet.setM _ (Quiet.drawWords _ (le_modBlk _ _ _) h)

theorem secP (f : RF) (v : Nat) (h : Quiet s t) : Quiet s (t.secP f v) := Quiet.p _ _ _ (by decide) h

theorem dbgCheck (h : Quiet s t) : Quiet s t.dbgCheck := by
  have hspent : Quiet s (t.setSec { t.m.sec with chalAt := none }) := Quiet.setM _ h
  exact Quiet.ite _ (Quiet.secRaise _ (Quiet.secRaise _ hspent))
    (Quiet.ite _ (Quiet.secRaise _ (Quiet.secP _ _ hspent)) (Quiet.secRaise _ (Quiet.secP _ _ hspent)))

theorem pwWrite (h : Quiet s t) : Quiet s t.pwWrite := Quiet.ite _ (Quiet.secP _ _ (Quiet.setM _ h)) h

/-! ## Staging -/

theorem flashWrite (v off : Nat) (bs : List Byte) (h : Quiet s t) : Quiet s (t.flashWrite v off bs) := Quiet.setM _ h

theorem flashErase (v off n : Nat) (h : Quiet s t) : Quiet s (t.flashErase v off n) := Quiet.setM _ h

theorem dirCompact (h : Quiet s t) : Quiet s t.dirCompact := by
  unfold State.dirCompact
  dsimp only
  split
  · exact Quiet.flashWrite _ _ _ (Quiet.flashErase _ _ _ (Quiet.flashWrite _ _ _ (Quiet.flashErase _ _ _ h)))
  · exact h

/-- A directory entry is written to both devices (R1015, R1021). -/
theorem dirWrite (slot mode version : Nat) (h : Quiet s t) : Quiet s (t.dirWrite slot mode version) := by
  unfold State.dirWrite
  extract_lets s1 seq b e put
  have h1 : Quiet s s1 := Quiet.ite _ (Quiet.dirCompact h) h
  have hput (u : State) (v : Nat) (hu : Quiet s u) : Quiet s (put u v) := by
    dsimp only [put]
    split
    · exact Quiet.flashWrite _ _ _ hu
    · exact hu
  clear_value put s1
  exact hput _ 1 (hput _ 0 h1)

theorem stageDo (op blk : Nat) (win : List Byte) (h : Quiet s t) : Quiet s (t.stageDo op blk win) := by
  unfold State.stageDo
  refine Quiet.setM _ ?_
  split
  · exact Quiet.flashWrite _ _ _ (Quiet.flashErase _ _ _ h)
  · exact Quiet.flashWrite _ _ _ h
  · exact Quiet.dirWrite _ _ _ h
  · exact h

theorem stageRefuse (h : Quiet s t) : Quiet s t.stageRefuse := Quiet.secRaise _ (Quiet.secP _ _ h)

/-- A write of SEC_STAGE_CMD (R1029, R1030). -/
theorem stageWrite (v : Word) (h : Quiet s t) : Quiet s (t.stageWrite v) := by
  have hblk : Quiet s (t.p Reg.secStageCmd Reg.secStageCmd_block_no (fld v 16 12)) := Quiet.p _ _ _ (by decide) h
  refine Quiet.ite _ hblk ?_
  unfold State.stageStart
  split
  · exact Quiet.stageRefuse hblk
  · exact Quiet.secP _ _ (Quiet.stageDo _ _ _ hblk)

/-! ## Sensors and connectors -/

/-- A sample of one coolant sensor (R1067). -/
theorem coolSample (k : Nat) (x : Int) (h : Quiet s t) : Quiet s (t.coolSample k x) := by
  unfold State.coolSample
  extract_lets kind y bad good s1 st f s2 s3
  have hcool : 0x7F0000000000 ≤ Reg.mgtSensCool := by decide
  have hst : 0x7F0000000000 ≤ st := by decide
  have h1 : Quiet s s1 := Quiet.setM _ h
  have h2 : Quiet s s2 := Quiet.p _ _ _ hcool (Quiet.p _ _ _ hcool (Quiet.p _ _ _ hst h1))
  have h3 : Quiet s s3 := Quiet.ite _ (Quiet.p _ _ _ hcool (Quiet.p _ _ _ hst h1)) h1
  exact Quiet.ite _ (Quiet.ite _ (Quiet.sensRaise _ h2) h2) (Quiet.ite _ h1 (Quiet.ite _ (Quiet.p _ _ _ hcool h3) h3))

/-- The samples of a die's sensors (R1071). -/
theorem dieSample (d : Nat) (l : List (Option Int)) (h : Quiet s t) : Quiet s (t.dieSample d l) := by
  have ha : 0x7F0000000000 ≤ Reg.mgtSensDie d := le_modBlk _ _ _
  unfold State.dieSample
  dsimp only
  split
  all_goals exact Quiet.p _ _ _ ha (Quiet.p _ _ _ ha (Quiet.p _ _ _ ha h))

/-- Flow and coolant are judged (R1068, R1069). -/
theorem coolJudge (h : Quiet s t) : Quiet s t.coolJudge := by
  have hst : 0x7F0000000000 ≤ Reg.mgtSensStatus := by decide
  have hclear {u : State} (c : Bool) (f : RF) (hu : Quiet s u) :
      Quiet s (if c then u.p Reg.mgtSensStatus f 0 else u) := Quiet.ite _ (Quiet.p _ _ _ hst hu) hu
  exact hclear _ _ (hclear _ _ (hclear _ _ (Quiet.setM _ h)))

/-- A connector's presence signal changes (R1077). -/
theorem connSeat (c : ConnId) (b : Bool) (h : Quiet s t) : Quiet s (t.connSeat c b) := by
  have ha : 0x7F0000000000 ≤ Reg.mgtConn := by decide
  refine Quiet.ite _ h (Quiet.ite _ (Quiet.ite _ ?_ ?_) (Quiet.setM _ (Quiet.p _ _ _ ha h)))
  · exact Quiet.p _ _ _ ha (Quiet.p _ _ _ ha h)
  · exact Quiet.p _ _ _ ha h

end Quiet

/-- Every next state of an outcome is quiet after `s`. -/
def QuietOutcome (s : State) (o : Host.Outcome State Fault Refusal) : Prop := ∀ t, o = .next t → Quiet s t

namespace QuietOutcome

variable {s : State}

theorem next {t : State} (h : Quiet s t) : QuietOutcome s (.next t) := fun _ ht => Host.Outcome.next.inj ht ▸ h

theorem ite {c : Prop} [Decidable c] {o o' : Host.Outcome State Fault Refusal} (h : QuietOutcome s o)
    (h' : QuietOutcome s o') : QuietOutcome s (if c then o else o') := by
  by_cases hc : c
  · rwa [if_pos hc]
  · rwa [if_neg hc]

/-- Nothing happens, or a quiet effect. -/
theorem skipOr {c : Prop} [Decidable c] {t : State} (h : Quiet s t) :
    QuietOutcome s (if c then .next s else .next t) := ite (next (Quiet.refl s)) (next h)

/-- A write of a module register with a quiet effect. -/
theorem regWr (r : Requester) {a : Nat} {l : RegLoc} {f : State → State} (hl : rgnOf a = .reg l) (hm : l.blk.isModule = true)
    (hf : ∀ t, Quiet s t → Quiet s (f t)) : QuietOutcome s (.next (s.regWr r a f)) := next (Quiet.regWr s r a l hl hm f hf)

/-! ## Power -/

theorem feedLost (f : Fin 2) : QuietOutcome s (execFeedLost f s) :=
  skipOr (Quiet.pwrRaise _ (Quiet.mbrk _ _ _ _ (le_modBlk _ _ _) (Quiet.p _ _ _ (le_modBlk _ _ _) (Quiet.refl s))))

theorem feedRestored (f : Fin 2) : QuietOutcome s (execFeedRestored f s) :=
  next (Quiet.p _ _ _ (le_modBlk _ _ _) (Quiet.refl s))

theorem feedReverse (f : Fin 2) : QuietOutcome s (execFeedReverse f s) :=
  skipOr (Quiet.pwrRaise _ (Quiet.p _ _ _ (le_modBlk _ _ _) (Quiet.openSwitch _ (Quiet.refl s))))

theorem feedReclose (f : Fin 2) : QuietOutcome s (execFeedReclose f s) := by
  unfold execFeedReclose
  dsimp only
  split
  · exact skipOr (Quiet.closeSwitch _ (Quiet.refl s))
  · exact next (Quiet.refl s)

theorem surge : QuietOutcome s (execSurge s) :=
  ite (next (Quiet.p _ _ _ (by decide) (Quiet.refl s))) (next (Quiet.refl s))

theorem shellWatchdog : QuietOutcome s (execShellWatchdog s) :=
  skipOr (Quiet.pwrRaise _ (Quiet.stretch (Quiet.p _ _ _ (by decide) (Quiet.refl s))))

theorem senseOpen (r : Fin 17) : QuietOutcome s (execSenseOpen r s) :=
  skipOr (Quiet.pwrRaise _ (Quiet.mbrk _ _ _ _ (le_modBlk _ _ _)
    (Quiet.p _ _ _ (by decide) (Quiet.p _ _ _ (le_modBlk _ _ _) (Quiet.refl s)))))

theorem managerStep : QuietOutcome s (execManagerStep s) := by
  unfold execManagerStep
  extract_lets km cause k s1 s2 at4 _ s3
  have hstretch : 0x7F0000000000 ≤ Reg.pwrStretch := by decide
  have h1 : Quiet s s1 := Quiet.p _ _ _ hstretch (Quiet.p _ _ _ hstretch (Quiet.refl s))
  have h2 : Quiet s s2 := Quiet.ite _ (Quiet.p _ _ _ (by decide) h1) h1
  have h3 : Quiet s s3 := Quiet.stretch (Quiet.setM _ h2)
  exact skipOr (Quiet.ite _ (Quiet.inc64 _ (by decide) h3) h3)

theorem limitFloor : QuietOutcome s (execLimitFloor s) := by
  unfold execLimitFloor
  split
  · exact skipOr (Quiet.pwrRaise _ (Quiet.p _ _ _ (by decide) (Quiet.refl s)))
  · exact next (Quiet.refl s)

theorem droopRelease (d : Die) : QuietOutcome s (execDroopRelease d s) := next (Quiet.stretch (Quiet.setM _ (Quiet.refl s)))

theorem telemetrySample (x : Telem) : QuietOutcome s (execTelemetrySample x s) := by
  unfold execTelemetrySample
  extract_lets p s1 s2 hist sum i s3 _ s4 s5 v
  have hin : 0x7F0000000000 ≤ i := by decide
  have hrail {u : State} {r : Nat} (hu : Quiet s u) :
      Quiet s (match x.rails[r]? with | some y => u.railSample r y | none => u) := by
    split
    · exact Quiet.railSample _ _ hu
    · exact hu
  have h2 : Quiet s s2 := Quiet.each _ (fun _ _ hu => hrail hu) _ _
    (Quiet.feedSample _ _ _ _ (Quiet.feedSample _ _ _ _ (Quiet.refl s)))
  have h3 : Quiet s s3 := Quiet.p _ _ _ hin (Quiet.p _ _ _ hin (Quiet.p _ _ _ hin h2))
  have h4 : Quiet s s4 := Quiet.inc64 _ (by decide) (Quiet.setM _ h3)
  have h5 : Quiet s s5 := Quiet.ite _ h4 (Quiet.inc64 _ (by decide) h4)
  exact skipOr (Quiet.p _ _ _ (by decide) (Quiet.p _ _ _ (by decide) h5))

/-! ## The reference, CLKOUT and the time base -/

theorem freqWindow (n : Nat) : QuietOutcome s (execFreqWindow n s) :=
  skipOr (Quiet.refUpdate (Quiet.p _ _ _ (by decide) (Quiet.setM _ (Quiet.p _ _ _ (by decide) (Quiet.refl s)))))

theorem clkoutWrite (r : Requester) (v : Word) : QuietOutcome s (execClkoutWrite r v s) :=
  regWr (l := ⟨.mck, 0, 0, 0x20⟩) r (by decide +kernel) rfl (fun _ => Quiet.clkoutWrite v)

theorem timeStep (r : Requester) (v : Word) : QuietOutcome s (execTimeStep r v s) :=
  regWr (l := ⟨.time, 0, 0, 0x18⟩) r (by decide +kernel) rfl (fun _ => Quiet.timeStepWrite v)

theorem timeSlew (r : Requester) (v : Word) : QuietOutcome s (execTimeSlew r v s) :=
  regWr (l := ⟨.time, 0, 0, 0x20⟩) r (by decide +kernel) rfl (fun _ => Quiet.timeSlewWrite v)

theorem timeUnsync : QuietOutcome s (execTimeUnsync s) := skipOr (Quiet.unsync (Quiet.refl s))

/-! ## Debug access and staging -/

/-- A write of SEC_DBG_CTL with a quiet effect. -/
theorem dbgCtl (r : Requester) {f : State → State} (hf : ∀ t, Quiet s t → Quiet s (f t)) :
    QuietOutcome s (.next (s.regWr r Reg.secDbgCtl f)) :=
  regWr (l := ⟨.sec, 0, 0, Reg.secDbgCtl % 0x100000⟩) r (by decide +kernel) rfl hf

theorem jtagInstruction (i : JtagIr) : QuietOutcome s (execJtagInstruction i s) := next (Quiet.setM _ (Quiet.refl s))

theorem stageOp (r : Requester) (op : Nat) (v : Word) : QuietOutcome s (.next (s.stageOp r op v)) :=
  regWr (l := ⟨.sec, 0, 0, 0xA0⟩) r (by decide +kernel) rfl (fun _ => Quiet.stageWrite _)

/-! ## Sensors, connectors and the identity memory -/

theorem sensorSample (x : SensorSet) : QuietOutcome s (execSensorSample x s) := by
  unfold execSensorSample
  extract_lets s1 s2 temp s3 board s4
  have h1 : Quiet s s1 := Quiet.coolSample _ _ (Quiet.coolSample _ _ (Quiet.coolSample _ _ (Quiet.refl s)))
  have h2 : Quiet s s2 := Quiet.dieSample _ _ (Quiet.dieSample _ _ h1)
  have h3 : Quiet s s3 := Quiet.each _ (fun _ _ => Quiet.p _ _ _ (le_modBlk _ _ _)) _ _ h2
  have h4 : Quiet s s4 := Quiet.each _ (fun _ _ => Quiet.p _ _ _ (by decide)) _ _ h3
  exact skipOr (Quiet.coolJudge h4)

theorem sensFlowLow : QuietOutcome s (execSensFlowLow s) :=
  skipOr (Quiet.sensRaise _ (Quiet.p _ _ _ (by decide) (Quiet.refl s)))

theorem sensCoolantHot (b : Bool) : QuietOutcome s (execSensCoolantHot b s) :=
  skipOr (Quiet.sensRaise _ (Quiet.p _ _ _ (by decide) (Quiet.refl s)))

theorem cablePresent (p : Port) (b : Bool) : QuietOutcome s (execCablePresent p b s) :=
  ite (next (Quiet.connSeat _ _ (Quiet.refl s))) (next (Quiet.refl s))

theorem i2cRead (o : Byte) (n : Nat) : QuietOutcome s (execI2cRead o n s) := next (Quiet.emit _ (Quiet.refl s))

end QuietOutcome

/-- Settles O55: one lemma per command, each built of the quiet operations. -/
theorem moduleCommandsLeaveTheDiesAlone : Obligations.ModuleCommandsLeaveTheDiesAlone := by
  unfold Obligations.ModuleCommandsLeaveTheDiesAlone
  intro s t r v f n x y p b i o rl dd c hc
  suffices QuietOutcome s (exec c s) from this t
  simp only [List.mem_cons, List.not_mem_nil, or_false] at hc
  rcases hc with rfl | rfl | rfl | rfl | rfl | rfl | rfl | rfl | rfl | rfl | rfl | rfl | rfl | rfl | rfl | rfl | rfl | rfl |
    rfl | rfl | rfl | rfl | rfl | rfl | rfl | rfl | rfl | rfl | rfl | rfl
  · exact QuietOutcome.feedLost f
  · exact QuietOutcome.feedRestored f
  · exact QuietOutcome.feedReverse f
  · exact QuietOutcome.feedReclose f
  · exact QuietOutcome.surge
  · exact QuietOutcome.shellWatchdog
  · exact QuietOutcome.senseOpen rl
  · exact QuietOutcome.managerStep
  · exact QuietOutcome.limitFloor
  · exact QuietOutcome.droopRelease dd
  · exact QuietOutcome.telemetrySample x
  · exact QuietOutcome.freqWindow n
  · exact QuietOutcome.clkoutWrite r v
  · exact QuietOutcome.timeStep r v
  · exact QuietOutcome.timeSlew r v
  · exact QuietOutcome.timeUnsync
  · exact QuietOutcome.dbgCtl r fun _ => Quiet.newChal
  · exact QuietOutcome.dbgCtl r fun _ => Quiet.dbgCheck
  · exact QuietOutcome.dbgCtl r fun _ => Quiet.pwWrite
  · exact QuietOutcome.jtagInstruction i
  · exact QuietOutcome.sensorSample y
  · exact QuietOutcome.sensFlowLow
  · exact QuietOutcome.sensCoolantHot b
  · exact QuietOutcome.cablePresent p b
  · exact QuietOutcome.i2cRead o n
  · exact QuietOutcome.stageOp r 1 v
  · exact QuietOutcome.stageOp r 2 v
  · exact QuietOutcome.stageOp r 3 v
  · exact QuietOutcome.stageOp r 4 v
  · exact QuietOutcome.stageOp r 5 v

end Sys2Proof.Machine
end
